-- ==== Sys2Proof/Word.lean ====
section
/-! DEFINITION. The machine's words and the names that number its repeated parts (spec 00_scope.md R1, R2, R9; 01_dies_and_links.md R12). -/
namespace Sys2Proof

/-- A register of the set-up map: 32 bits (R9). -/
abbrev Word := BitVec 32
/-- A 64-bit word: a descriptor word, an address, a count of q, a host or memory word. -/
abbrev QWord := BitVec 64
/-- One byte of memory. -/
abbrev Byte := BitVec 8

/-- Channel CH0 to CH15 (R2). -/
abbrev ChanId := Fin 16
/-- Lamp die LAMP0 to LAMP3 (R1). -/
abbrev LampId := Fin 4
/-- Bias line BL0 to BL31 (R2). -/
abbrev BiasId := Fin 32
/-- Dome die: 0 DOME_A, 1 DOME_B (R1). The host functions carry the same numbers (R26). -/
abbrev DomeId := Fin 2
/-- Host function: 0 DOME_A's, 1 DOME_B's (R26). -/
abbrev Func := Fin 2
/-- Meridian die: 0 MERID_A, 1 MERID_B (R1). -/
abbrev MerId := Fin 2
/-- Hawser link 0 to 21 (R12). -/
abbrev LinkId := Fin 22
/-- Tender stream 0 to 15; streams 0 to 7 are DOME_A's (R132). -/
abbrev StreamId := Fin 16
/-- Keeper engine 0 to 3: 0 and 1 on DOME_A, 2 and 3 on DOME_B. -/
abbrev KeeperId := Fin 4
/-- Memory port MP0 to MP4 of a Dome (R1). -/
abbrev PortId := Fin 5
/-- Plate bank PB0 to PB5 of a Dome. -/
abbrev BankId := Fin 6
/-- Beacon channel (R3). -/
abbrev BeaconCh := Fin 256
/-- Subscribed task input of the beacon fabric. -/
abbrev ConsId := Fin 212
/-- Event or interrupt source of the beacon fabric (R3). -/
abbrev SrcId := Fin 640
/-- Delay timer of the beacon fabric. -/
abbrev TimerId := Fin 4
/-- Event output EV_OUT0 to EV_OUT7. -/
abbrev EvOutId := Fin 8
/-- Input of the Transit unit (R3). -/
abbrev TrnIn := Fin 64
/-- Statistics engine of the Transit unit. -/
abbrev EngId := Fin 8
/-- Dispatch or report ring. -/
abbrev RingId := Fin 64
/-- Slot of a configuration transaction opened with BEGIN. -/
abbrev TxnId := Fin 4
/-- One of the eight dies, numbered in the order of the SNAPSHOT mask (R388): MERID_A, MERID_B, DOME_A, DOME_B, LAMP0 to LAMP3. -/
abbrev Die := Fin 8

/-- One of the 76 power domains, numbered as R413 numbers them. -/
abbrev DomId := Fin 76

def Die.meridA : Die := 0
def Die.meridB : Die := 1
def Die.domeA : Die := 2
def Die.domeB : Die := 3
def Die.ofMerid (m : MerId) : Die := ⟨m.val, by omega⟩
def Die.ofDome (d : DomeId) : Die := ⟨2 + d.val, by omega⟩
def Die.ofLamp (n : LampId) : Die := ⟨4 + n.val, by omega⟩

/-- The Lamp die of a channel: LAMPn carries CH(4n) to CH(4n+3) (R2). -/
def lampOf (c : ChanId) : LampId := ⟨c.val / 4, by omega⟩
/-- Channel `i` of Lamp die `n` (R2). -/
def chanOfLamp (n : LampId) (i : Fin 4) : ChanId := ⟨4 * n.val + i.val, by omega⟩
/-- The Lamp die of a bias line: LAMPn drives BL(8n) to BL(8n+7) (R2). -/
def lampOfBias (b : BiasId) : LampId := ⟨b.val / 8, by omega⟩
/-- Bias line `j` of Lamp die `n` (R2). -/
def biasOfLamp (n : LampId) (j : Fin 8) : BiasId := ⟨8 * n.val + j.val, by omega⟩
/-- The home Dome of a stream (R132). -/
def domeOfStream (st : StreamId) : DomeId := ⟨st.val / 8, by omega⟩
/-- Stream `i` of Dome `d`. -/
def streamOfDome (d : DomeId) (i : Fin 8) : StreamId := ⟨8 * d.val + i.val, by omega⟩
/-- The Dome of a keeper engine. -/
def domeOfKeeper (k : KeeperId) : DomeId := ⟨k.val / 2, by omega⟩
/-- Keeper `i` of Dome `d`. -/
def keeperOfDome (d : DomeId) (i : Fin 2) : KeeperId := ⟨2 * d.val + i.val, by omega⟩
/-- The other one of a pair of Domes, functions or Meridians. -/
def twin (d : Fin 2) : Fin 2 := ⟨1 - d.val, by omega⟩

/-- LCTL of a Lamp die, and the CHD domain of a channel, among the 76 (R413). -/
def domLctl (n : LampId) : DomId := ⟨12 * n.val, by omega⟩
def domChan (c : ChanId) : DomId := ⟨12 * (c.val / 4) + 1 + c.val % 4, by omega⟩
def domDac (c : ChanId) : DomId := ⟨12 * (c.val / 4) + 5 + c.val % 4, by omega⟩
def domBias (n : LampId) : DomId := ⟨12 * n.val + 9, by omega⟩
def domLook (n : LampId) : DomId := ⟨12 * n.val + 10, by omega⟩
/-- DCTL, the memory ports, PCIE and PLATE of a Dome, and AON, SYN and TRN of a Meridian (R413). -/
def domDctl (d : DomeId) : DomId := ⟨48 + 10 * d.val, by omega⟩
def domPort (d : DomeId) (p : PortId) : DomId := ⟨49 + 10 * d.val + p.val, by omega⟩
def domPcie (d : DomeId) : DomId := ⟨54 + 10 * d.val, by omega⟩
def domPlate (d : DomeId) : DomId := ⟨55 + 10 * d.val, by omega⟩
def domAon (m : MerId) : DomId := ⟨68 + 4 * m.val, by omega⟩
def domSyn (m : MerId) : DomId := ⟨69 + 4 * m.val, by omega⟩
def domTrn (m : MerId) : DomId := ⟨70 + 4 * m.val, by omega⟩
/-- The die of a power domain (R413). -/
def dieOfDom (x : DomId) : Die :=
  if x.val < 48 then ⟨4 + x.val / 12 % 4, by omega⟩ else if x.val < 68 then ⟨2 + (x.val - 48) / 10 % 2, by omega⟩ else ⟨(x.val - 68) / 4 % 2, by omega⟩

/-- A two's complement field of `w` bits read as an integer. -/
def toSigned (w n : Nat) : Int := if n < 2 ^ (w - 1) then (n : Int) else (n : Int) - 2 ^ w
/-- An integer as a two's complement field of `w` bits. -/
def ofSigned (w : Nat) (i : Int) : Nat := (i % (2 ^ w : Int)).toNat
/-- Bit `i` of a number. -/
def bitOf (n i : Nat) : Bool := n.testBit i
/-- Bits `[lo + w - 1 : lo]` of a number (R5). -/
def bitsOf (n lo w : Nat) : Nat := n >>> lo % 2 ^ w

end Sys2Proof
end

