-- ==== Sys2Proof/Syntax.lean ====
section
/-! DEFINITION. The commands: one constructor for each row of the table of operations and events, with the operands the row's rule gives it
and, for an event of the outside world, what the part observes. -/
namespace Sys2Proof

/-- Word W0 of a descriptor, beside its opcode, and the dispatch ring that carries it (R346). -/
structure DescHdr where
  ring       : RingId
  report     : Bool
  irq        : Bool
  fence      : Bool
  txn        : Bool
  txnId      : TxnId
  reportRing : RingId
  tag        : Word
deriving DecidableEq, Repr

/-- A SET item (R347): the BAR0 byte offset, MASKED, HIGH and the value. -/
structure SetItem where
  offset : BitVec 25
  masked : Bool
  high   : Bool
  value  : Word
deriving DecidableEq, Repr

/-- How an error-checked word reads: clean, with one bit in error, or with two (R257, R324). -/
inductive Ecc where
  | clean | single | double
deriving DecidableEq, Repr

/-- A microcoded engine (R256): the engine of a channel, or a keeper. -/
inductive Engine where
  | channel (c : ChanId)
  | keeper (k : KeeperId)
deriving DecidableEq, Repr

/-- Classes of memory request (R295). -/
inductive MemClass where
  | play | stream | host | migrate | scrub
deriving DecidableEq, Repr

/-- A memory request of one 64 B unit (R293, R295): its number, class, data address, OPEN hint and, for a write, its 64 bytes. -/
structure MemReq where
  id    : Nat
  cls   : MemClass
  addr  : Nat
  open_ : Bool
  write : Option (Vector Byte 64)
deriving DecidableEq, Repr

/-- One access at a port of a plate bank (R319 to R322): nothing, a read, a write of bytes under a mask, or an atomic 64-bit addition. -/
inductive PlateAccess where
  | none
  | read (word : Nat)
  | write (word : Nat) (data : QWord) (mask : Byte)
  | add64 (word : Nat) (data : QWord)
deriving DecidableEq, Repr

/-- The masters that reach a bank through port B, in the order of R332. -/
inductive PlateMaster where
  | hostDma | keeper | mirror | image | otherKeeper
deriving DecidableEq, Repr

/-- An upset found by the sweep of R378: one copy of a voted field holding another value, or a flipped bit of a register with parity (R380). -/
inductive Upset where
  | copy (offset : Nat) (lo : Nat) (copy : Fin 3) (value : Nat)
  | bit (offset : Nat) (bit : Fin 32)
deriving DecidableEq, Repr

/-- How a step of a start went (R397, R403): completed, or failed and skipped or halted. -/
inductive StepTry where
  | passes | fails
deriving DecidableEq, Repr

/-- What a start or an exit from LAID-UP finds: whether each step ST-1 to ST-15 passes in the form it runs in, and what fell out where a step is skipped: dies and
channels excluded, lookouts off, links lost, ports lost and Meridians that did not lock; the strap of MEM_MODE (R29), the density the
components report and whether they differ (R287); the boot image's VERSION and SEC_VERSION; the ledger copies that read bad (R396 to R405); the records of the secure store, in the order R429 lists
them, that fail on both devices; and the straps of SMB_ADDR (R450). -/
structure StartObs where
  steps     : Vector StepTry 15
  dies      : BitVec 8
  channels  : BitVec 16
  lookOff   : BitVec 4
  links     : BitVec 22
  ports     : BitVec 10
  merid     : BitVec 2
  half      : Bool
  density   : Fin 16
  mixed     : Bool
  bootVer   : Word
  bootSec   : Word
  bad0      : Bool
  bad1      : Bool
  storeBad  : BitVec 5
  smbAddr   : BitVec 3
  linkGen   : Vector (Fin 7) 2
  linkWidth : Vector Nat 2
deriving DecidableEq, Repr

/-- The requesters of R377 that hold latches of their own: the two functions, the four keepers and the HATCH. -/
inductive Requester where
  | func (f : Func)
  | keeper (k : KeeperId)
  | hatch
deriving DecidableEq, Repr

/-- The commands. -/
inductive Instr where
  -- spec 01_dies_and_links.md
  | flitCrcError (l : LinkId) (ret : Bool) (lane : Nat)
  | laneSwapDone (l : LinkId) (ret : Bool) (trained : Bool)
  | heartbeatSend (d : DomeId)
  | heartbeatMissed (d : DomeId) (byPeer byMerid : Bool)
  | meridianLost (m : MerId)
  -- spec 02_characteristics.md
  | loadTable (h : DescHdr) (addr : QWord) (c : ChanId) (slot : Fin 2) (first count : Nat)
  | tableHomeWrite (f : Func) (c : ChanId) (home : Fin 4)
  | tableMoveDone (c : ChanId)
  | swapCancel (f : Func) (c : ChanId)
  | swapTake (c : ChanId)
  | iterationEnd (c : ChanId)
  | entryRead (c : ChanId) (entry : Nat) (ecc mirror : Ecc)
  | lookaheadRequest (c : ChanId) (n : Nat)
  | granuleArrive (c : ChanId) (n : Nat)
  | granuleLate (c : ChanId)
  | primingDone (c : ChanId)
  | startInstant (c : ChanId) (dark : Nat)
  | markerPulseStart (c : ChanId) (mk : Fin 2)
  | markerPulseEnd (c : ChanId) (mk : Fin 2)
  -- spec 03_jumps_and_cutoffs.md
  | jumpEventRegister (c : ChanId) (ch : BeaconCh) (merged : Nat)
  | jumpTake (c : ChanId)
  | headReadDone (c : ChanId) (place : Fin 8) (ok : Bool)
  | groupOrderReceive (c : ChanId)
  -- spec 04_lantern_pipeline.md
  | freqLoWrite (f : Func) (c : ChanId) (k : Fin 8) (v : Word)
  | freqHiWrite (f : Func) (c : ChanId) (k : Fin 8) (v : Word)
  | chirpCurveStep (c : ChanId)
  -- spec 05_tender_streams.md
  | streamAttach (h : DescHdr) (st : StreamId) (ctrl region fallback ringLo ringHi : Word) (cons : QWord) (wmA wmB limit : Word)
  | streamDetach (h : DescHdr) (st : StreamId)
  | tndAttachWrite (f : Func) (st : StreamId) (v : Word)
  | tndDetachWrite (f : Func) (st : StreamId) (v : Word)
  | doorbellPoll (d : DomeId)
  | blockLanded (st : StreamId) (block : Nat)
  | blockConsumed (st : StreamId)
  | underrunDeclare (st : StreamId)
  | resumeTest (st : StreamId)
  | keepPositionTest (st : StreamId)
  | streamReentry (st : StreamId)
  | tndLimitWrite (f : Func) (st : StreamId) (v : Word)
  | tndWmWrite (f : Func) (st : StreamId) (second : Bool) (v : Word)
  | streamDrained (st : StreamId)
  -- spec 06_outputs.md
  | dacSupplyValid (n : LampId)
  | darkNFall
  | darkNRise
  | rangeGainSwitch (c : ChanId)
  | rangeResume (c : ChanId)
  | markerSettingApply (c : ChanId) (mk : Fin 2)
  | biasTick (n : LampId)
  | biasPdataWrite (f : Func) (b : BiasId) (v : Word)
  | biasCtrlWrite (f : Func) (b : BiasId) (v : Word)
  | deglitchTrack (b : BiasId)
  | lookoutMeasure (n : LampId) (measured : Int)
  | lookoutBlockEnd (n : LampId)
  | cellSwap (c : ChanId)
  | swapNow (f : Func) (c : ChanId)
  -- spec 07_meridian.md
  | bandFound (m : MerId) (loop : Fin 2) (band : Nat)
  | loopLocked (m : MerId) (loop : Fin 2)
  | lockLoss (m : MerId) (loop : Fin 2)
  | refValid (m : MerId)
  | refLost (m : MerId)
  | dpllBwStep (m : MerId)
  | dpllLock (m : MerId)
  | refOffsetMeasured (m : MerId) (offset : Int)
  | slewDone (m : MerId)
  | dpllCmdSlew (f : Func) (m : MerId)
  | dpllCmdStepSync (f : Func) (m : MerId)
  | applyNow (f : Func) (m : MerId)
  | delayWalkStep (m : MerId) (k : Fin 12)
  | syncEdge (stamp : Nat)
  | syncApply
  | syncFire (f : Func) (m : MerId)
  | measureEcho (f : Func) (m : MerId) (drift : Int)
  | twinTrim (k : Fin 10) (residual : Int)
  | clockPresenceLoss (k : Fin 10)
  | failoverSwitchDone (k : Fin 10)
  -- spec 08_transit.md
  | transitEdge (input : TrnIn) (fall : Bool) (stampA stampB : Nat)
  | inputStuck (input : TrnIn)
  | inputRelease (input : TrnIn)
  | interpCalDone (m : MerId) (input : TrnIn)
  | engRunStart (f : Func) (m : MerId) (e : EngId) (v : Word)
  | engRunAbort (f : Func) (m : MerId) (e : EngId) (v : Word)
  | enginePairTimeout (m : MerId) (e : EngId)
  -- spec 09_beacon_fabric.md
  | taskInputActivate (cons : ConsId) (ch : BeaconCh) (extra : Nat)
  | pendingActivationStart (cons : ConsId)
  | deliveryComplete (ch : BeaconCh)
  | legTimeout (ch : BeaconCh)
  | bcnInjectWrite (f : Func) (v : Word)
  | timerStartWrite (f : Func) (t : TimerId) (v : Word)
  | timerStopWrite (f : Func) (t : TimerId) (v : Word)
  | timerExpire (t : TimerId)
  | timerDeferredPublish (t : TimerId)
  | evOutPulseEnd (j : EvOutId)
  -- spec 10_orrery.md
  | routineStart (k : KeeperId)
  | microwordExecute (e : Engine) (ecc : Ecc)
  | releaseDone (k : KeeperId)
  | waitConditionMet (k : KeeperId)
  | waitTimeout (k : KeeperId)
  | runLimit (k : KeeperId)
  | unitOpComplete (k : KeeperId) (unit : Fin 4) (ok : Bool)
  | regPollRead (k : KeeperId)
  | storeScrubRead (e : Engine) (word : Nat) (ecc : Ecc)
  | ownerImageWrite
  | progressReport (c : ChanId)
  | shadowReport (c : ChanId)
  | shadowSilent (c : ChanId)
  | recoverStoreRewritten (c : ChanId)
  -- spec 11_mooring.md
  | memRequestArrive (d : DomeId) (req : MemReq)
  | memCommandIssue (d : DomeId) (p : PortId) (sc : Fin 4)
  | writeDone (d : DomeId) (id : Nat)
  | refreshInterval (d : DomeId) (p : PortId) (sc : Fin 4)
  | tempRead (d : DomeId) (p : PortId) (celsius : BitVec 8) (above : Bool)
  | nbrLfsrReseed (d : DomeId) (p : PortId)
  | scrubReadDone (d : DomeId) (stripe : Nat) (mismatch : Bool)
  | caparAlert (d : DomeId) (p : PortId) (oldest : Nat)
  | edcFail (d : DomeId) (p : PortId) (addr : Nat) (uncorrectable : Bool)
  | spareRetrainDone (d : DomeId) (ok : Bool)
  | migStartWrite (f : Func) (d : DomeId) (v : Word)
  | migrationStripeDone (d : DomeId)
  | srIdleTimeout (d : DomeId)
  | srExit (d : DomeId)
  | freqGo (f : Func) (d : DomeId) (v : Word)
  | freqChangeDone (d : DomeId)
  -- spec 12_plate_banks.md
  | pbAccess (d : DomeId) (b : BankId) (portA portB : PlateAccess) (master : PlateMaster) (ecc : Ecc)
  | pbWriteRetry (d : DomeId) (b : BankId)
  | pbTestStart (d : DomeId) (b : BankId)
  | pbTestPhaseDone (d : DomeId) (b : BankId) (bad : Option (Fin 2)) (ecc : Ecc)
  | pbRestoreDone (d : DomeId) (b : BankId)
  | pbRowCopyDone (d : DomeId) (b : BankId)
  -- spec 13_host_rings.md
  | nop (h : DescHdr)
  | loadSeg (h : DescHdr) (addr : QWord) (data : Nat) (home : Fin 4) (len : Nat)
  | readSeg (h : DescHdr) (addr : QWord) (data : Nat) (home : Fin 4) (len : Nat)
  | loadImage (h : DescHdr) (addr : QWord) (len : Nat) (target : Fin 4)
  | start (h : DescHdr) (mask : BitVec 16) (entries : Vector (BitVec 14) 16) (delay : Nat)
  | stop (h : DescHdr) (mask : BitVec 16)
  | swap (h : DescHdr) (mask : BitVec 16) (entries : Vector (BitVec 14) 16)
  | snapshot (h : DescHdr) (dies : BitVec 8) (at_ : Bool) (t : QWord) (addr : QWord)
  | snapshotLatch (die : Die)
  | snapshotComplete
  | inject (h : DescHdr) (ch : BeaconCh) (info : BitVec 24)
  | testPbPass (h : DescHdr) (d : DomeId) (b : Fin 8)
  | testLookSelf (h : DescHdr) (lamps : BitVec 4)
  | testScrubPass (h : DescHdr) (d : DomeId)
  | testFaultInject (h : DescHdr) (w2 : QWord)
  | keyEnrollOwner (h : DescHdr) (addr : QWord)
  | keyAttest (h : DescHdr) (addr : QWord) (nonce : Vector Byte 32)
  | keyFuseDark (h : DescHdr) (mask : BitVec 16) (codes : Vector (BitVec 16) 16)
  | beginTxn (h : DescHdr)
  | setItems (h : DescHdr) (items : List SetItem)
  | commitImmediate (h : DescHdr)
  | commitAtUgc (h : DescHdr) (ugc : Nat)
  | commitOnChannel (h : DescHdr) (ch : BeaconCh)
  | txnApply (t : TxnId)
  | rollback (h : DescHdr)
  | ringSetup (h : DescHdr) (report : Bool) (ring : RingId) (func : Func) (log2 : Fin 32) (defReport : RingId) (vector : Fin 128) (coalCount : Byte)
      (coalTime : BitVec 16) (base : QWord)
  | ringTeardown (h : DescHdr) (report : Bool) (ring : RingId)
  | watchdog (h : DescHdr) (period timeout : Word) (action : Fin 4)
  | abortFunction (h : DescHdr)
  | abortChannels (h : DescHdr) (mask : BitVec 16)
  | descriptorInvalid (ring : RingId) (words : Vector QWord 8)
  | reportPost (r : RingId)
  | msixSend (v : Fin 128)
  | coalTimeout (r : RingId)
  | hostLinkDown (f : Func)
  | hostLinkUp (f : Func) (gen : Fin 7) (width : Fin 32)
  | d3hotEntry (f : Func)
  | watchdogHeartbeat
  | hostTimeout
  | dmaReadTimeout (ring : RingId)
  | dmaBadCompletion (ring : RingId)
  -- spec 14_register_conventions.md
  | registerWrite (f : Func) (off : Nat) (v : Word) (be : BitVec 4)
  | maskedWrite (f : Func) (off : Nat) (v : Word)
  | rcFieldRead (q : Requester) (off : Nat)
  | loRegisterRead (q : Requester) (off : Nat)
  | voteSweep (upsets : List Upset)
  | featAccept0Write (f : Func) (v : Word)
  | dring0EnWrite (f : Func) (v : Word)
  | rring0EnWrite (f : Func) (v : Word)
  -- spec 15_start_and_states.md
  | startBegin (obs : StartObs)
  | reqShuttered (f : Func)
  | reqLit (f : Func)
  | reqLaidUp (f : Func)
  | laidupExitDone (obs : StartObs)
  | pwrResetWrite (f : Func)
  | resetNLow
  | powerGoodLow (pg : Fin 4)
  | perst (f : Func)
  | dieReturn (die : Die)
  | readmitDone (n : LampId)
  | ageingLog
  | ledgerCompactDone (ok0 ok1 : Bool)
  | clearAltWrite (f : Func) (v : Word)
  | compactWrite (f : Func)
  -- spec 16_faults_spares_security.md
  | attKeyGenDone
  | hatchChallenge
  | hatchUnlock (token : List Byte)
  | hatchOpenDone
  | hatchBypass (tdi : Bool)
  | hatchIdcode
  | hatchSamplePreload
  | hatchExtest
  -- spec 17_balls_and_electrical.md
  | smbStatus
  | smbTemps
  | smbPower
  | smbCase
  | smbAvail
  | smbSerial
  | smbRails
  | smbAlertResponse
  | railMonitorTrip (die : Die) (rail : Fin 12)
  | telemetryRefresh (temps : Vector (BitVec 12) 8) (powers : Vector (BitVec 12) 8) (rails : Vector (BitVec 16) 12) (out : BitVec 12)
  | regTimeout (k : KeeperId)
  | openRowTimeout (d : DomeId) (p : PortId) (sc : Fin 4) (bank : Fin 16)
  | dieHeartbeatMissed (n : LampId)
deriving DecidableEq, Repr

end Sys2Proof
end

