-- ==== Sys2Proof/Decode.lean ====
section
/-! DEFINITION. The decoder of the table of operations and events. No row of the table gives a command any bits: commands reach the part as register accesses, descriptors, protocol
operations and events, so no word spells one. -/
namespace Sys2Proof

/-- The command a word spells by the table's bits: none, because no row gives bits. -/
def decodeTableWord (_nbits _w : Nat) : Option Instr := none

end Sys2Proof
end

