-- ==== Sys2Proof/Config.lean ====
section
/-! DEFINITION. What one part fixes for its life, and the free values the spec leaves open. -/
namespace Sys2Proof

/-- A free value: bits the spec leaves open or takes from a true random source. The state's counter `free` selects one that was not used before. -/
opaque Config.freeBits : Nat → QWord

/-- The stored sample that a channel's pipeline is fed, by channel and sample of the unit's granule count × 32, where the granule's own samples are not there to feed: in their low halves I and Q. The spec
states what the DAC stage shows for such a granule (R34, R57, R59, R146, R310), not what the chain is fed. -/
opaque Config.lostSample : Fin 16 → Nat → QWord

/-- The half-band coefficients c_0 to c_9, fixed in the silicon and reported in LANT_HB0 to LANT_HB9; the sum of all eleven gives c_10 (R110). -/
opaque Config.halfBand : Fin 11 → BitVec 18

/-- Which sign of MER_TWIN_CALn.RESIDUAL asks for a longer delay of MERID_B (R210); the spec does not state it. -/
opaque Config.twinSign : Bool

/-- The base value of the delay e from SYNC_IN to SYNC_ECHO, fixed in each part, above 2.5 ns in steps of 0.25 ps: at most 4.5 ns in all (R215, R449). -/
opaque Config.echoDelay : Fin 8001

/-- The value fuses or factory data give a register, by its BAR0 offset (REV, SERIAL, the offsets of R225 and R206). -/
opaque Config.fuse : Nat → Word

/-- The vendor key block, whose hash the vendor fuses hold (R425, R426). -/
opaque Config.vendorKey : List Byte

/-- SHA-512 (R425), which the spec takes from its standard. -/
opaque Config.sha512 : List Byte → Vector Byte 64

/-- Whether a signature of the key in a key block over some bytes verifies by RSASSA-PSS (R425), which the spec takes from its standard. -/
opaque Config.verifies : (key signed signature : List Byte) → Bool

/-- The modulus of the `n`th attestation key pair generated (R430), and the signature of some bytes with it (R431). -/
opaque Config.attModulus : Nat → Vector Byte 512
/-- See `Config.attModulus`. -/
opaque Config.attSign : Nat → List Byte → Vector Byte 512

/-- The CRC-32 of the ledger (R401, R402), whose polynomial and conventions the spec does not give. -/
opaque Config.crc32 : List Byte → BitVec 32

/-- The boot image of a VERSION as verified (R427, R431): its hash. -/
opaque Config.bootHash : Word → Vector Byte 64

/-- The low halves of the VERSION of the vendor channel and keeper images in the boot flash, and the routines those images give the vendor inputs (R264, R272, R285). -/
opaque Config.flashVersion : Fin 2 → BitVec 16
/-- See `Config.flashVersion`. -/
opaque Config.vendorRoutine : Fin 4 → BitVec 8
/-- An entry of the routine table of the vendor keeper image in the boot flash (R272). -/
opaque Config.vendorEntry : Fin 256 → QWord
/-- The words of the vendor channel (0) and keeper (1) images the boot flash left the factory with, how many there are, their SEC_VERSION, and the hashes of their contents (R272, R284). -/
opaque Config.vendorWord : Fin 2 → Nat → BitVec 176
/-- See `Config.vendorWord`. -/
opaque Config.vendorCount : Fin 2 → BitVec 14
/-- See `Config.vendorWord`. -/
opaque Config.vendorSec : Fin 2 → Word
/-- See `Config.vendorWord`. -/
opaque Config.vendorHash : Fin 2 → Vector Byte 64

/-- The IEEE 1149.1 identification code, which the spec does not give. -/
opaque Config.idcode : Word

end Sys2Proof
end

