-- ==== Sys2Proof/Machine/RegMap.lean ====
section
/-! DEFINITION. The set-up map of BAR0 (spec 14_register_conventions.md R368 to R370, R388 and the register tables of every chapter):
the fields of every register, with their access codes and reset values, the registers, their offsets, and the decoding of an offset. -/
namespace Sys2Proof.Machine
open Sys2Proof

/-- The access codes of R10 and R372. `act`: an RW field with an action, "write 1: …; reads 0". `staged`: an RW field whose write
goes to a holding place of its own and not to the value read (R119, R236). `rsv`: a reserved bit of an RW or LK register (R375);
the reserved bits of RO and RC registers are `ro`. -/
inductive Access where
  | rw | ro | rc | w1 | lk | act | staged | rsv
deriving DecidableEq, Repr

/-- One row of a register table (R9): the field's lowest bit, its width, its access code, whether it is voted (†, R378) and its reset value. -/
structure FieldSpec where
  lo     : Nat
  width  : Nat
  access : Access
  voted  : Bool
  reset  : Nat
deriving DecidableEq, Repr

def CHAR_CTRL.TABLE_HOME : FieldSpec := ⟨0, 2, .lk, true, 2⟩
def CHAR_CTRL.SWAP_MODE : FieldSpec := ⟨2, 2, .rw, false, 0⟩
def CHAR_CTRL.STROBE_SEL : FieldSpec := ⟨4, 2, .rw, false, 0⟩
def CHAR_CTRL.PRIME_GAP_EV : FieldSpec := ⟨6, 1, .rw, false, 1⟩
def CHAR_CTRL.SWAP_CANCEL : FieldSpec := ⟨7, 1, .act, false, 0⟩
def CHAR_TABLE.ACTIVE_LEN : FieldSpec := ⟨0, 15, .ro, false, 0⟩
def CHAR_TABLE.ACTIVE_SLOT : FieldSpec := ⟨15, 1, .ro, false, 0⟩
def CHAR_TABLE.STAGED_LEN : FieldSpec := ⟨16, 15, .ro, false, 0⟩
def CHAR_TABLE.STAGED_BUSY : FieldSpec := ⟨31, 1, .ro, false, 0⟩
def CHAR_SWAP.SWAP_ENTRY : FieldSpec := ⟨0, 14, .rw, false, 0⟩
def CHAR_POS.ENTRY : FieldSpec := ⟨0, 14, .ro, false, 0⟩
def CHAR_POS.DEPTH : FieldSpec := ⟨14, 4, .ro, false, 0⟩
def CHAR_POS.STATE : FieldSpec := ⟨18, 3, .ro, false, 0⟩
def CHAR_POS.MOVING : FieldSpec := ⟨21, 1, .ro, false, 0⟩
def CHAR_ITER.ITER : FieldSpec := ⟨0, 24, .ro, false, 0⟩
def CHAR_GOFF.GOFF : FieldSpec := ⟨0, 32, .ro, false, 0⟩
def CHAR_PLAYED_LO.PLAYED_LO : FieldSpec := ⟨0, 32, .ro, false, 0⟩
def CHAR_PLAYED_HI.PLAYED_HI : FieldSpec := ⟨0, 32, .ro, false, 0⟩
def CHAR_LEAD.LEAD : FieldSpec := ⟨0, 16, .ro, false, 0⟩
def CHAR_LEAD.LEAD_MIN : FieldSpec := ⟨16, 16, .rc, false, 65535⟩
def CHAR_STATUS.END_REACHED : FieldSpec := ⟨0, 1, .rc, false, 0⟩
def CHAR_STATUS.SWAP_DONE : FieldSpec := ⟨1, 1, .rc, false, 0⟩
def CHAR_STATUS.SWAP_JUMP_DROP : FieldSpec := ⟨2, 1, .rc, false, 0⟩
def CHAR_STATUS.PRIME_GAP : FieldSpec := ⟨3, 1, .rc, false, 0⟩
def CHAR_STATUS.WALK_FAULT : FieldSpec := ⟨4, 1, .rc, false, 0⟩
def CHAR_STATUS.RELAY_SHORT : FieldSpec := ⟨5, 1, .rc, false, 0⟩
def CHAR_STATUS.SEG_LOST : FieldSpec := ⟨6, 1, .rc, false, 0⟩
def CHAR_STATUS.SWAP_CANCELLED : FieldSpec := ⟨7, 1, .rc, false, 0⟩
def CHAR_STATUS.HOME_REFUSED : FieldSpec := ⟨8, 1, .rc, false, 0⟩
def CHAR_FAULT.FAULT_ENTRY : FieldSpec := ⟨0, 14, .ro, false, 0⟩
def CHAR_FAULT.FAULT_CODE : FieldSpec := ⟨16, 4, .ro, false, 0⟩
def CHAR_PRIME_GAP.GRANULES : FieldSpec := ⟨0, 32, .rc, false, 0⟩
def CHAR_SEG_LOST.GRANULES : FieldSpec := ⟨0, 32, .rc, false, 0⟩
def CHAR_FOREVER.FOREVER : FieldSpec := ⟨0, 8, .ro, false, 0⟩
def CHAR_FRAMEk.REMAINING : FieldSpec := ⟨0, 32, .ro, false, 0⟩
def JMP_CTRL.TAKEN_EV : FieldSpec := ⟨0, 1, .rw, false, 0⟩
def JMP_CTRL.LATE_EV : FieldSpec := ⟨1, 1, .rw, false, 0⟩
def JMP_CTRL.DEGRADE_EV : FieldSpec := ⟨2, 1, .rw, false, 0⟩
def JMP_CTRL.DROP_EV : FieldSpec := ⟨3, 1, .rw, false, 0⟩
def JMP_CTRL.EV_CH : FieldSpec := ⟨8, 8, .rw, false, 0⟩
def JMP_GROUP.GROUP : FieldSpec := ⟨0, 3, .lk, true, 0⟩
def JMP_GROUP.GROUP_EN : FieldSpec := ⟨3, 1, .lk, true, 0⟩
def JMP_GROUP.LEADER : FieldSpec := ⟨4, 1, .ro, false, 0⟩
def JMP_STATUS.TAKEN : FieldSpec := ⟨0, 1, .rc, false, 0⟩
def JMP_STATUS.CARRIED : FieldSpec := ⟨1, 1, .rc, false, 0⟩
def JMP_STATUS.DEGRADED : FieldSpec := ⟨2, 1, .rc, false, 0⟩
def JMP_STATUS.LATE_ACCEPT : FieldSpec := ⟨3, 1, .rc, false, 0⟩
def JMP_STATUS.WINDOW_REJECT : FieldSpec := ⟨4, 1, .rc, false, 0⟩
def JMP_STATUS.DROPPED : FieldSpec := ⟨5, 1, .rc, false, 0⟩
def JMP_STATUS.UNMATCHED : FieldSpec := ⟨6, 1, .rc, false, 0⟩
def JMP_STATUS.IGNORED : FieldSpec := ⟨7, 1, .rc, false, 0⟩
def JMP_STATUS.GROUP_MISS : FieldSpec := ⟨8, 1, .rc, false, 0⟩
def JMP_STATUS.GROUP_SPLIT : FieldSpec := ⟨9, 1, .rc, false, 0⟩
def JMP_STATUS.HEAD_LOST : FieldSpec := ⟨10, 1, .rc, false, 0⟩
def JMP_STATUS.EDGE_EARLY : FieldSpec := ⟨11, 1, .rc, false, 0⟩
def JMP_PEND.VALID : FieldSpec := ⟨0, 1, .ro, false, 0⟩
def JMP_PEND.SLOT : FieldSpec := ⟨1, 2, .ro, false, 0⟩
def JMP_PEND.MODE : FieldSpec := ⟨3, 2, .ro, false, 0⟩
def JMP_PEND.CARRIED : FieldSpec := ⟨5, 1, .ro, false, 0⟩
def JMP_PEND.GROUP : FieldSpec := ⟨6, 1, .ro, false, 0⟩
def JMP_PEND.LATE : FieldSpec := ⟨7, 1, .ro, false, 0⟩
def JMP_PEND.TARGET : FieldSpec := ⟨12, 14, .ro, false, 0⟩
def JMP_PEND.PHASE : FieldSpec := ⟨26, 5, .ro, false, 0⟩
def JMP_PEND.DEGRADED : FieldSpec := ⟨31, 1, .ro, false, 0⟩
def JMP_PEND_GC.GC : FieldSpec := ⟨0, 32, .ro, false, 0⟩
def JMP_LAST.VALID : FieldSpec := ⟨0, 1, .ro, false, 0⟩
def JMP_LAST.SLOT : FieldSpec := ⟨1, 2, .ro, false, 0⟩
def JMP_LAST.MODE : FieldSpec := ⟨3, 2, .ro, false, 0⟩
def JMP_LAST.CARRIED : FieldSpec := ⟨5, 1, .ro, false, 0⟩
def JMP_LAST.GROUP : FieldSpec := ⟨6, 1, .ro, false, 0⟩
def JMP_LAST.LATE : FieldSpec := ⟨7, 1, .ro, false, 0⟩
def JMP_LAST.TARGET : FieldSpec := ⟨12, 14, .ro, false, 0⟩
def JMP_LAST.PHASE : FieldSpec := ⟨26, 5, .ro, false, 0⟩
def JMP_LAST.DEGRADED : FieldSpec := ⟨31, 1, .ro, false, 0⟩
def JMP_LAST_SRC.SOURCE : FieldSpec := ⟨0, 14, .ro, false, 0⟩
def JMP_LAST_SRC.CHANNEL : FieldSpec := ⟨14, 8, .ro, false, 0⟩
def JMP_LAST_REG.GC : FieldSpec := ⟨0, 32, .ro, false, 0⟩
def JMP_LAST_GC.GC : FieldSpec := ⟨0, 32, .ro, false, 0⟩
def JMP_TAKEN.COUNT : FieldSpec := ⟨0, 32, .rc, false, 0⟩
def JMP_DROPPED.COUNT : FieldSpec := ⟨0, 32, .rc, false, 0⟩
def JMP_UNMATCHED.COUNT : FieldSpec := ⟨0, 32, .rc, false, 0⟩
def JMP_DEGRADED.COUNT : FieldSpec := ⟨0, 32, .rc, false, 0⟩
def JMP_LATE.COUNT : FieldSpec := ⟨0, 32, .rc, false, 0⟩
def JMP_IGNORED.COUNT : FieldSpec := ⟨0, 32, .rc, false, 0⟩
def JMP_READYk.ENTRY : FieldSpec := ⟨0, 14, .ro, false, 0⟩
def JMP_READYk.USED : FieldSpec := ⟨14, 1, .ro, false, 0⟩
def JMP_READYk.HELD : FieldSpec := ⟨15, 1, .ro, false, 0⟩
def WINk_OPEN.OPEN : FieldSpec := ⟨0, 32, .rw, false, 0⟩
def WINk_CLOSE.CLOSE : FieldSpec := ⟨0, 32, .rw, false, 0⟩
def WINk_DELAY.DELAY : FieldSpec := ⟨0, 32, .rw, false, 2048⟩
def LANT_CTRL.PAIR : FieldSpec := ⟨0, 1, .lk, true, 0⟩
def LANT_CTRL.MIX_REAL : FieldSpec := ⟨1, 1, .rw, false, 0⟩
def LANT_CTRL.ZERO_AT_START : FieldSpec := ⟨2, 1, .rw, false, 1⟩
def LANT_CTRL.MAX_INTERP : FieldSpec := ⟨3, 3, .lk, true, 4⟩
def LANT_CTRL.SAT_EV : FieldSpec := ⟨6, 1, .rw, false, 0⟩
def LANT_CTRL.EV_CH : FieldSpec := ⟨8, 8, .rw, false, 0⟩
def LANT_STATUS.SAT : FieldSpec := ⟨0, 1, .rc, false, 0⟩
def LANT_STATUS.COLLIDE : FieldSpec := ⟨1, 1, .rc, false, 0⟩
def LANT_STATUS.CUT : FieldSpec := ⟨2, 1, .rc, false, 0⟩
def LANT_SAT.COUNT : FieldSpec := ⟨0, 32, .rc, false, 0⟩
def LANT_TRIM.TRIM : FieldSpec := ⟨0, 18, .rw, false, 131072⟩
def LANT_POFF.POFF : FieldSpec := ⟨0, 16, .rw, false, 0⟩
def LANT_DDS_AMP.AMP : FieldSpec := ⟨0, 15, .rw, false, 32767⟩
def LANT_NCO.SECTOR : FieldSpec := ⟨0, 3, .ro, false, 0⟩
def LANT_NCO.CHIRP : FieldSpec := ⟨3, 1, .ro, false, 0⟩
def LANT_NCO.CHIRP_SECTOR : FieldSpec := ⟨4, 3, .ro, false, 0⟩
def LANT_NCO.CURVE : FieldSpec := ⟨7, 5, .ro, false, 0⟩
def LANT_LATENCY.LG : FieldSpec := ⟨0, 5, .ro, false, 23⟩
def LANT_RATE_LO.RATE_LO : FieldSpec := ⟨0, 32, .ro, false, 0⟩
def LANT_RATE_HI.RATE_HI : FieldSpec := ⟨0, 8, .ro, false, 0⟩
def LANT_SECk_FREQ_LO.FREQ_LO : FieldSpec := ⟨0, 32, .staged, false, 0⟩
def LANT_SECk_FREQ_HI.FREQ_HI : FieldSpec := ⟨0, 16, .staged, false, 0⟩
def LANT_SECk_PHASE.PHASE : FieldSpec := ⟨0, 32, .ro, false, 0⟩
def LANT_HBk.COEF : FieldSpec := ⟨0, 18, .ro, false, 0⟩
def LANT_CURVEj.CURVE : FieldSpec := ⟨0, 24, .rw, false, 0⟩
def TND_CTRL.ATTACH : FieldSpec := ⟨0, 1, .rw, true, 0⟩
def TND_CTRL.POLICY : FieldSpec := ⟨1, 1, .lk, true, 0⟩
def TND_CTRL.FILL_MODE : FieldSpec := ⟨2, 2, .rw, false, 0⟩
def TND_CTRL.FORMAT : FieldSpec := ⟨4, 6, .lk, false, 0⟩
def TND_CTRL.INTERP : FieldSpec := ⟨10, 3, .lk, false, 0⟩
def TND_CTRL.BLOCK_EV : FieldSpec := ⟨13, 1, .rw, false, 0⟩
def TND_CTRL.EV_CH : FieldSpec := ⟨16, 8, .rw, false, 0⟩
def TND_CTRL.CHANNEL : FieldSpec := ⟨24, 4, .lk, true, 0⟩
def TND_REGION.BASE : FieldSpec := ⟨0, 14, .lk, false, 0⟩
def TND_REGION.SIZE_LOG2 : FieldSpec := ⟨16, 5, .lk, false, 20⟩
def TND_RING_LO.RING_LOG2 : FieldSpec := ⟨0, 5, .lk, false, 2⟩
def TND_RING_LO.BASE_LO : FieldSpec := ⟨12, 20, .lk, false, 0⟩
def TND_RING_HI.BASE_HI : FieldSpec := ⟨0, 32, .lk, false, 0⟩
def TND_CONS_LO.ADDR_LO : FieldSpec := ⟨3, 29, .lk, false, 0⟩
def TND_CONS_HI.ADDR_HI : FieldSpec := ⟨0, 32, .lk, false, 0⟩
def TND_WM_A.FILL : FieldSpec := ⟨0, 16, .lk, false, 64⟩
def TND_WM_A.LOW : FieldSpec := ⟨16, 16, .rw, false, 32⟩
def TND_WM_B.RESUME : FieldSpec := ⟨0, 16, .rw, false, 48⟩
def TND_WM_B.HIGH : FieldSpec := ⟨16, 16, .rw, false, 240⟩
def TND_FALLBACK.ENTRY : FieldSpec := ⟨0, 14, .rw, false, 0⟩
def TND_LIMIT.BLOCKS : FieldSpec := ⟨0, 32, .rw, false, 0⟩
def TND_STATE.STATE : FieldSpec := ⟨0, 3, .ro, false, 0⟩
def TND_STATUS.UNDERRUN : FieldSpec := ⟨0, 1, .rc, false, 0⟩
def TND_STATUS.RESUMED : FieldSpec := ⟨1, 1, .rc, false, 0⟩
def TND_STATUS.LOW : FieldSpec := ⟨2, 1, .rc, false, 0⟩
def TND_STATUS.HIGH : FieldSpec := ⟨3, 1, .rc, false, 0⟩
def TND_STATUS.DRAINED : FieldSpec := ⟨4, 1, .rc, false, 0⟩
def TND_STATUS.LOST : FieldSpec := ⟨5, 1, .rc, false, 0⟩
def TND_STATUS.WM_REFUSED : FieldSpec := ⟨6, 1, .rc, false, 0⟩
def TND_STATUS.ATTACH_REFUSED : FieldSpec := ⟨7, 1, .rc, false, 0⟩
def TND_STATUS.LIMIT_REFUSED : FieldSpec := ⟨8, 1, .rc, false, 0⟩
def TND_STATUS.REASON : FieldSpec := ⟨16, 16, .rc, false, 0⟩
def TND_FILL.FILL : FieldSpec := ⟨0, 17, .ro, false, 0⟩
def TND_POS_LO.POS_LO : FieldSpec := ⟨0, 32, .ro, false, 0⟩
def TND_POS_HI.POS_HI : FieldSpec := ⟨0, 32, .ro, false, 0⟩
def TND_LANDED.BLOCKS : FieldSpec := ⟨0, 32, .ro, false, 0⟩
def TND_UNDERRUNS.COUNT : FieldSpec := ⟨0, 32, .rc, false, 0⟩
def TND_SKIPPED.GRANULES : FieldSpec := ⟨0, 32, .rc, false, 0⟩
def TND_GAP_LAST.SAMPLES : FieldSpec := ⟨0, 32, .ro, false, 0⟩
def TND_GAP_TOTAL.SAMPLES : FieldSpec := ⟨0, 32, .rc, false, 0⟩
def TND_DISCARDED.BLOCKS : FieldSpec := ⟨0, 32, .rc, false, 0⟩
def OUT_CTRL.SETTLE : FieldSpec := ⟨0, 14, .rw, false, 200⟩
def OUT_CTRL.START_RANGE : FieldSpec := ⟨14, 1, .lk, false, 0⟩
def OUT_CTRL.MKA_POL : FieldSpec := ⟨15, 1, .rw, false, 0⟩
def OUT_CTRL.MKB_POL : FieldSpec := ⟨16, 1, .rw, false, 0⟩
def OUT_CTRL.MKA_SRC : FieldSpec := ⟨17, 2, .rw, false, 0⟩
def OUT_CTRL.MKB_SRC : FieldSpec := ⟨19, 2, .rw, false, 0⟩
def OUT_CTRL.EV_CH : FieldSpec := ⟨21, 8, .rw, false, 0⟩
def OUT_STATE.RANGE : FieldSpec := ⟨0, 1, .ro, false, 0⟩
def OUT_STATE.RANGE_BUSY : FieldSpec := ⟨1, 1, .ro, false, 0⟩
def OUT_STATE.DARK_SRC : FieldSpec := ⟨2, 6, .ro, false, 1⟩
def OUT_STATE.SPARE_USED : FieldSpec := ⟨8, 1, .ro, true, 0⟩
def OUT_STATE.SYNC_DARK : FieldSpec := ⟨9, 1, .ro, false, 0⟩
def OUT_STATE.SWAPS : FieldSpec := ⟨16, 8, .ro, true, 0⟩
def OUT_STATUS.RANGE_DONE : FieldSpec := ⟨0, 1, .rc, false, 0⟩
def OUT_STATUS.DARK_N_SEEN : FieldSpec := ⟨1, 1, .rc, false, 0⟩
def OUT_STATUS.LOOK_FAIL : FieldSpec := ⟨2, 1, .rc, false, 0⟩
def OUT_STATUS.CELL_SWAPPED : FieldSpec := ⟨3, 1, .rc, false, 0⟩
def OUT_STATUS.CELL_EXHAUSTED : FieldSpec := ⟨4, 1, .rc, false, 0⟩
def OUT_DARK.CODE : FieldSpec := ⟨0, 16, .ro, false, 0⟩
def OUT_DARK.FUSED : FieldSpec := ⟨16, 1, .ro, false, 0⟩
def OUT_MK_DELAY.MKA : FieldSpec := ⟨0, 7, .rw, false, 0⟩
def OUT_MK_DELAY.MKB : FieldSpec := ⟨8, 7, .rw, false, 0⟩
def OUT_DISCARD.SAMPLES : FieldSpec := ⟨0, 32, .rc, false, 0⟩
def OUT_DARKN_GRAN.GRANULES : FieldSpec := ⟨0, 32, .rc, false, 0⟩
def OUT_CELL.CELL : FieldSpec := ⟨0, 6, .ro, true, 0⟩
def OUT_CELL.SWAP_NOW : FieldSpec := ⟨8, 1, .act, false, 0⟩
def BIAS_COMMON.TICK : FieldSpec := ⟨0, 16, .rw, false, 375⟩
def BIAS_COMMON.EV_CH : FieldSpec := ⟨16, 8, .rw, false, 0⟩
def BIAS_CTRL.CLASS : FieldSpec := ⟨0, 2, .rw, true, 0⟩
def BIAS_CTRL.PERIOD : FieldSpec := ⟨2, 12, .rw, false, 1⟩
def BIAS_CTRL.DEGLITCH : FieldSpec := ⟨14, 1, .rw, false, 1⟩
def BIAS_CTRL.EV_EN : FieldSpec := ⟨15, 1, .rw, false, 0⟩
def BIAS_CTRL.LEN : FieldSpec := ⟨16, 10, .rw, false, 0⟩
def BIAS_LEVEL.LEVEL : FieldSpec := ⟨0, 20, .rw, false, 0⟩
def BIAS_SLEW.SLEW : FieldSpec := ⟨0, 20, .rw, false, 1024⟩
def BIAS_CLAMP_LO.LO : FieldSpec := ⟨0, 20, .lk, true, 0⟩
def BIAS_CLAMP_HI.HI : FieldSpec := ⟨0, 20, .lk, true, 1048575⟩
def BIAS_NOW.CODE : FieldSpec := ⟨0, 20, .ro, false, 0⟩
def BIAS_PADDR.ADDR : FieldSpec := ⟨0, 10, .rw, false, 0⟩
def BIAS_PDATA.DATA : FieldSpec := ⟨0, 20, .act, false, 0⟩
def BIAS_QFILL.FILL : FieldSpec := ⟨0, 11, .ro, false, 0⟩
def BIAS_STATUS.CLAMPED : FieldSpec := ⟨0, 1, .rc, false, 0⟩
def BIAS_STATUS.SLEWING : FieldSpec := ⟨1, 1, .ro, false, 0⟩
def BIAS_STATUS.SLEW_LIMITED : FieldSpec := ⟨2, 1, .rc, false, 0⟩
def BIAS_STATUS.QUEUE_EMPTY : FieldSpec := ⟨3, 1, .rc, false, 0⟩
def BIAS_STATUS.QUEUE_FULL : FieldSpec := ⟨4, 1, .rc, false, 0⟩
def BIAS_CLAMPED.COUNT : FieldSpec := ⟨0, 32, .rc, false, 0⟩
def LOOK_CTRL.EN : FieldSpec := ⟨0, 1, .rw, true, 1⟩
def LOOK_CTRL.AUTO_SWAP : FieldSpec := ⟨1, 1, .rw, true, 1⟩
def LOOK_CTRL.BLOCK : FieldSpec := ⟨2, 6, .rw, false, 32⟩
def LOOK_CTRL.EV_CH : FieldSpec := ⟨8, 8, .rw, false, 0⟩
def LOOK_THR.MEAN : FieldSpec := ⟨0, 16, .rw, false, 64⟩
def LOOK_THR.RMS : FieldSpec := ⟨16, 16, .rw, false, 128⟩
def LOOK_THR_B.CELL : FieldSpec := ⟨0, 16, .rw, false, 24⟩
def LOOK_BIAS_THR.THR : FieldSpec := ⟨0, 20, .rw, false, 1024⟩
def LOOK_STATUS.FAIL : FieldSpec := ⟨0, 4, .rc, false, 0⟩
def LOOK_STATUS.BIAS_DEV : FieldSpec := ⟨4, 8, .rc, false, 0⟩
def LOOK_STATUS.SELF_FAIL : FieldSpec := ⟨12, 1, .rc, false, 0⟩
def LOOK_SKIPPED.COUNT : FieldSpec := ⟨0, 32, .rc, false, 0⟩
def LOOK_MEANc.MEAN : FieldSpec := ⟨0, 32, .ro, false, 0⟩
def LOOK_RMSc.RMS : FieldSpec := ⟨0, 32, .ro, false, 0⟩
def LOOK_CELLc.CELL : FieldSpec := ⟨0, 6, .ro, false, 0⟩
def LOOK_CELLc.ESTIMATE : FieldSpec := ⟨16, 16, .ro, false, 0⟩
def LOOK_BIASj.RESIDUAL : FieldSpec := ⟨0, 24, .ro, false, 0⟩
def MER_CTRL.XO_FREQ : FieldSpec := ⟨0, 1, .lk, true, 0⟩
def MER_CTRL.REF_FREQ : FieldSpec := ⟨1, 1, .lk, true, 0⟩
def MER_CTRL.RETURN_AT_SYNC : FieldSpec := ⟨2, 1, .rw, false, 0⟩
def MER_CTRL.EV_CH : FieldSpec := ⟨8, 8, .rw, false, 0⟩
def MER_STATE.FLOOP : FieldSpec := ⟨0, 3, .ro, false, 0⟩
def MER_STATE.SLOOP : FieldSpec := ⟨3, 3, .ro, false, 0⟩
def MER_STATE.DPLL : FieldSpec := ⟨6, 3, .ro, false, 0⟩
def MER_STATE.FBAND : FieldSpec := ⟨9, 6, .ro, false, 0⟩
def MER_STATE.SBAND : FieldSpec := ⟨15, 6, .ro, false, 0⟩
def MER_STATE.LEADER : FieldSpec := ⟨21, 1, .ro, true, 0⟩
def MER_STATE.SYNC_STALE : FieldSpec := ⟨22, 1, .ro, false, 1⟩
def MER_STATUS.LOCK_LOST : FieldSpec := ⟨0, 1, .rc, false, 0⟩
def MER_STATUS.REF_LOST : FieldSpec := ⟨1, 1, .rc, false, 0⟩
def MER_STATUS.PHASE_BEYOND : FieldSpec := ⟨2, 1, .rc, false, 0⟩
def MER_STATUS.STEPPED : FieldSpec := ⟨3, 1, .rc, false, 0⟩
def MER_STATUS.SYNC_REFUSED : FieldSpec := ⟨4, 1, .rc, false, 0⟩
def MER_STATUS.SYNC_LATE : FieldSpec := ⟨5, 1, .rc, false, 0⟩
def MER_STATUS.TWIN_RANGE : FieldSpec := ⟨6, 1, .rc, false, 0⟩
def MER_STATUS.SPARE_IN : FieldSpec := ⟨7, 1, .rc, false, 0⟩
def MER_STATUS.APPLY_REFUSED : FieldSpec := ⟨8, 1, .rc, false, 0⟩
def MER_DPLL.BW : FieldSpec := ⟨0, 4, .rw, true, 6⟩
def MER_DPLL.POLICY : FieldSpec := ⟨4, 2, .rw, true, 0⟩
def MER_DPLL.WINDOW : FieldSpec := ⟨8, 8, .rw, false, 10⟩
def MER_DPLL.LOCK_THR : FieldSpec := ⟨16, 8, .rw, false, 10⟩
def MER_DPLL.QUAL : FieldSpec := ⟨24, 4, .rw, false, 3⟩
def MER_SLEW.RATE : FieldSpec := ⟨0, 17, .rw, false, 10000⟩
def MER_REF_OFFSET.OFFSET : FieldSpec := ⟨0, 32, .ro, false, 0⟩
def MER_DPLL_CMD.SLEW : FieldSpec := ⟨0, 1, .act, false, 0⟩
def MER_DPLL_CMD.STEP_SYNC : FieldSpec := ⟨1, 1, .act, false, 0⟩
def MER_SFREQ.M : FieldSpec := ⟨0, 8, .lk, false, 120⟩
def MER_SFREQ.F : FieldSpec := ⟨8, 24, .lk, false, 0⟩
def MER_APPLY.NOW : FieldSpec := ⟨0, 1, .act, false, 0⟩
def MER_APPLY.AT_SYNC : FieldSpec := ⟨1, 1, .rw, false, 0⟩
def MER_APPLY.SFREQ_PENDING : FieldSpec := ⟨2, 1, .ro, false, 0⟩
def MER_OUTk.DIV : FieldSpec := ⟨0, 12, .lk, false, 0⟩
def MER_OUTk.EN : FieldSpec := ⟨12, 1, .rw, false, 0⟩
def MER_OUTk.DELAY : FieldSpec := ⟨16, 10, .rw, false, 0⟩
def MER_OUTk.PENDING : FieldSpec := ⟨31, 1, .ro, false, 0⟩
def MER_SYNC_CTRL.ROLE : FieldSpec := ⟨0, 2, .lk, true, 0⟩
def MER_SYNC_CTRL.ARM : FieldSpec := ⟨2, 1, .rw, false, 0⟩
def MER_SYNC_CTRL.FORCE : FieldSpec := ⟨3, 1, .rw, false, 0⟩
def MER_SYNC_CTRL.FIRE : FieldSpec := ⟨4, 1, .act, false, 0⟩
def MER_SYNC_CTRL.MEASURE_ECHO : FieldSpec := ⟨5, 1, .act, false, 0⟩
def MER_SYNC_LAT.L : FieldSpec := ⟨0, 15, .rw, false, 2000⟩
def MER_SYNC_COMP.COMP : FieldSpec := ⟨0, 32, .rw, false, 0⟩
def MER_ECHO_DLY.E : FieldSpec := ⟨0, 32, .ro, false, 0⟩
def MER_SYNC_DEV.DEV : FieldSpec := ⟨0, 32, .ro, false, 0⟩
def MER_SYNC_FINE.FINE : FieldSpec := ⟨0, 6, .ro, false, 0⟩
def MER_SYNC_STAMP_LO.T_LO : FieldSpec := ⟨0, 32, .ro, false, 0⟩
def MER_SYNC_STAMP_HI.T_HI : FieldSpec := ⟨0, 32, .ro, false, 0⟩
def MER_TWIN_CALn.RESIDUAL : FieldSpec := ⟨0, 8, .ro, false, 0⟩
def MER_TWIN_CALn.SAMPLE : FieldSpec := ⟨8, 5, .ro, false, 0⟩
def MER_TWIN_BAD.BAD : FieldSpec := ⟨0, 10, .ro, true, 0⟩
def MER_SEL.TWIN : FieldSpec := ⟨0, 10, .ro, false, 0⟩
def MER_FOV.LAST : FieldSpec := ⟨0, 10, .ro, false, 0⟩
def MER_FOV.COUNT : FieldSpec := ⟨16, 16, .ro, false, 0⟩
def MER_FOV_TIME_LO.T_LO : FieldSpec := ⟨0, 32, .ro, false, 0⟩
def MER_FOV_TIME_HI.T_HI : FieldSpec := ⟨0, 32, .ro, false, 0⟩
def MER_LIGHT.QUIET : FieldSpec := ⟨0, 1, .rw, false, 0⟩
def MER_LIGHT.DRIVING : FieldSpec := ⟨1, 1, .ro, false, 0⟩
def MER_BALLc.B : FieldSpec := ⟨0, 16, .ro, false, 0⟩
def TRN_CTRL.EV_CH : FieldSpec := ⟨0, 8, .rw, false, 0⟩
def TRN_CTRL.STUCK_EV : FieldSpec := ⟨8, 1, .rw, false, 1⟩
def TRN_CTRL.LOG_EV : FieldSpec := ⟨9, 1, .rw, false, 0⟩
def TRN_STATUS.STUCK : FieldSpec := ⟨0, 1, .rc, false, 0⟩
def TRN_STATUS.MISSED : FieldSpec := ⟨1, 1, .rc, false, 0⟩
def TRN_STATUS.LOG_DROP : FieldSpec := ⟨2, 1, .rc, false, 0⟩
def TRN_STATUS.UNCAL : FieldSpec := ⟨3, 1, .rc, false, 0⟩
def TRN_STATUS.FOV_MARK : FieldSpec := ⟨4, 1, .rc, false, 0⟩
def TRN_STATUS.PORT_MERGED : FieldSpec := ⟨5, 1, .rc, false, 0⟩
def TRN_STATUS.RELEASED : FieldSpec := ⟨6, 1, .rc, false, 0⟩
def TRN_CAL.ALL_CAL : FieldSpec := ⟨0, 1, .ro, false, 0⟩
def TRN_STUCK0.MAP : FieldSpec := ⟨0, 32, .ro, false, 0⟩
def TRN_STUCK1.MAP : FieldSpec := ⟨0, 32, .ro, false, 0⟩
def TRN_NOW_LO.C_LO : FieldSpec := ⟨0, 32, .ro, false, 0⟩
def TRN_NOW_HI.C_HI : FieldSpec := ⟨0, 32, .ro, false, 0⟩
def TRN_LOG_CTRL.EN : FieldSpec := ⟨0, 1, .rw, true, 0⟩
def TRN_LOG_CTRL.WRAP : FieldSpec := ⟨1, 1, .rw, false, 0⟩
def TRN_LOG_CTRL.HOME : FieldSpec := ⟨2, 1, .lk, false, 0⟩
def TRN_LOG_CTRL.SIZE_LOG2 : FieldSpec := ⟨3, 5, .lk, false, 16⟩
def TRN_LOG_CTRL.BASE : FieldSpec := ⟨16, 10, .lk, false, 0⟩
def TRN_LOG_WR.INDEX : FieldSpec := ⟨0, 17, .ro, false, 0⟩
def TRN_LOG_RD.INDEX : FieldSpec := ⟨0, 17, .rw, false, 0⟩
def TRN_LOG_DROP.COUNT : FieldSpec := ⟨0, 32, .rc, false, 0⟩
def TRN_PORTp.CH : FieldSpec := ⟨0, 8, .rw, true, 0⟩
def TRN_PORTp.EN : FieldSpec := ⟨8, 1, .rw, true, 0⟩
def TRN_INk_CTRL.EN : FieldSpec := ⟨0, 1, .rw, true, 0⟩
def TRN_INk_CTRL.EDGE : FieldSpec := ⟨1, 2, .rw, false, 0⟩
def TRN_INk_CTRL.POL : FieldSpec := ⟨3, 1, .rw, false, 0⟩
def TRN_INk_CTRL.PORT : FieldSpec := ⟨4, 4, .rw, true, 0⟩
def TRN_INk_CTRL.PUB : FieldSpec := ⟨8, 1, .rw, true, 0⟩
def TRN_INk_CTRL.LOG : FieldSpec := ⟨9, 1, .rw, false, 0⟩
def TRN_INk_CTRL.WAKE : FieldSpec := ⟨10, 1, .rw, false, 0⟩
def TRN_INk_CTRL.HOLDOFF : FieldSpec := ⟨12, 12, .rw, false, 0⟩
def TRN_INk_STUCK.TIME : FieldSpec := ⟨0, 20, .rw, false, 0⟩
def TRN_INk_STUCK.STUCK : FieldSpec := ⟨20, 1, .ro, false, 0⟩
def TRN_INk_OFF.OFF : FieldSpec := ⟨0, 32, .ro, false, 0⟩
def TRN_INk_MISSED.COUNT : FieldSpec := ⟨0, 32, .rc, false, 0⟩
def TRN_INk_LAST.RECORD : FieldSpec := ⟨0, 32, .ro, false, 0⟩
def TRN_TIj_LEVEL.THR : FieldSpec := ⟨0, 12, .rw, false, 0⟩
def TRN_TIj_LEVEL.HYST : FieldSpec := ⟨12, 7, .rw, false, 20⟩
def TRN_TIj_LEVEL.TERM : FieldSpec := ⟨19, 1, .rw, false, 0⟩
def ENG_CTRL.MODE : FieldSpec := ⟨0, 3, .lk, false, 0⟩
def ENG_CTRL.RUN : FieldSpec := ⟨3, 1, .staged, false, 0⟩
def ENG_CTRL.INC_UNRES : FieldSpec := ⟨4, 1, .lk, false, 0⟩
def ENG_CTRL.INC_ORDER : FieldSpec := ⟨5, 1, .lk, false, 0⟩
def ENG_CTRL.BALL_REF : FieldSpec := ⟨6, 1, .lk, false, 1⟩
def ENG_CTRL.DONE_EV : FieldSpec := ⟨7, 1, .lk, false, 0⟩
def ENG_CTRL.START : FieldSpec := ⟨8, 6, .lk, false, 0⟩
def ENG_CTRL.STOP : FieldSpec := ⟨14, 6, .lk, false, 0⟩
def ENG_CTRL.CONT : FieldSpec := ⟨20, 1, .lk, false, 0⟩
def ENG_N.N : FieldSpec := ⟨0, 32, .lk, false, 1024⟩
def ENG_TIMEOUT.TIMEOUT : FieldSpec := ⟨0, 20, .lk, false, 1000⟩
def ENG_STATUS.BUSY : FieldSpec := ⟨0, 1, .ro, false, 0⟩
def ENG_STATUS.DONE : FieldSpec := ⟨1, 1, .rc, false, 0⟩
def ENG_STATUS.OVERRANGE : FieldSpec := ⟨2, 1, .rc, false, 0⟩
def ENG_P_LO.P : FieldSpec := ⟨0, 32, .lk, false, 0⟩
def ENG_P_HI.P : FieldSpec := ⟨0, 32, .lk, false, 0⟩
def ENG_T0_LO.T0 : FieldSpec := ⟨0, 32, .lk, false, 0⟩
def ENG_T0_HI.T0 : FieldSpec := ⟨0, 32, .lk, false, 0⟩
def ENG_COUNT.COUNT : FieldSpec := ⟨0, 32, .ro, false, 0⟩
def ENG_UNRES.COUNT : FieldSpec := ⟨0, 32, .ro, false, 0⟩
def ENG_ORDER.COUNT : FieldSpec := ⟨0, 32, .ro, false, 0⟩
def ENG_OTHER.COUNT : FieldSpec := ⟨0, 32, .ro, false, 0⟩
def ENG_MEAN_LO.MEAN : FieldSpec := ⟨0, 32, .ro, false, 0⟩
def ENG_MEAN_HI.MEAN : FieldSpec := ⟨0, 32, .ro, false, 0⟩
def ENG_SD.SD : FieldSpec := ⟨0, 32, .ro, false, 0⟩
def ENG_MIN_LO.MIN : FieldSpec := ⟨0, 32, .ro, false, 0⟩
def ENG_MIN_HI.MIN : FieldSpec := ⟨0, 32, .ro, false, 0⟩
def ENG_MAX_LO.MAX : FieldSpec := ⟨0, 32, .ro, false, 0⟩
def ENG_MAX_HI.MAX : FieldSpec := ⟨0, 32, .ro, false, 0⟩
def BCN_STATUS.CH_MERGE : FieldSpec := ⟨0, 1, .rc, false, 0⟩
def BCN_STATUS.CONS_OVR : FieldSpec := ⟨1, 1, .rc, false, 0⟩
def BCN_STATUS.CONS_MERGED : FieldSpec := ⟨2, 1, .rc, false, 0⟩
def BCN_STATUS.LEG_TIMEOUT : FieldSpec := ⟨3, 1, .rc, false, 0⟩
def BCN_STATUS.DROP_OFF : FieldSpec := ⟨4, 1, .rc, false, 0⟩
def BCN_STATUS.LOOP_REJECT : FieldSpec := ⟨5, 1, .rc, false, 0⟩
def BCN_INJECT.CH : FieldSpec := ⟨0, 8, .rw, false, 0⟩
def BCN_INJECT.INFO : FieldSpec := ⟨8, 24, .rw, false, 0⟩
def BCN_DROP_OFF.COUNT : FieldSpec := ⟨0, 32, .rc, false, 0⟩
def BCN_LEG_TIMEOUT.COUNT : FieldSpec := ⟨0, 32, .rc, false, 0⟩
def BCN_LOOP.CH : FieldSpec := ⟨0, 8, .ro, false, 0⟩
def BCN_LOOP.VALID : FieldSpec := ⟨8, 1, .ro, false, 0⟩
def BCN_INFLIGHTk.MAP : FieldSpec := ⟨0, 32, .ro, false, 0⟩
def BCN_CHc_OVR.COUNT : FieldSpec := ⟨0, 32, .rc, false, 0⟩
def BCN_ENGc_MERGED.COUNT : FieldSpec := ⟨0, 32, .rc, false, 0⟩
def BCN_CONSi.CH : FieldSpec := ⟨0, 8, .rw, true, 0⟩
def BCN_CONSi.EN : FieldSpec := ⟨8, 1, .rw, true, 0⟩
def BCN_CONSi_STAT.BUSY : FieldSpec := ⟨0, 1, .ro, false, 0⟩
def BCN_CONSi_STAT.PENDING : FieldSpec := ⟨1, 1, .ro, false, 0⟩
def BCN_CONSi_STAT.OVERRUN : FieldSpec := ⟨2, 1, .rc, false, 0⟩
def BCN_CONSi_STAT.MERGED : FieldSpec := ⟨3, 1, .rc, false, 0⟩
def BCN_CONSi_OVR.COUNT : FieldSpec := ⟨0, 32, .rc, false, 0⟩
def BCN_CONSi_MERGED.COUNT : FieldSpec := ⟨0, 32, .rc, false, 0⟩
def BCN_TMRt_CTRL.CH : FieldSpec := ⟨0, 8, .rw, true, 0⟩
def BCN_TMRt_CTRL.MODE : FieldSpec := ⟨8, 1, .rw, false, 0⟩
def BCN_TMRt_CTRL.START : FieldSpec := ⟨9, 1, .act, false, 0⟩
def BCN_TMRt_CTRL.STOP : FieldSpec := ⟨10, 1, .act, false, 0⟩
def BCN_TMRt_CTRL.RUNNING : FieldSpec := ⟨11, 1, .ro, false, 0⟩
def BCN_TMRt_DELAY.DELAY : FieldSpec := ⟨0, 32, .rw, false, 100⟩
def BCN_TMRt_MINP.MINP : FieldSpec := ⟨0, 32, .rw, true, 100⟩
def BCN_EVOUTj.MODE : FieldSpec := ⟨0, 1, .rw, false, 0⟩
def BCN_EVOUTj.POL : FieldSpec := ⟨1, 1, .rw, false, 0⟩
def BCN_EVOUTj.WIDTH : FieldSpec := ⟨2, 10, .rw, false, 4⟩
def BCN_SRCs.CH : FieldSpec := ⟨0, 8, .rw, false, 0⟩
def BCN_SRCs.EN : FieldSpec := ⟨8, 1, .rw, true, 1⟩
def BCN_SRCs.CH_OWNED : FieldSpec := ⟨9, 1, .ro, false, 0⟩
def KPR_CTRL.RETRY : FieldSpec := ⟨0, 4, .rw, true, 3⟩
def KPR_CTRL.MAX_RUN : FieldSpec := ⟨4, 16, .rw, true, 1000⟩
def KPR_STATE.RUNNING : FieldSpec := ⟨0, 1, .ro, false, 0⟩
def KPR_STATE.INPUT : FieldSpec := ⟨1, 4, .ro, false, 0⟩
def KPR_STATE.ROUTINE : FieldSpec := ⟨5, 8, .ro, false, 0⟩
def KPR_STATE.COMMITTED : FieldSpec := ⟨13, 1, .ro, false, 0⟩
def KPR_STATE.WAITING : FieldSpec := ⟨14, 1, .ro, false, 0⟩
def KPR_STATE.RELEASING : FieldSpec := ⟨15, 1, .ro, false, 0⟩
def KPR_STATE.WORD : FieldSpec := ⟨16, 14, .ro, false, 0⟩
def KPR_STATUS.ABANDONED : FieldSpec := ⟨0, 1, .rc, false, 0⟩
def KPR_STATUS.FAILED : FieldSpec := ⟨1, 1, .rc, false, 0⟩
def KPR_STATUS.TIMEOUT : FieldSpec := ⟨2, 1, .rc, false, 0⟩
def KPR_STATUS.RELEASE_DROP : FieldSpec := ⟨3, 1, .rc, false, 0⟩
def KPR_STATUS.STORE_CORR : FieldSpec := ⟨4, 1, .rc, false, 0⟩
def KPR_STATUS.STORE_REPAIR : FieldSpec := ⟨5, 1, .rc, false, 0⟩
def KPR_STATUS.SPARES_OUT : FieldSpec := ⟨6, 1, .rc, false, 0⟩
def KPR_STATUS.LOAD_DONE : FieldSpec := ⟨7, 1, .rc, false, 0⟩
def KPR_STATUS.LOAD_FAIL : FieldSpec := ⟨8, 1, .rc, false, 0⟩
def KPR_FAULT.ROUTINE : FieldSpec := ⟨0, 8, .ro, false, 0⟩
def KPR_FAULT.INPUT : FieldSpec := ⟨8, 4, .ro, false, 0⟩
def KPR_FAULT.CODE : FieldSpec := ⟨12, 4, .ro, false, 0⟩
def KPR_FAULT.WORD : FieldSpec := ⟨16, 14, .ro, false, 0⟩
def KPR_ABANDONS.COUNT : FieldSpec := ⟨0, 32, .rc, false, 0⟩
def KPR_RESTARTS.COUNT : FieldSpec := ⟨0, 32, .rc, false, 0⟩
def KPR_CORR.COUNT : FieldSpec := ⟨0, 25, .rc, false, 0⟩
def KPR_CORR.SPARES : FieldSpec := ⟨25, 7, .ro, true, 0⟩
def KPR_IMAGE.VENDOR : FieldSpec := ⟨0, 16, .ro, false, 0⟩
def KPR_IMAGE.OWNER : FieldSpec := ⟨16, 16, .ro, false, 0⟩
def KPR_BINDi.ROUTINE : FieldSpec := ⟨0, 8, .lk, true, 0⟩
def KPR_BINDi.EN : FieldSpec := ⟨8, 1, .lk, true, 0⟩
def KPR_BINDi.LOCKED : FieldSpec := ⟨9, 1, .ro, false, 0⟩
def KPR_BINDi.FAILED : FieldSpec := ⟨10, 1, .ro, false, 0⟩
def KPR_BINDi.PROTECT : FieldSpec := ⟨11, 1, .ro, false, 0⟩
def KPR_PUBp.CH : FieldSpec := ⟨0, 8, .rw, true, 0⟩
def KPR_SHADOW.CHANNELS : FieldSpec := ⟨0, 16, .ro, false, 0⟩
def KPR_SHD_STATUS.CHANNEL : FieldSpec := ⟨0, 4, .rc, false, 0⟩
def KPR_SHD_STATUS.CAUSE : FieldSpec := ⟨4, 3, .rc, false, 0⟩
def KPR_SHD_STATUS.VALID : FieldSpec := ⟨7, 1, .rc, false, 0⟩
def KPR_SHD_COUNT.COUNT : FieldSpec := ⟨0, 32, .rc, false, 0⟩
def ORY_STATE.STORE : FieldSpec := ⟨0, 2, .ro, false, 0⟩
def ORY_STATE.SPARES : FieldSpec := ⟨2, 7, .ro, true, 0⟩
def ORY_STATE.VERSION : FieldSpec := ⟨16, 16, .ro, false, 0⟩
def ORY_STATUS.CORR : FieldSpec := ⟨0, 1, .rc, false, 0⟩
def ORY_STATUS.REPAIR : FieldSpec := ⟨1, 1, .rc, false, 0⟩
def ORY_STATUS.UNCORR : FieldSpec := ⟨2, 1, .rc, false, 0⟩
def ORY_STATUS.RECOVERED : FieldSpec := ⟨3, 1, .rc, false, 0⟩
def ORY_STATUS.GIVEN_UP : FieldSpec := ⟨4, 1, .rc, false, 0⟩
def ORY_STATUS.SPARES_OUT : FieldSpec := ⟨5, 1, .rc, false, 0⟩
def ORY_CORR.COUNT : FieldSpec := ⟨0, 32, .rc, false, 0⟩
def ORY_RECOVERIES.COUNT : FieldSpec := ⟨0, 32, .rc, false, 0⟩
def ORY_RECOV_GRAN.GRANULES : FieldSpec := ⟨0, 32, .rc, false, 0⟩
def ORY_FAULT.WORD : FieldSpec := ⟨0, 13, .ro, false, 0⟩
def ORY_FAULT.CAUSE : FieldSpec := ⟨16, 4, .ro, false, 0⟩
def ORY_FAULT.SHD_CAUSE : FieldSpec := ⟨20, 3, .ro, false, 0⟩
def MOOR_CFG.HALF : FieldSpec := ⟨0, 1, .ro, true, 0⟩
def MOOR_CFG.DIV : FieldSpec := ⟨1, 4, .ro, false, 0⟩
def MOOR_CFG.SET_STATE : FieldSpec := ⟨5, 3, .ro, true, 0⟩
def MOOR_CFG.TIMING_SET : FieldSpec := ⟨8, 1, .ro, false, 0⟩
def MOOR_CFG.TRAIN_MASK : FieldSpec := ⟨16, 6, .lk, false, 1⟩
def MOOR_MAP.L0 : FieldSpec := ⟨0, 3, .ro, true, 0⟩
def MOOR_MAP.L1 : FieldSpec := ⟨3, 3, .ro, true, 1⟩
def MOOR_MAP.L2 : FieldSpec := ⟨6, 3, .ro, true, 2⟩
def MOOR_MAP.L3 : FieldSpec := ⟨9, 3, .ro, true, 3⟩
def MOOR_MAP.SPARE_USED : FieldSpec := ⟨12, 1, .ro, true, 0⟩
def MOOR_STATUS.RETIRED : FieldSpec := ⟨0, 1, .rc, false, 0⟩
def MOOR_STATUS.MIG_DONE : FieldSpec := ⟨1, 1, .rc, false, 0⟩
def MOOR_STATUS.POISON : FieldSpec := ⟨2, 1, .rc, false, 0⟩
def MOOR_STATUS.URGENT : FieldSpec := ⟨3, 1, .rc, false, 0⟩
def MOOR_STATUS.SCRUB_MISMATCH : FieldSpec := ⟨4, 1, .rc, false, 0⟩
def MOOR_STATUS.LATE : FieldSpec := ⟨5, 1, .rc, false, 0⟩
def MOOR_STATUS.SR_ABORT : FieldSpec := ⟨6, 1, .rc, false, 0⟩
def MOOR_WQ.HIGH : FieldSpec := ⟨0, 7, .rw, false, 96⟩
def MOOR_WQ.LOW : FieldSpec := ⟨8, 7, .rw, false, 32⟩
def MOOR_WQ.FILL : FieldSpec := ⟨16, 8, .ro, false, 0⟩
def MOOR_REF.NBR_K : FieldSpec := ⟨0, 4, .rw, true, 9⟩
def MOOR_REF.NBR_EN : FieldSpec := ⟨4, 1, .rw, true, 1⟩
def MOOR_MIG.SHARE : FieldSpec := ⟨0, 6, .rw, false, 10⟩
def MOOR_MIG.AUTO : FieldSpec := ⟨6, 1, .rw, true, 1⟩
def MOOR_MIG.START : FieldSpec := ⟨7, 1, .act, false, 0⟩
def MOOR_MIG.BUSY : FieldSpec := ⟨8, 1, .ro, false, 0⟩
def MOOR_SCRUB.DUTY : FieldSpec := ⟨0, 4, .rw, true, 1⟩
def MOOR_SCRUB.PASSES : FieldSpec := ⟨16, 16, .ro, false, 0⟩
def MOOR_SR.EXIT : FieldSpec := ⟨0, 14, .rw, false, 2000⟩
def MOOR_SR.IDLE_EN : FieldSpec := ⟨14, 1, .rw, false, 0⟩
def MOOR_SR.IDLE_US : FieldSpec := ⟨16, 12, .rw, false, 100⟩
def MOOR_SR.STATE : FieldSpec := ⟨28, 3, .ro, false, 0⟩
def MOOR_FREQ.TARGET_DIV : FieldSpec := ⟨0, 4, .rw, false, 4⟩
def MOOR_FREQ.GO : FieldSpec := ⟨4, 1, .act, false, 0⟩
def MOOR_FREQ.BUSY : FieldSpec := ⟨5, 1, .ro, false, 0⟩
def MOOR_FREQ.RESULT : FieldSpec := ⟨6, 2, .ro, false, 0⟩
def MOOR_POISON.COUNT : FieldSpec := ⟨0, 32, .rc, false, 0⟩
def MOOR_LATE_GRAN.GRANULES : FieldSpec := ⟨0, 32, .rc, false, 0⟩
def MOOR_SCRUB_MISMATCH.COUNT : FieldSpec := ⟨0, 32, .rc, false, 0⟩
def MOOR_SR_ABORTS.COUNT : FieldSpec := ⟨0, 32, .rc, false, 0⟩
def MOOR_MIG_WM.W : FieldSpec := ⟨0, 25, .ro, false, 0⟩
def MOOR_QOSc.TARGET : FieldSpec := ⟨0, 20, .rw, false, 0⟩
def MP_STATE.ROLE : FieldSpec := ⟨0, 3, .ro, true, 0⟩
def MP_STATE.DOUBLE : FieldSpec := ⟨3, 1, .ro, false, 0⟩
def MP_STATE.IN_SR : FieldSpec := ⟨4, 1, .ro, false, 0⟩
def MP_STATE.TEMP : FieldSpec := ⟨8, 8, .ro, false, 0⟩
def MP_STATE.DENSITY : FieldSpec := ⟨16, 4, .ro, false, 0⟩
def MP_STATUS.CAPAR : FieldSpec := ⟨0, 1, .rc, false, 0⟩
def MP_STATUS.EDC : FieldSpec := ⟨1, 1, .rc, false, 0⟩
def MP_STATUS.UNCORR : FieldSpec := ⟨2, 1, .rc, false, 0⟩
def MP_STATUS.TRAIN_FAIL : FieldSpec := ⟨3, 1, .rc, false, 0⟩
def MP_STATUS.TEMP_HIGH : FieldSpec := ⟨4, 1, .rc, false, 0⟩
def MP_OWED.SC0 : FieldSpec := ⟨0, 4, .ro, false, 0⟩
def MP_OWED.SC1 : FieldSpec := ⟨4, 4, .ro, false, 0⟩
def MP_OWED.SC2 : FieldSpec := ⟨8, 4, .ro, false, 0⟩
def MP_OWED.SC3 : FieldSpec := ⟨12, 4, .ro, false, 0⟩
def MP_CAPAR.COUNT : FieldSpec := ⟨0, 32, .rc, false, 0⟩
def MP_EDC.COUNT : FieldSpec := ⟨0, 32, .rc, false, 0⟩
def MP_UNCORR.COUNT : FieldSpec := ⟨0, 32, .rc, false, 0⟩
def MP_URGENT.COUNT : FieldSpec := ⟨0, 32, .rc, false, 0⟩
def MP_NBR.COUNT : FieldSpec := ⟨0, 32, .rc, false, 0⟩
def MP_AGE.HOURS : FieldSpec := ⟨0, 32, .ro, true, 0⟩
def MP_TSx_0.CL : FieldSpec := ⟨0, 8, .lk, false, 0⟩
def MP_TSx_0.CWL : FieldSpec := ⟨8, 8, .lk, false, 0⟩
def MP_TSx_0.TRCD : FieldSpec := ⟨16, 8, .lk, false, 0⟩
def MP_TSx_0.TRP : FieldSpec := ⟨24, 8, .lk, false, 0⟩
def MP_TSx_1.TRRD : FieldSpec := ⟨0, 8, .lk, false, 0⟩
def MP_TSx_1.TCCD : FieldSpec := ⟨8, 8, .lk, false, 0⟩
def MP_TSx_1.TWTR : FieldSpec := ⟨16, 8, .lk, false, 0⟩
def MP_TSx_1.TRTP : FieldSpec := ⟨24, 8, .lk, false, 0⟩
def MP_TSx_2.TRAS : FieldSpec := ⟨0, 10, .lk, false, 0⟩
def MP_TSx_2.TRC : FieldSpec := ⟨10, 10, .lk, false, 0⟩
def MP_TSx_2.TWR : FieldSpec := ⟨20, 10, .lk, false, 0⟩
def MP_TSx_3.TFAW : FieldSpec := ⟨0, 10, .lk, false, 0⟩
def MP_TSx_4.TRFCAB : FieldSpec := ⟨0, 12, .lk, false, 0⟩
def MP_TSx_4.TRFCPB : FieldSpec := ⟨12, 12, .lk, false, 0⟩
def MP_TSx_5.TREFI : FieldSpec := ⟨0, 16, .lk, false, 0⟩
def MP_TSx_5.TXS : FieldSpec := ⟨16, 16, .lk, false, 0⟩
def PB_CTRL.TEST_EN : FieldSpec := ⟨0, 1, .rw, true, 1⟩
def PB_CTRL.CORR_EV : FieldSpec := ⟨1, 1, .rw, false, 0⟩
def PB_CTRL.AUTO_REPAIR : FieldSpec := ⟨2, 1, .rw, true, 1⟩
def PB_CTRL.INTERVAL : FieldSpec := ⟨16, 12, .rw, true, 100⟩
def PB_STATUS.COLLIDE : FieldSpec := ⟨0, 1, .rc, false, 0⟩
def PB_STATUS.CORR : FieldSpec := ⟨1, 1, .rc, false, 0⟩
def PB_STATUS.UNCORR : FieldSpec := ⟨2, 1, .rc, false, 0⟩
def PB_STATUS.REPAIR : FieldSpec := ⟨3, 1, .rc, false, 0⟩
def PB_STATUS.SPARES_OUT : FieldSpec := ⟨4, 1, .rc, false, 0⟩
def PB_STATUS.TEST_FAIL : FieldSpec := ⟨5, 1, .rc, false, 0⟩
def PB_STATUS.RESTORE : FieldSpec := ⟨6, 1, .rc, false, 0⟩
def PBb_STATE.SPARES_USED : FieldSpec := ⟨0, 8, .ro, true, 0⟩
def PBb_STATE.SPARES_TOTAL : FieldSpec := ⟨8, 8, .ro, false, 0⟩
def PBb_STATE.REGION : FieldSpec := ⟨16, 12, .ro, false, 0⟩
def PBb_STATE.TESTING : FieldSpec := ⟨28, 1, .ro, false, 0⟩
def PBb_CORR.COUNT : FieldSpec := ⟨0, 32, .rc, false, 0⟩
def PBb_UNCORR.COUNT : FieldSpec := ⟨0, 32, .rc, false, 0⟩
def PBb_COLLIDE.COUNT : FieldSpec := ⟨0, 32, .rc, false, 0⟩
def PBb_RESTORES.COUNT : FieldSpec := ⟨0, 32, .rc, false, 0⟩
def PBb_SKIPPED.COUNT : FieldSpec := ⟨0, 32, .rc, false, 0⟩
def PBb_PASSES.COUNT : FieldSpec := ⟨0, 32, .ro, false, 0⟩
def PBb_LAST.ROW : FieldSpec := ⟨0, 13, .ro, false, 0⟩
def PBb_LAST.KIND : FieldSpec := ⟨13, 2, .ro, false, 0⟩
def PBb_LAST.VALID : FieldSpec := ⟨15, 1, .ro, false, 0⟩
def HST_CTRL.POLL : FieldSpec := ⟨0, 14, .rw, false, 25⟩
def HST_LINK.GEN : FieldSpec := ⟨0, 3, .ro, false, 0⟩
def HST_LINK.WIDTH : FieldSpec := ⟨3, 5, .ro, false, 0⟩
def HST_LINK.FLIT : FieldSpec := ⟨8, 1, .ro, false, 0⟩
def HST_LINK.D3 : FieldSpec := ⟨9, 1, .ro, false, 0⟩
def HST_STATUS.LINK_DOWN : FieldSpec := ⟨0, 1, .rc, false, 0⟩
def HST_STATUS.DMA_FAULT : FieldSpec := ⟨1, 1, .rc, false, 0⟩
def HST_STATUS.ASYNC_DROP : FieldSpec := ⟨2, 1, .rc, false, 0⟩
def HST_STATUS.ABORT : FieldSpec := ⟨3, 1, .rc, false, 0⟩
def HST_STATUS.HOST_LOST : FieldSpec := ⟨4, 1, .rc, false, 0⟩
def HST_ASYNC_DROP.COUNT : FieldSpec := ⟨0, 32, .rc, false, 0⟩
def HST_VROUTEq.ROUTE : FieldSpec := ⟨0, 32, .rw, true, 0⟩
def HST_TXN.OPEN : FieldSpec := ⟨0, 4, .ro, false, 0⟩
def HST_TXN.ARMED : FieldSpec := ⟨4, 4, .ro, false, 0⟩
def HST_TXN.FUNC : FieldSpec := ⟨8, 4, .ro, false, 0⟩
def HST_DRINGr.STATE : FieldSpec := ⟨0, 2, .ro, false, 0⟩
def HST_DRINGr.CONS : FieldSpec := ⟨16, 16, .ro, false, 0⟩
def HST_RRINGr.STATE : FieldSpec := ⟨0, 2, .ro, false, 0⟩
def HST_RRINGr.FULL : FieldSpec := ⟨2, 1, .ro, false, 0⟩
def HST_RRINGr.PROD : FieldSpec := ⟨16, 16, .ro, false, 0⟩
def ID.PART : FieldSpec := ⟨0, 16, .ro, false, 34838⟩
def ID.FAMILY : FieldSpec := ⟨16, 8, .ro, false, 1⟩
def REV.MINOR : FieldSpec := ⟨0, 4, .ro, false, 0⟩
def REV.MAJOR : FieldSpec := ⟨4, 4, .ro, false, 0⟩
def REV.BOOT : FieldSpec := ⟨8, 24, .ro, false, 0⟩
def SERIAL_LO.SN_LO : FieldSpec := ⟨0, 32, .ro, false, 0⟩
def SERIAL_HI.SN_HI : FieldSpec := ⟨0, 32, .ro, false, 0⟩
def FUNC.DOME : FieldSpec := ⟨0, 1, .ro, false, 0⟩
def FUNC.PEER_UP : FieldSpec := ⟨1, 1, .ro, false, 0⟩
def START.STEP : FieldSpec := ⟨0, 5, .ro, false, 0⟩
def START.HALTED : FieldSpec := ⟨5, 1, .ro, false, 0⟩
def START.DEGRADED : FieldSpec := ⟨6, 1, .ro, false, 0⟩
def START.LIT : FieldSpec := ⟨7, 1, .ro, false, 0⟩
def START.REASON : FieldSpec := ⟨16, 16, .ro, false, 0⟩
def EPOCH.EPOCH : FieldSpec := ⟨0, 32, .ro, true, 0⟩
def SNAP_MAX.COUNT : FieldSpec := ⟨0, 32, .ro, false, 0⟩
def DB_LO.ADDR_LO : FieldSpec := ⟨12, 20, .lk, false, 0⟩
def DB_HI.ADDR_HI : FieldSpec := ⟨0, 32, .lk, false, 0⟩
def DRING0_LO.BASE_LO : FieldSpec := ⟨0, 32, .lk, false, 0⟩
def DRING0_HI.BASE_HI : FieldSpec := ⟨0, 32, .lk, false, 0⟩
def DRING0_CFG.SIZE_LOG2 : FieldSpec := ⟨0, 5, .lk, false, 4⟩
def DRING0_CFG.FUNC : FieldSpec := ⟨5, 1, .lk, true, 0⟩
def DRING0_CFG.DEF_RRING : FieldSpec := ⟨8, 6, .lk, false, 0⟩
def DRING0_CFG.EN : FieldSpec := ⟨31, 1, .rw, true, 0⟩
def RRING0_LO.BASE_LO : FieldSpec := ⟨0, 32, .lk, false, 0⟩
def RRING0_HI.BASE_HI : FieldSpec := ⟨0, 32, .lk, false, 0⟩
def RRING0_CFG.SIZE_LOG2 : FieldSpec := ⟨0, 5, .lk, false, 4⟩
def RRING0_CFG.FUNC : FieldSpec := ⟨5, 1, .lk, true, 0⟩
def RRING0_CFG.VECTOR : FieldSpec := ⟨6, 7, .lk, false, 0⟩
def RRING0_CFG.COAL_COUNT : FieldSpec := ⟨16, 8, .rw, false, 0⟩
def RRING0_CFG.EN : FieldSpec := ⟨31, 1, .rw, true, 0⟩
def RRING0_COAL.TIME : FieldSpec := ⟨0, 16, .rw, false, 0⟩
def REG_STATUS.LOCK_VIOL : FieldSpec := ⟨0, 1, .rc, false, 0⟩
def REG_STATUS.VOTE_CORR : FieldSpec := ⟨1, 1, .rc, false, 0⟩
def REG_STATUS.VOTE_FAIL : FieldSpec := ⟨2, 1, .rc, false, 0⟩
def REG_STATUS.PARITY : FieldSpec := ⟨3, 1, .rc, false, 0⟩
def REG_STATUS.BAD_ACCESS : FieldSpec := ⟨4, 1, .rc, false, 0⟩
def REG_STATUS.RING_CFG : FieldSpec := ⟨5, 1, .rc, false, 0⟩
def REG_STATUS.TEST_ACTIVE : FieldSpec := ⟨6, 1, .ro, false, 0⟩
def VIOL_ADDR.OFFSET : FieldSpec := ⟨0, 25, .ro, false, 0⟩
def PARITY_ADDR.OFFSET : FieldSpec := ⟨0, 25, .ro, false, 0⟩
def LOCKED_WR.COUNT : FieldSpec := ⟨0, 32, .rc, false, 0⟩
def FEAT_OFFERk.OFFER : FieldSpec := ⟨0, 32, .ro, false, 0⟩
def FEAT_ACCEPTk.ACCEPT : FieldSpec := ⟨0, 32, .w1, false, 0⟩
def VOTE_CORRd.COUNT : FieldSpec := ⟨0, 32, .rc, false, 0⟩
def PARITY_ERRd.COUNT : FieldSpec := ⟨0, 32, .rc, false, 0⟩
def PWR_CTRL.REQ : FieldSpec := ⟨0, 2, .act, false, 0⟩
def PWR_CTRL.READMIT : FieldSpec := ⟨2, 1, .rw, true, 0⟩
def PWR_CTRL.RESET : FieldSpec := ⟨3, 1, .act, false, 0⟩
def PWR_STATE.STATE : FieldSpec := ⟨0, 2, .ro, true, 0⟩
def PWR_STATE.LIT_READY : FieldSpec := ⟨2, 1, .ro, false, 0⟩
def PWR_STATE.HALTED : FieldSpec := ⟨3, 1, .ro, false, 0⟩
def PWR_STATE.EXITING : FieldSpec := ⟨4, 1, .ro, false, 0⟩
def PWR_STATE.WAKE_SRC : FieldSpec := ⟨16, 10, .ro, false, 0⟩
def PWR_STATE.WAKE_VALID : FieldSpec := ⟨26, 1, .ro, false, 0⟩
def PWR_STATUS.REFUSED : FieldSpec := ⟨0, 1, .rc, false, 0⟩
def PWR_STATUS.CAUSE : FieldSpec := ⟨1, 3, .rc, false, 0⟩
def PWR_STATUS.STALE : FieldSpec := ⟨4, 1, .rc, false, 0⟩
def PWR_STATUS.READMITTED : FieldSpec := ⟨5, 1, .rc, false, 0⟩
def PWR_STATUS.EXIT_FAIL : FieldSpec := ⟨6, 1, .rc, false, 0⟩
def PWR_SAVE_A.BASE : FieldSpec := ⟨0, 14, .rw, false, 0⟩
def PWR_SAVE_A.EN : FieldSpec := ⟨14, 1, .rw, false, 0⟩
def PWR_SAVE_B.BASE : FieldSpec := ⟨0, 14, .rw, false, 0⟩
def PWR_SAVE_B.EN : FieldSpec := ⟨14, 1, .rw, false, 0⟩
def PWR_EXCL.DIES : FieldSpec := ⟨0, 8, .ro, true, 0⟩
def PWR_EXCL.CHANNELS : FieldSpec := ⟨8, 16, .ro, true, 0⟩
def LEDG_CTRL.CLEAR_ALT : FieldSpec := ⟨0, 15, .act, false, 0⟩
def LEDG_CTRL.COMPACT : FieldSpec := ⟨15, 1, .act, false, 0⟩
def LEDG_STATUS.FLASH0_BAD : FieldSpec := ⟨0, 1, .ro, false, 0⟩
def LEDG_STATUS.FLASH1_BAD : FieldSpec := ⟨1, 1, .ro, false, 0⟩
def LEDG_STATUS.WRITE_FAIL : FieldSpec := ⟨2, 1, .rc, false, 0⟩
def LEDG_STATUS.COMPACTED : FieldSpec := ⟨3, 1, .rc, false, 0⟩
def LEDG_STATUS.LOG_FREE : FieldSpec := ⟨16, 13, .ro, false, 0⟩
def LEDG_START.START_NO : FieldSpec := ⟨0, 32, .ro, false, 0⟩
def LEDG_STEPS_LO.STEPS_LO : FieldSpec := ⟨0, 32, .ro, false, 4294967295⟩
def LEDG_STEPS_HI.STEPS_HI : FieldSpec := ⟨0, 32, .ro, false, 4294967295⟩
def LEDG_ALT.THIS : FieldSpec := ⟨0, 15, .ro, false, 0⟩
def LEDG_ALT.STICKY : FieldSpec := ⟨16, 15, .ro, true, 0⟩
def AVAIL_COND.LOOKOUT : FieldSpec := ⟨0, 1, .ro, false, 0⟩
def AVAIL_COND.PLATE_TEST : FieldSpec := ⟨1, 1, .ro, false, 0⟩
def AVAIL_COND.SCRUB : FieldSpec := ⟨2, 1, .ro, false, 0⟩
def AVAIL_COND.SPARE_PORT : FieldSpec := ⟨3, 1, .ro, false, 0⟩
def AVAIL_COND.SPARE_LANE : FieldSpec := ⟨4, 1, .ro, false, 0⟩
def AVAIL_COND.SPARE_CELL : FieldSpec := ⟨5, 1, .ro, false, 0⟩
def AVAIL_COND.SPARE_ROW : FieldSpec := ⟨6, 1, .ro, false, 0⟩
def AVAIL_COND.SPARE_WORD : FieldSpec := ⟨7, 1, .ro, false, 0⟩
def AVAIL_COND.SPARE_CLOCK : FieldSpec := ⟨8, 1, .ro, false, 0⟩
def AVAIL_COND.TEMP : FieldSpec := ⟨9, 1, .ro, false, 0⟩
def AVAIL_COND.MIRROR : FieldSpec := ⟨10, 1, .ro, false, 0⟩
def AVAIL_COND.ALL : FieldSpec := ⟨31, 1, .ro, false, 0⟩
def AVAIL_LAPSES.COUNT : FieldSpec := ⟨0, 32, .rc, false, 0⟩
def SEC_STATUS.ROOT_ALT : FieldSpec := ⟨0, 1, .ro, false, 0⟩
def SEC_STATUS.OWNER_ENROLLED : FieldSpec := ⟨1, 1, .ro, false, 0⟩
def SEC_STATUS.OWNER_FUSED : FieldSpec := ⟨2, 1, .ro, false, 0⟩
def SEC_STATUS.ERASED : FieldSpec := ⟨3, 1, .ro, false, 0⟩
def SEC_STATUS.ATT_READY : FieldSpec := ⟨4, 1, .ro, false, 0⟩
def SEC_STATUS.ATT_GEN : FieldSpec := ⟨5, 1, .ro, false, 0⟩
def SEC_STATUS.STORE_BAD : FieldSpec := ⟨6, 1, .ro, false, 0⟩
def SEC_STATUS.HATCH_OPEN : FieldSpec := ⟨7, 1, .ro, false, 0⟩
def SEC_STATUS.ERASE_PENDING : FieldSpec := ⟨8, 1, .ro, false, 0⟩
def SEC_FLOORS.VENDOR : FieldSpec := ⟨0, 7, .ro, false, 0⟩
def SEC_OWNER_FLOOR.OWNER : FieldSpec := ⟨0, 32, .ro, false, 0⟩
def SEC_HATCH.STATE : FieldSpec := ⟨0, 2, .ro, false, 0⟩
def SEC_HATCH.REFUSALS : FieldSpec := ⟨2, 3, .ro, false, 0⟩
def SEC_HATCH.LOCKOUT : FieldSpec := ⟨5, 1, .ro, false, 0⟩
def SEC_HATCH.OPENINGS : FieldSpec := ⟨16, 16, .ro, false, 0⟩
def TEL_CASE.CASE : FieldSpec := ⟨0, 12, .ro, false, 2048⟩
def TEL_CASE.WARN : FieldSpec := ⟨12, 1, .ro, false, 0⟩
def TEL_CASE.HOT : FieldSpec := ⟨13, 1, .ro, false, 0⟩
def PWR_DOMj.DOM : FieldSpec := ⟨0, 32, .ro, false, 0⟩
def SEC_OWNER_HASHk.HASH : FieldSpec := ⟨0, 32, .ro, false, 0⟩
def SEC_ATT_HASHk.HASH : FieldSpec := ⟨0, 32, .ro, false, 0⟩
def SEC_ATT_KEYk.MODULUS : FieldSpec := ⟨0, 32, .ro, false, 0⟩
def TEL_DIEd.TEMP : FieldSpec := ⟨0, 12, .ro, false, 2048⟩
def TEL_DIEd.POWER : FieldSpec := ⟨16, 12, .ro, false, 0⟩
def TEL_RAILj.MV : FieldSpec := ⟨0, 16, .ro, false, 0⟩
def TEL_RAILj.OUT : FieldSpec := ⟨16, 1, .ro, false, 0⟩
def SNAP_STATUS.VALID : FieldSpec := ⟨0, 1, .ro, false, 0⟩
def SNAP_STATUS.BUSY : FieldSpec := ⟨1, 1, .ro, false, 0⟩
def SNAP_STATUS.LATE : FieldSpec := ⟨2, 1, .rc, false, 0⟩
def SNAP_STATUS.SCOPE : FieldSpec := ⟨8, 8, .ro, false, 0⟩
def SNAP_STATUS.SEQ : FieldSpec := ⟨16, 16, .ro, false, 0⟩
def SNAP_T_LO.T_LO : FieldSpec := ⟨0, 32, .ro, false, 0⟩
def SNAP_T_HI.T_HI : FieldSpec := ⟨0, 32, .ro, false, 0⟩

/-- The registers of the always-on block, which answers in the MERID windows from 0x800: power, ledger, availability, security, telemetry. -/
inductive ExtReg where
  | pwrCtrl 
  | pwrState 
  | pwrStatus 
  | pwrSaveA 
  | pwrSaveB 
  | pwrExcl 
  | ledgCtrl 
  | ledgStatus 
  | ledgStart 
  | ledgStepsLo 
  | ledgStepsHi 
  | ledgAlt 
  | availCond 
  | availLapses 
  | secStatus 
  | secFloors 
  | secOwnerFloor 
  | secHatch 
  | telCase 
  | pwrDom (j : Fin 5)
  | secOwnerHash (k : Fin 16)
  | secAttHash (k : Fin 16)
  | secAttKey (k : Fin 128)
  | telDie (die : Die)
  | telRail (j : Fin 12)
deriving DecidableEq, Repr

/-- The registers of the GLOBAL block (R388). -/
inductive GlobReg where
  | gId 
  | gRev 
  | serialLo 
  | serialHi 
  | gFunc 
  | gStart 
  | gEpoch 
  | snapMax 
  | dbLo 
  | dbHi 
  | dring0Lo 
  | dring0Hi 
  | dring0Cfg 
  | rring0Lo 
  | rring0Hi 
  | rring0Cfg 
  | rring0Coal 
  | regStatus 
  | violAddr 
  | parityAddr 
  | lockedWr 
  | featOffer (k : Fin 8)
  | featAccept (k : Fin 8)
  | voteCorr (die : Die)
  | parityErr (die : Die)
deriving DecidableEq, Repr

/-- The registers of one statistics engine (R237). -/
inductive EngReg where
  | ctrl 
  | n 
  | timeout 
  | status 
  | pLo 
  | pHi 
  | t0Lo 
  | t0Hi 
  | count 
  | unres 
  | order 
  | other 
  | meanLo 
  | meanHi 
  | sd 
  | minLo 
  | minHi 
  | maxLo 
  | maxHi 
deriving DecidableEq, Repr

/-- The registers of the set-up map: one constructor for each register of the tables, repeated ones with the index that tells them apart. -/
inductive Reg where
  | charCtrl (c : ChanId)
  | charTable (c : ChanId)
  | charSwap (c : ChanId)
  | charPos (c : ChanId)
  | charIter (c : ChanId)
  | charGoff (c : ChanId)
  | charPlayedLo (c : ChanId)
  | charPlayedHi (c : ChanId)
  | charLead (c : ChanId)
  | charStatus (c : ChanId)
  | charFault (c : ChanId)
  | charPrimeGap (c : ChanId)
  | charSegLost (c : ChanId)
  | charForever (c : ChanId)
  | charFrame (c : ChanId) (k : Fin 8)
  | jmpCtrl (c : ChanId)
  | jmpGroup (c : ChanId)
  | jmpStatus (c : ChanId)
  | jmpPend (c : ChanId)
  | jmpPendGc (c : ChanId)
  | jmpLast (c : ChanId)
  | jmpLastSrc (c : ChanId)
  | jmpLastReg (c : ChanId)
  | jmpLastGc (c : ChanId)
  | jmpTaken (c : ChanId)
  | jmpDropped (c : ChanId)
  | jmpUnmatched (c : ChanId)
  | jmpDegraded (c : ChanId)
  | jmpLate (c : ChanId)
  | jmpIgnored (c : ChanId)
  | jmpReady (c : ChanId) (k : Fin 8)
  | winOpen (c : ChanId) (k : Fin 32)
  | winClose (c : ChanId) (k : Fin 32)
  | winDelay (c : ChanId) (k : Fin 32)
  | lantCtrl (c : ChanId)
  | lantStatus (c : ChanId)
  | lantSat (c : ChanId)
  | lantTrim (c : ChanId)
  | lantPoff (c : ChanId)
  | lantDdsAmp (c : ChanId)
  | lantNco (c : ChanId)
  | lantLatency (c : ChanId)
  | lantRateLo (c : ChanId)
  | lantRateHi (c : ChanId)
  | lantSecFreqLo (c : ChanId) (k : Fin 8)
  | lantSecFreqHi (c : ChanId) (k : Fin 8)
  | lantSecPhase (c : ChanId) (k : Fin 8)
  | lantHb (c : ChanId) (k : Fin 11)
  | lantCurve (c : ChanId) (j : Fin 32)
  | tndCtrl (st : StreamId)
  | tndRegion (st : StreamId)
  | tndRingLo (st : StreamId)
  | tndRingHi (st : StreamId)
  | tndConsLo (st : StreamId)
  | tndConsHi (st : StreamId)
  | tndWmA (st : StreamId)
  | tndWmB (st : StreamId)
  | tndFallback (st : StreamId)
  | tndLimit (st : StreamId)
  | tndState (st : StreamId)
  | tndStatus (st : StreamId)
  | tndFill (st : StreamId)
  | tndPosLo (st : StreamId)
  | tndPosHi (st : StreamId)
  | tndLanded (st : StreamId)
  | tndUnderruns (st : StreamId)
  | tndSkipped (st : StreamId)
  | tndGapLast (st : StreamId)
  | tndGapTotal (st : StreamId)
  | tndDiscarded (st : StreamId)
  | outCtrl (c : ChanId)
  | outState (c : ChanId)
  | outStatus (c : ChanId)
  | outDark (c : ChanId)
  | outMkDelay (c : ChanId)
  | outDiscard (c : ChanId)
  | outDarknGran (c : ChanId)
  | outCell (c : ChanId)
  | biasCommon (n : LampId)
  | biasCtrl (b : BiasId)
  | biasLevel (b : BiasId)
  | biasSlew (b : BiasId)
  | biasClampLo (b : BiasId)
  | biasClampHi (b : BiasId)
  | biasNow (b : BiasId)
  | biasPaddr (b : BiasId)
  | biasPdata (b : BiasId)
  | biasQfill (b : BiasId)
  | biasStatus (b : BiasId)
  | biasClamped (b : BiasId)
  | lookCtrl (n : LampId)
  | lookThr (n : LampId)
  | lookThrB (n : LampId)
  | lookBiasThr (n : LampId)
  | lookStatus (n : LampId)
  | lookSkipped (n : LampId)
  | lookMean (c : ChanId)
  | lookRms (c : ChanId)
  | lookCell (c : ChanId)
  | lookBias (b : BiasId)
  | merCtrl (m : MerId)
  | merState (m : MerId)
  | merStatus (m : MerId)
  | merDpll (m : MerId)
  | merSlew (m : MerId)
  | merRefOffset (m : MerId)
  | merDpllCmd (m : MerId)
  | merSfreq (m : MerId)
  | merApply (m : MerId)
  | merOut (m : MerId) (k : Fin 12)
  | merSyncCtrl (m : MerId)
  | merSyncLat (m : MerId)
  | merSyncComp (m : MerId)
  | merEchoDly (m : MerId)
  | merSyncDev (m : MerId)
  | merSyncFine (m : MerId)
  | merSyncStampLo (m : MerId)
  | merSyncStampHi (m : MerId)
  | merTwinCal (m : MerId) (n : LampId)
  | merTwinBad (m : MerId)
  | merSel (m : MerId)
  | merFov (m : MerId)
  | merFovTimeLo (m : MerId)
  | merFovTimeHi (m : MerId)
  | merLight (m : MerId)
  | merBall (m : MerId) (c : ChanId)
  | trnCtrl 
  | trnStatus (m : MerId)
  | trnCal (m : MerId)
  | trnStuck0 (m : MerId)
  | trnStuck1 (m : MerId)
  | trnNowLo (m : MerId)
  | trnNowHi (m : MerId)
  | trnLogCtrl 
  | trnLogWr 
  | trnLogRd 
  | trnLogDrop 
  | trnPort (p : Fin 16)
  | trnInCtrl (k : TrnIn)
  | trnInStuck (k : TrnIn)
  | trnInOff (m : MerId) (k : TrnIn)
  | trnInMissed (m : MerId) (k : TrnIn)
  | trnInLast (m : MerId) (k : TrnIn) (w : Fin 4)
  | trnTiLevel (j : Fin 8)
  | eng (m : MerId) (e : EngId) (r : EngReg)
  | bcnStatus 
  | bcnInject 
  | bcnDropOff 
  | bcnLegTimeout 
  | bcnLoop 
  | bcnInflight (k : Fin 8)
  | bcnChOvr (ch : BeaconCh)
  | bcnEngMerged (c : ChanId)
  | bcnCons (i : ConsId)
  | bcnConsStat (i : ConsId)
  | bcnConsOvr (i : ConsId)
  | bcnConsMerged (i : ConsId)
  | bcnTmrCtrl (t : TimerId)
  | bcnTmrDelay (t : TimerId)
  | bcnTmrMinp (t : TimerId)
  | bcnEvout (j : EvOutId)
  | bcnSrc (sr : SrcId)
  | kprCtrl (k : KeeperId)
  | kprState (k : KeeperId)
  | kprStatus (k : KeeperId)
  | kprFault (k : KeeperId)
  | kprAbandons (k : KeeperId)
  | kprRestarts (k : KeeperId)
  | kprCorr (k : KeeperId)
  | kprImage (k : KeeperId)
  | kprBind (k : KeeperId) (i : Fin 16)
  | kprPub (k : KeeperId) (p : Fin 16)
  | kprShadow (k : KeeperId)
  | kprShdStatus (k : KeeperId)
  | kprShdCount (k : KeeperId)
  | oryState (c : ChanId)
  | oryStatus (c : ChanId)
  | oryCorr (c : ChanId)
  | oryRecoveries (c : ChanId)
  | oryRecovGran (c : ChanId)
  | oryFault (c : ChanId)
  | moorCfg (d : DomeId)
  | moorMap (d : DomeId)
  | moorStatus (d : DomeId)
  | moorWq (d : DomeId)
  | moorRef (d : DomeId)
  | moorMig (d : DomeId)
  | moorScrub (d : DomeId)
  | moorSr (d : DomeId)
  | moorFreq (d : DomeId)
  | moorPoison (d : DomeId)
  | moorLateGran (d : DomeId)
  | moorScrubMismatch (d : DomeId)
  | moorSrAborts (d : DomeId)
  | moorMigWm (d : DomeId)
  | moorQos (d : DomeId) (q : Fin 5)
  | mpState (d : DomeId) (p : PortId)
  | mpStatus (d : DomeId) (p : PortId)
  | mpOwed (d : DomeId) (p : PortId)
  | mpCapar (d : DomeId) (p : PortId)
  | mpEdc (d : DomeId) (p : PortId)
  | mpUncorr (d : DomeId) (p : PortId)
  | mpUrgent (d : DomeId) (p : PortId)
  | mpNbr (d : DomeId) (p : PortId)
  | mpAge (d : DomeId) (p : PortId)
  | mpTs0 (d : DomeId) (p : PortId) (x : Fin 2)
  | mpTs1 (d : DomeId) (p : PortId) (x : Fin 2)
  | mpTs2 (d : DomeId) (p : PortId) (x : Fin 2)
  | mpTs3 (d : DomeId) (p : PortId) (x : Fin 2)
  | mpTs4 (d : DomeId) (p : PortId) (x : Fin 2)
  | mpTs5 (d : DomeId) (p : PortId) (x : Fin 2)
  | pbCtrl (d : DomeId)
  | pbStatus (d : DomeId)
  | pbbState (d : DomeId) (b : BankId)
  | pbbCorr (d : DomeId) (b : BankId)
  | pbbUncorr (d : DomeId) (b : BankId)
  | pbbCollide (d : DomeId) (b : BankId)
  | pbbRestores (d : DomeId) (b : BankId)
  | pbbSkipped (d : DomeId) (b : BankId)
  | pbbPasses (d : DomeId) (b : BankId)
  | pbbLast (d : DomeId) (b : BankId)
  | hstCtrl (d : DomeId)
  | hstLink (d : DomeId)
  | hstStatus (d : DomeId)
  | hstAsyncDrop (d : DomeId)
  | hstVroute (q : Fin 4)
  | hstTxn 
  | hstDring (d : DomeId) (r : RingId)
  | hstRring (d : DomeId) (r : RingId)
  | glob (r : GlobReg)
  | ext (r : ExtReg)
  | snapStatus 
  | snapTLo 
  | snapTHi 
deriving DecidableEq, Repr

/-- Base of the LAMP window that carries channel `c` (R2, R368). -/
def lampBase (c : ChanId) : Nat := 0x400000 + c.val / 4 * 0x100000

/-- The BAR0 offset of a register (R368 and the Offset column of each register table). -/
def Reg.addr : Reg → Nat
  | .charCtrl c => lampBase c + 0x20000 + c.val % 4 * 0x1000 + 0x0
  | .charTable c => lampBase c + 0x20000 + c.val % 4 * 0x1000 + 0x4
  | .charSwap c => lampBase c + 0x20000 + c.val % 4 * 0x1000 + 0x8
  | .charPos c => lampBase c + 0x20000 + c.val % 4 * 0x1000 + 0xc
  | .charIter c => lampBase c + 0x20000 + c.val % 4 * 0x1000 + 0x10
  | .charGoff c => lampBase c + 0x20000 + c.val % 4 * 0x1000 + 0x14
  | .charPlayedLo c => lampBase c + 0x20000 + c.val % 4 * 0x1000 + 0x18
  | .charPlayedHi c => lampBase c + 0x20000 + c.val % 4 * 0x1000 + 0x1c
  | .charLead c => lampBase c + 0x20000 + c.val % 4 * 0x1000 + 0x20
  | .charStatus c => lampBase c + 0x20000 + c.val % 4 * 0x1000 + 0x24
  | .charFault c => lampBase c + 0x20000 + c.val % 4 * 0x1000 + 0x28
  | .charPrimeGap c => lampBase c + 0x20000 + c.val % 4 * 0x1000 + 0x2c
  | .charSegLost c => lampBase c + 0x20000 + c.val % 4 * 0x1000 + 0x30
  | .charForever c => lampBase c + 0x20000 + c.val % 4 * 0x1000 + 0x34
  | .charFrame c k => lampBase c + 0x20000 + c.val % 4 * 0x1000 + 0x40 + k.val * 4
  | .jmpCtrl c => lampBase c + 0x20800 + c.val % 4 * 0x1000 + 0x0
  | .jmpGroup c => lampBase c + 0x20800 + c.val % 4 * 0x1000 + 0x4
  | .jmpStatus c => lampBase c + 0x20800 + c.val % 4 * 0x1000 + 0x8
  | .jmpPend c => lampBase c + 0x20800 + c.val % 4 * 0x1000 + 0xc
  | .jmpPendGc c => lampBase c + 0x20800 + c.val % 4 * 0x1000 + 0x10
  | .jmpLast c => lampBase c + 0x20800 + c.val % 4 * 0x1000 + 0x14
  | .jmpLastSrc c => lampBase c + 0x20800 + c.val % 4 * 0x1000 + 0x18
  | .jmpLastReg c => lampBase c + 0x20800 + c.val % 4 * 0x1000 + 0x1c
  | .jmpLastGc c => lampBase c + 0x20800 + c.val % 4 * 0x1000 + 0x20
  | .jmpTaken c => lampBase c + 0x20800 + c.val % 4 * 0x1000 + 0x24
  | .jmpDropped c => lampBase c + 0x20800 + c.val % 4 * 0x1000 + 0x28
  | .jmpUnmatched c => lampBase c + 0x20800 + c.val % 4 * 0x1000 + 0x2c
  | .jmpDegraded c => lampBase c + 0x20800 + c.val % 4 * 0x1000 + 0x30
  | .jmpLate c => lampBase c + 0x20800 + c.val % 4 * 0x1000 + 0x34
  | .jmpIgnored c => lampBase c + 0x20800 + c.val % 4 * 0x1000 + 0x38
  | .jmpReady c k => lampBase c + 0x20800 + c.val % 4 * 0x1000 + 0x40 + k.val * 4
  | .winOpen c k => lampBase c + 0x20800 + c.val % 4 * 0x1000 + 0x100 + k.val * 16
  | .winClose c k => lampBase c + 0x20800 + c.val % 4 * 0x1000 + 0x104 + k.val * 16
  | .winDelay c k => lampBase c + 0x20800 + c.val % 4 * 0x1000 + 0x108 + k.val * 16
  | .lantCtrl c => lampBase c + 0x30000 + c.val % 4 * 0x1000 + 0x0
  | .lantStatus c => lampBase c + 0x30000 + c.val % 4 * 0x1000 + 0x4
  | .lantSat c => lampBase c + 0x30000 + c.val % 4 * 0x1000 + 0x8
  | .lantTrim c => lampBase c + 0x30000 + c.val % 4 * 0x1000 + 0xc
  | .lantPoff c => lampBase c + 0x30000 + c.val % 4 * 0x1000 + 0x10
  | .lantDdsAmp c => lampBase c + 0x30000 + c.val % 4 * 0x1000 + 0x14
  | .lantNco c => lampBase c + 0x30000 + c.val % 4 * 0x1000 + 0x18
  | .lantLatency c => lampBase c + 0x30000 + c.val % 4 * 0x1000 + 0x1c
  | .lantRateLo c => lampBase c + 0x30000 + c.val % 4 * 0x1000 + 0x20
  | .lantRateHi c => lampBase c + 0x30000 + c.val % 4 * 0x1000 + 0x24
  | .lantSecFreqLo c k => lampBase c + 0x30000 + c.val % 4 * 0x1000 + 0x40 + k.val * 8
  | .lantSecFreqHi c k => lampBase c + 0x30000 + c.val % 4 * 0x1000 + 0x44 + k.val * 8
  | .lantSecPhase c k => lampBase c + 0x30000 + c.val % 4 * 0x1000 + 0x80 + k.val * 4
  | .lantHb c k => lampBase c + 0x30000 + c.val % 4 * 0x1000 + 0xc0 + k.val * 4
  | .lantCurve c j => lampBase c + 0x30000 + c.val % 4 * 0x1000 + 0x100 + j.val * 4
  | .tndCtrl st => 0x200000 + st.val / 8 * 0x100000 + 0x60000 + st.val % 8 * 0x100 + 0x0
  | .tndRegion st => 0x200000 + st.val / 8 * 0x100000 + 0x60000 + st.val % 8 * 0x100 + 0x4
  | .tndRingLo st => 0x200000 + st.val / 8 * 0x100000 + 0x60000 + st.val % 8 * 0x100 + 0x8
  | .tndRingHi st => 0x200000 + st.val / 8 * 0x100000 + 0x60000 + st.val % 8 * 0x100 + 0xc
  | .tndConsLo st => 0x200000 + st.val / 8 * 0x100000 + 0x60000 + st.val % 8 * 0x100 + 0x10
  | .tndConsHi st => 0x200000 + st.val / 8 * 0x100000 + 0x60000 + st.val % 8 * 0x100 + 0x14
  | .tndWmA st => 0x200000 + st.val / 8 * 0x100000 + 0x60000 + st.val % 8 * 0x100 + 0x18
  | .tndWmB st => 0x200000 + st.val / 8 * 0x100000 + 0x60000 + st.val % 8 * 0x100 + 0x1c
  | .tndFallback st => 0x200000 + st.val / 8 * 0x100000 + 0x60000 + st.val % 8 * 0x100 + 0x20
  | .tndLimit st => 0x200000 + st.val / 8 * 0x100000 + 0x60000 + st.val % 8 * 0x100 + 0x24
  | .tndState st => 0x200000 + st.val / 8 * 0x100000 + 0x60000 + st.val % 8 * 0x100 + 0x28
  | .tndStatus st => 0x200000 + st.val / 8 * 0x100000 + 0x60000 + st.val % 8 * 0x100 + 0x2c
  | .tndFill st => 0x200000 + st.val / 8 * 0x100000 + 0x60000 + st.val % 8 * 0x100 + 0x30
  | .tndPosLo st => 0x200000 + st.val / 8 * 0x100000 + 0x60000 + st.val % 8 * 0x100 + 0x34
  | .tndPosHi st => 0x200000 + st.val / 8 * 0x100000 + 0x60000 + st.val % 8 * 0x100 + 0x38
  | .tndLanded st => 0x200000 + st.val / 8 * 0x100000 + 0x60000 + st.val % 8 * 0x100 + 0x3c
  | .tndUnderruns st => 0x200000 + st.val / 8 * 0x100000 + 0x60000 + st.val % 8 * 0x100 + 0x40
  | .tndSkipped st => 0x200000 + st.val / 8 * 0x100000 + 0x60000 + st.val % 8 * 0x100 + 0x44
  | .tndGapLast st => 0x200000 + st.val / 8 * 0x100000 + 0x60000 + st.val % 8 * 0x100 + 0x48
  | .tndGapTotal st => 0x200000 + st.val / 8 * 0x100000 + 0x60000 + st.val % 8 * 0x100 + 0x4c
  | .tndDiscarded st => 0x200000 + st.val / 8 * 0x100000 + 0x60000 + st.val % 8 * 0x100 + 0x50
  | .outCtrl c => lampBase c + 0x40000 + c.val % 4 * 0x1000 + 0x0
  | .outState c => lampBase c + 0x40000 + c.val % 4 * 0x1000 + 0x4
  | .outStatus c => lampBase c + 0x40000 + c.val % 4 * 0x1000 + 0x8
  | .outDark c => lampBase c + 0x40000 + c.val % 4 * 0x1000 + 0xc
  | .outMkDelay c => lampBase c + 0x40000 + c.val % 4 * 0x1000 + 0x10
  | .outDiscard c => lampBase c + 0x40000 + c.val % 4 * 0x1000 + 0x14
  | .outDarknGran c => lampBase c + 0x40000 + c.val % 4 * 0x1000 + 0x18
  | .outCell c => lampBase c + 0x40000 + c.val % 4 * 0x1000 + 0x1c
  | .biasCommon n => 0x400000 + n.val * 0x100000 + 0x50000 + 0x0
  | .biasCtrl b => 0x400000 + b.val / 8 * 0x100000 + 0x50100 + b.val % 8 * 0x40 + 0x0
  | .biasLevel b => 0x400000 + b.val / 8 * 0x100000 + 0x50100 + b.val % 8 * 0x40 + 0x4
  | .biasSlew b => 0x400000 + b.val / 8 * 0x100000 + 0x50100 + b.val % 8 * 0x40 + 0x8
  | .biasClampLo b => 0x400000 + b.val / 8 * 0x100000 + 0x50100 + b.val % 8 * 0x40 + 0xc
  | .biasClampHi b => 0x400000 + b.val / 8 * 0x100000 + 0x50100 + b.val % 8 * 0x40 + 0x10
  | .biasNow b => 0x400000 + b.val / 8 * 0x100000 + 0x50100 + b.val % 8 * 0x40 + 0x14
  | .biasPaddr b => 0x400000 + b.val / 8 * 0x100000 + 0x50100 + b.val % 8 * 0x40 + 0x18
  | .biasPdata b => 0x400000 + b.val / 8 * 0x100000 + 0x50100 + b.val % 8 * 0x40 + 0x1c
  | .biasQfill b => 0x400000 + b.val / 8 * 0x100000 + 0x50100 + b.val % 8 * 0x40 + 0x20
  | .biasStatus b => 0x400000 + b.val / 8 * 0x100000 + 0x50100 + b.val % 8 * 0x40 + 0x24
  | .biasClamped b => 0x400000 + b.val / 8 * 0x100000 + 0x50100 + b.val % 8 * 0x40 + 0x28
  | .lookCtrl n => 0x400000 + n.val * 0x100000 + 0x60000 + 0x0
  | .lookThr n => 0x400000 + n.val * 0x100000 + 0x60000 + 0x4
  | .lookThrB n => 0x400000 + n.val * 0x100000 + 0x60000 + 0x8
  | .lookBiasThr n => 0x400000 + n.val * 0x100000 + 0x60000 + 0xc
  | .lookStatus n => 0x400000 + n.val * 0x100000 + 0x60000 + 0x10
  | .lookSkipped n => 0x400000 + n.val * 0x100000 + 0x60000 + 0x14
  | .lookMean c => lampBase c + 0x60000 + 0x40 + c.val % 4 * 8
  | .lookRms c => lampBase c + 0x60000 + 0x44 + c.val % 4 * 8
  | .lookCell c => lampBase c + 0x60000 + 0x60 + c.val % 4 * 4
  | .lookBias b => 0x400000 + b.val / 8 * 0x100000 + 0x60000 + 0x80 + b.val % 8 * 4
  | .merCtrl m => 0x100000 + m.val * 0x80000 + 0x0
  | .merState m => 0x100000 + m.val * 0x80000 + 0x4
  | .merStatus m => 0x100000 + m.val * 0x80000 + 0x8
  | .merDpll m => 0x100000 + m.val * 0x80000 + 0xc
  | .merSlew m => 0x100000 + m.val * 0x80000 + 0x10
  | .merRefOffset m => 0x100000 + m.val * 0x80000 + 0x14
  | .merDpllCmd m => 0x100000 + m.val * 0x80000 + 0x18
  | .merSfreq m => 0x100000 + m.val * 0x80000 + 0x1c
  | .merApply m => 0x100000 + m.val * 0x80000 + 0x20
  | .merOut m k => 0x100000 + m.val * 0x80000 + 0x40 + k.val * 4
  | .merSyncCtrl m => 0x100000 + m.val * 0x80000 + 0x80
  | .merSyncLat m => 0x100000 + m.val * 0x80000 + 0x84
  | .merSyncComp m => 0x100000 + m.val * 0x80000 + 0x88
  | .merEchoDly m => 0x100000 + m.val * 0x80000 + 0x8c
  | .merSyncDev m => 0x100000 + m.val * 0x80000 + 0x90
  | .merSyncFine m => 0x100000 + m.val * 0x80000 + 0x94
  | .merSyncStampLo m => 0x100000 + m.val * 0x80000 + 0x98
  | .merSyncStampHi m => 0x100000 + m.val * 0x80000 + 0x9c
  | .merTwinCal m n => 0x100000 + m.val * 0x80000 + 0xa0 + n.val * 4
  | .merTwinBad m => 0x100000 + m.val * 0x80000 + 0xb0
  | .merSel m => 0x100000 + m.val * 0x80000 + 0xb4
  | .merFov m => 0x100000 + m.val * 0x80000 + 0xb8
  | .merFovTimeLo m => 0x100000 + m.val * 0x80000 + 0xbc
  | .merFovTimeHi m => 0x100000 + m.val * 0x80000 + 0xc0
  | .merLight m => 0x100000 + m.val * 0x80000 + 0xc4
  | .merBall m c => 0x100000 + m.val * 0x80000 + 0xd0 + c.val * 4
  | .trnCtrl => 0x110000 + 0x0
  | .trnStatus m => 0x110000 + m.val * 0x80000 + 0x4
  | .trnCal m => 0x110000 + m.val * 0x80000 + 0x8
  | .trnStuck0 m => 0x110000 + m.val * 0x80000 + 0xc
  | .trnStuck1 m => 0x110000 + m.val * 0x80000 + 0x10
  | .trnNowLo m => 0x110000 + m.val * 0x80000 + 0x14
  | .trnNowHi m => 0x110000 + m.val * 0x80000 + 0x18
  | .trnLogCtrl => 0x110000 + 0x20
  | .trnLogWr => 0x110000 + 0x24
  | .trnLogRd => 0x110000 + 0x28
  | .trnLogDrop => 0x110000 + 0x2c
  | .trnPort p => 0x110000 + 0x40 + p.val * 4
  | .trnInCtrl k => 0x110000 + 0x100 + k.val * 16
  | .trnInStuck k => 0x110000 + 0x104 + k.val * 16
  | .trnInOff m k => 0x110000 + m.val * 0x80000 + 0x108 + k.val * 16
  | .trnInMissed m k => 0x110000 + m.val * 0x80000 + 0x10c + k.val * 16
  | .trnInLast m k w => 0x110000 + m.val * 0x80000 + 0x500 + k.val * 16 + w.val * 4
  | .trnTiLevel j => 0x110000 + 0x900 + j.val * 4
  | .eng m e .ctrl => 0x110000 + m.val * 0x80000 + 0x1000 + e.val * 128
  | .eng m e .n => 0x110000 + m.val * 0x80000 + 0x1004 + e.val * 128
  | .eng m e .timeout => 0x110000 + m.val * 0x80000 + 0x1008 + e.val * 128
  | .eng m e .status => 0x110000 + m.val * 0x80000 + 0x100c + e.val * 128
  | .eng m e .pLo => 0x110000 + m.val * 0x80000 + 0x1010 + e.val * 128
  | .eng m e .pHi => 0x110000 + m.val * 0x80000 + 0x1014 + e.val * 128
  | .eng m e .t0Lo => 0x110000 + m.val * 0x80000 + 0x1018 + e.val * 128
  | .eng m e .t0Hi => 0x110000 + m.val * 0x80000 + 0x101c + e.val * 128
  | .eng m e .count => 0x110000 + m.val * 0x80000 + 0x1020 + e.val * 128
  | .eng m e .unres => 0x110000 + m.val * 0x80000 + 0x1024 + e.val * 128
  | .eng m e .order => 0x110000 + m.val * 0x80000 + 0x1028 + e.val * 128
  | .eng m e .other => 0x110000 + m.val * 0x80000 + 0x102c + e.val * 128
  | .eng m e .meanLo => 0x110000 + m.val * 0x80000 + 0x1030 + e.val * 128
  | .eng m e .meanHi => 0x110000 + m.val * 0x80000 + 0x1034 + e.val * 128
  | .eng m e .sd => 0x110000 + m.val * 0x80000 + 0x1038 + e.val * 128
  | .eng m e .minLo => 0x110000 + m.val * 0x80000 + 0x103c + e.val * 128
  | .eng m e .minHi => 0x110000 + m.val * 0x80000 + 0x1040 + e.val * 128
  | .eng m e .maxLo => 0x110000 + m.val * 0x80000 + 0x1044 + e.val * 128
  | .eng m e .maxHi => 0x110000 + m.val * 0x80000 + 0x1048 + e.val * 128
  | .bcnStatus => 0x800000 + 0x0
  | .bcnInject => 0x800000 + 0x4
  | .bcnDropOff => 0x800000 + 0x8
  | .bcnLegTimeout => 0x800000 + 0xc
  | .bcnLoop => 0x800000 + 0x10
  | .bcnInflight k => 0x800000 + 0x80 + k.val * 4
  | .bcnChOvr ch => 0x800000 + 0x100 + ch.val * 4
  | .bcnEngMerged c => 0x800000 + 0x500 + c.val * 4
  | .bcnCons i => 0x800000 + 0x1000 + i.val * 16
  | .bcnConsStat i => 0x800000 + 0x1004 + i.val * 16
  | .bcnConsOvr i => 0x800000 + 0x1008 + i.val * 16
  | .bcnConsMerged i => 0x800000 + 0x100c + i.val * 16
  | .bcnTmrCtrl t => 0x800000 + 0x2000 + t.val * 16
  | .bcnTmrDelay t => 0x800000 + 0x2004 + t.val * 16
  | .bcnTmrMinp t => 0x800000 + 0x2008 + t.val * 16
  | .bcnEvout j => 0x800000 + 0x2100 + j.val * 4
  | .bcnSrc sr => 0x800000 + 0x4000 + sr.val * 4
  | .kprCtrl k => 0x200000 + k.val / 2 * 0x100000 + 0x70000 + k.val % 2 * 0x1000 + 0x0
  | .kprState k => 0x200000 + k.val / 2 * 0x100000 + 0x70000 + k.val % 2 * 0x1000 + 0x4
  | .kprStatus k => 0x200000 + k.val / 2 * 0x100000 + 0x70000 + k.val % 2 * 0x1000 + 0x8
  | .kprFault k => 0x200000 + k.val / 2 * 0x100000 + 0x70000 + k.val % 2 * 0x1000 + 0xc
  | .kprAbandons k => 0x200000 + k.val / 2 * 0x100000 + 0x70000 + k.val % 2 * 0x1000 + 0x10
  | .kprRestarts k => 0x200000 + k.val / 2 * 0x100000 + 0x70000 + k.val % 2 * 0x1000 + 0x14
  | .kprCorr k => 0x200000 + k.val / 2 * 0x100000 + 0x70000 + k.val % 2 * 0x1000 + 0x18
  | .kprImage k => 0x200000 + k.val / 2 * 0x100000 + 0x70000 + k.val % 2 * 0x1000 + 0x1c
  | .kprBind k i => 0x200000 + k.val / 2 * 0x100000 + 0x70000 + k.val % 2 * 0x1000 + 0x40 + i.val * 4
  | .kprPub k p => 0x200000 + k.val / 2 * 0x100000 + 0x70000 + k.val % 2 * 0x1000 + 0x80 + p.val * 4
  | .kprShadow k => 0x200000 + k.val / 2 * 0x100000 + 0x70000 + k.val % 2 * 0x1000 + 0xc0
  | .kprShdStatus k => 0x200000 + k.val / 2 * 0x100000 + 0x70000 + k.val % 2 * 0x1000 + 0xc4
  | .kprShdCount k => 0x200000 + k.val / 2 * 0x100000 + 0x70000 + k.val % 2 * 0x1000 + 0xc8
  | .oryState c => lampBase c + 0x70000 + c.val % 4 * 0x100 + 0x0
  | .oryStatus c => lampBase c + 0x70000 + c.val % 4 * 0x100 + 0x4
  | .oryCorr c => lampBase c + 0x70000 + c.val % 4 * 0x100 + 0x8
  | .oryRecoveries c => lampBase c + 0x70000 + c.val % 4 * 0x100 + 0xc
  | .oryRecovGran c => lampBase c + 0x70000 + c.val % 4 * 0x100 + 0x10
  | .oryFault c => lampBase c + 0x70000 + c.val % 4 * 0x100 + 0x14
  | .moorCfg d => 0x280000 + d.val * 0x100000 + 0x0
  | .moorMap d => 0x280000 + d.val * 0x100000 + 0x4
  | .moorStatus d => 0x280000 + d.val * 0x100000 + 0x8
  | .moorWq d => 0x280000 + d.val * 0x100000 + 0xc
  | .moorRef d => 0x280000 + d.val * 0x100000 + 0x10
  | .moorMig d => 0x280000 + d.val * 0x100000 + 0x14
  | .moorScrub d => 0x280000 + d.val * 0x100000 + 0x18
  | .moorSr d => 0x280000 + d.val * 0x100000 + 0x1c
  | .moorFreq d => 0x280000 + d.val * 0x100000 + 0x20
  | .moorPoison d => 0x280000 + d.val * 0x100000 + 0x24
  | .moorLateGran d => 0x280000 + d.val * 0x100000 + 0x28
  | .moorScrubMismatch d => 0x280000 + d.val * 0x100000 + 0x2c
  | .moorSrAborts d => 0x280000 + d.val * 0x100000 + 0x30
  | .moorMigWm d => 0x280000 + d.val * 0x100000 + 0x34
  | .moorQos d q => 0x280000 + d.val * 0x100000 + 0x40 + q.val * 4
  | .mpState d p => 0x281000 + d.val * 0x100000 + p.val * 0x1000 + 0x0
  | .mpStatus d p => 0x281000 + d.val * 0x100000 + p.val * 0x1000 + 0x4
  | .mpOwed d p => 0x281000 + d.val * 0x100000 + p.val * 0x1000 + 0x8
  | .mpCapar d p => 0x281000 + d.val * 0x100000 + p.val * 0x1000 + 0xc
  | .mpEdc d p => 0x281000 + d.val * 0x100000 + p.val * 0x1000 + 0x10
  | .mpUncorr d p => 0x281000 + d.val * 0x100000 + p.val * 0x1000 + 0x14
  | .mpUrgent d p => 0x281000 + d.val * 0x100000 + p.val * 0x1000 + 0x18
  | .mpNbr d p => 0x281000 + d.val * 0x100000 + p.val * 0x1000 + 0x1c
  | .mpAge d p => 0x281000 + d.val * 0x100000 + p.val * 0x1000 + 0x20
  | .mpTs0 d p x => 0x281000 + d.val * 0x100000 + p.val * 0x1000 + 0x40 + x.val * 32
  | .mpTs1 d p x => 0x281000 + d.val * 0x100000 + p.val * 0x1000 + 0x44 + x.val * 32
  | .mpTs2 d p x => 0x281000 + d.val * 0x100000 + p.val * 0x1000 + 0x48 + x.val * 32
  | .mpTs3 d p x => 0x281000 + d.val * 0x100000 + p.val * 0x1000 + 0x4c + x.val * 32
  | .mpTs4 d p x => 0x281000 + d.val * 0x100000 + p.val * 0x1000 + 0x50 + x.val * 32
  | .mpTs5 d p x => 0x281000 + d.val * 0x100000 + p.val * 0x1000 + 0x54 + x.val * 32
  | .pbCtrl d => 0x290000 + d.val * 0x100000 + 0x0
  | .pbStatus d => 0x290000 + d.val * 0x100000 + 0x4
  | .pbbState d b => 0x290100 + d.val * 0x100000 + b.val * 0x20 + 0x0
  | .pbbCorr d b => 0x290100 + d.val * 0x100000 + b.val * 0x20 + 0x4
  | .pbbUncorr d b => 0x290100 + d.val * 0x100000 + b.val * 0x20 + 0x8
  | .pbbCollide d b => 0x290100 + d.val * 0x100000 + b.val * 0x20 + 0xc
  | .pbbRestores d b => 0x290100 + d.val * 0x100000 + b.val * 0x20 + 0x10
  | .pbbSkipped d b => 0x290100 + d.val * 0x100000 + b.val * 0x20 + 0x14
  | .pbbPasses d b => 0x290100 + d.val * 0x100000 + b.val * 0x20 + 0x18
  | .pbbLast d b => 0x290100 + d.val * 0x100000 + b.val * 0x20 + 0x1c
  | .hstCtrl d => 0x2A0000 + d.val * 0x100000 + 0x0
  | .hstLink d => 0x2A0000 + d.val * 0x100000 + 0x4
  | .hstStatus d => 0x2A0000 + d.val * 0x100000 + 0x8
  | .hstAsyncDrop d => 0x2A0000 + d.val * 0x100000 + 0xc
  | .hstVroute q => 0x2A0000 + 0x10 + q.val * 4
  | .hstTxn => 0x2A0000 + 0x20
  | .hstDring d r => 0x2A0000 + d.val * 0x100000 + 0x100 + r.val * 4
  | .hstRring d r => 0x2A0000 + d.val * 0x100000 + 0x200 + r.val * 4
  | .glob .gId => 0x0 + 0x0
  | .glob .gRev => 0x0 + 0x4
  | .glob .serialLo => 0x0 + 0x8
  | .glob .serialHi => 0x0 + 0xc
  | .glob .gFunc => 0x0 + 0x10
  | .glob .gStart => 0x0 + 0x14
  | .glob .gEpoch => 0x0 + 0x18
  | .glob .snapMax => 0x0 + 0x1c
  | .glob .dbLo => 0x0 + 0x80
  | .glob .dbHi => 0x0 + 0x84
  | .glob .dring0Lo => 0x0 + 0x90
  | .glob .dring0Hi => 0x0 + 0x94
  | .glob .dring0Cfg => 0x0 + 0x98
  | .glob .rring0Lo => 0x0 + 0xa0
  | .glob .rring0Hi => 0x0 + 0xa4
  | .glob .rring0Cfg => 0x0 + 0xa8
  | .glob .rring0Coal => 0x0 + 0xac
  | .glob .regStatus => 0x0 + 0xc0
  | .glob .violAddr => 0x0 + 0xc4
  | .glob .parityAddr => 0x0 + 0xc8
  | .glob .lockedWr => 0x0 + 0xcc
  | .glob (.featOffer k) => 0x0 + 0x40 + k.val * 4
  | .glob (.featAccept k) => 0x0 + 0x60 + k.val * 4
  | .glob (.voteCorr die) => 0x0 + 0x100 + die.val * 4
  | .glob (.parityErr die) => 0x0 + 0x120 + die.val * 4
  | .ext .pwrCtrl => 0x100000 + 0x800
  | .ext .pwrState => 0x100000 + 0x804
  | .ext .pwrStatus => 0x100000 + 0x808
  | .ext .pwrSaveA => 0x100000 + 0x80c
  | .ext .pwrSaveB => 0x100000 + 0x810
  | .ext .pwrExcl => 0x100000 + 0x814
  | .ext .ledgCtrl => 0x100000 + 0x840
  | .ext .ledgStatus => 0x100000 + 0x844
  | .ext .ledgStart => 0x100000 + 0x848
  | .ext .ledgStepsLo => 0x100000 + 0x84c
  | .ext .ledgStepsHi => 0x100000 + 0x850
  | .ext .ledgAlt => 0x100000 + 0x854
  | .ext .availCond => 0x100000 + 0x900
  | .ext .availLapses => 0x100000 + 0x904
  | .ext .secStatus => 0x100000 + 0xa00
  | .ext .secFloors => 0x100000 + 0xa04
  | .ext .secOwnerFloor => 0x100000 + 0xa08
  | .ext .secHatch => 0x100000 + 0xa0c
  | .ext .telCase => 0x100000 + 0xb20
  | .ext (.pwrDom j) => 0x100000 + 0x820 + j.val * 4
  | .ext (.secOwnerHash k) => 0x100000 + 0xa40 + k.val * 4
  | .ext (.secAttHash k) => 0x100000 + 0xa80 + k.val * 4
  | .ext (.secAttKey k) => 0x100000 + 0xc00 + k.val * 4
  | .ext (.telDie die) => 0x100000 + 0xb00 + die.val * 4
  | .ext (.telRail j) => 0x100000 + 0xb40 + j.val * 4
  | .snapStatus => 0xF00000 + 0x0
  | .snapTLo => 0xF00000 + 0x4
  | .snapTHi => 0xF00000 + 0x8

/-- The die that holds a register. A register that both Meridians or both Domes hold in step (the always-on block, the shared Transit
set-up, the GLOBAL block of R387, the routing of R352) and the BEACON block are named for the die that stands first. -/
def Reg.die : Reg → Die
  | .charCtrl c => Die.ofLamp (lampOf c)
  | .charTable c => Die.ofLamp (lampOf c)
  | .charSwap c => Die.ofLamp (lampOf c)
  | .charPos c => Die.ofLamp (lampOf c)
  | .charIter c => Die.ofLamp (lampOf c)
  | .charGoff c => Die.ofLamp (lampOf c)
  | .charPlayedLo c => Die.ofLamp (lampOf c)
  | .charPlayedHi c => Die.ofLamp (lampOf c)
  | .charLead c => Die.ofLamp (lampOf c)
  | .charStatus c => Die.ofLamp (lampOf c)
  | .charFault c => Die.ofLamp (lampOf c)
  | .charPrimeGap c => Die.ofLamp (lampOf c)
  | .charSegLost c => Die.ofLamp (lampOf c)
  | .charForever c => Die.ofLamp (lampOf c)
  | .charFrame c _ => Die.ofLamp (lampOf c)
  | .jmpCtrl c => Die.ofLamp (lampOf c)
  | .jmpGroup c => Die.ofLamp (lampOf c)
  | .jmpStatus c => Die.ofLamp (lampOf c)
  | .jmpPend c => Die.ofLamp (lampOf c)
  | .jmpPendGc c => Die.ofLamp (lampOf c)
  | .jmpLast c => Die.ofLamp (lampOf c)
  | .jmpLastSrc c => Die.ofLamp (lampOf c)
  | .jmpLastReg c => Die.ofLamp (lampOf c)
  | .jmpLastGc c => Die.ofLamp (lampOf c)
  | .jmpTaken c => Die.ofLamp (lampOf c)
  | .jmpDropped c => Die.ofLamp (lampOf c)
  | .jmpUnmatched c => Die.ofLamp (lampOf c)
  | .jmpDegraded c => Die.ofLamp (lampOf c)
  | .jmpLate c => Die.ofLamp (lampOf c)
  | .jmpIgnored c => Die.ofLamp (lampOf c)
  | .jmpReady c _ => Die.ofLamp (lampOf c)
  | .winOpen c _ => Die.ofLamp (lampOf c)
  | .winClose c _ => Die.ofLamp (lampOf c)
  | .winDelay c _ => Die.ofLamp (lampOf c)
  | .lantCtrl c => Die.ofLamp (lampOf c)
  | .lantStatus c => Die.ofLamp (lampOf c)
  | .lantSat c => Die.ofLamp (lampOf c)
  | .lantTrim c => Die.ofLamp (lampOf c)
  | .lantPoff c => Die.ofLamp (lampOf c)
  | .lantDdsAmp c => Die.ofLamp (lampOf c)
  | .lantNco c => Die.ofLamp (lampOf c)
  | .lantLatency c => Die.ofLamp (lampOf c)
  | .lantRateLo c => Die.ofLamp (lampOf c)
  | .lantRateHi c => Die.ofLamp (lampOf c)
  | .lantSecFreqLo c _ => Die.ofLamp (lampOf c)
  | .lantSecFreqHi c _ => Die.ofLamp (lampOf c)
  | .lantSecPhase c _ => Die.ofLamp (lampOf c)
  | .lantHb c _ => Die.ofLamp (lampOf c)
  | .lantCurve c _ => Die.ofLamp (lampOf c)
  | .tndCtrl st => Die.ofDome (domeOfStream st)
  | .tndRegion st => Die.ofDome (domeOfStream st)
  | .tndRingLo st => Die.ofDome (domeOfStream st)
  | .tndRingHi st => Die.ofDome (domeOfStream st)
  | .tndConsLo st => Die.ofDome (domeOfStream st)
  | .tndConsHi st => Die.ofDome (domeOfStream st)
  | .tndWmA st => Die.ofDome (domeOfStream st)
  | .tndWmB st => Die.ofDome (domeOfStream st)
  | .tndFallback st => Die.ofDome (domeOfStream st)
  | .tndLimit st => Die.ofDome (domeOfStream st)
  | .tndState st => Die.ofDome (domeOfStream st)
  | .tndStatus st => Die.ofDome (domeOfStream st)
  | .tndFill st => Die.ofDome (domeOfStream st)
  | .tndPosLo st => Die.ofDome (domeOfStream st)
  | .tndPosHi st => Die.ofDome (domeOfStream st)
  | .tndLanded st => Die.ofDome (domeOfStream st)
  | .tndUnderruns st => Die.ofDome (domeOfStream st)
  | .tndSkipped st => Die.ofDome (domeOfStream st)
  | .tndGapLast st => Die.ofDome (domeOfStream st)
  | .tndGapTotal st => Die.ofDome (domeOfStream st)
  | .tndDiscarded st => Die.ofDome (domeOfStream st)
  | .outCtrl c => Die.ofLamp (lampOf c)
  | .outState c => Die.ofLamp (lampOf c)
  | .outStatus c => Die.ofLamp (lampOf c)
  | .outDark c => Die.ofLamp (lampOf c)
  | .outMkDelay c => Die.ofLamp (lampOf c)
  | .outDiscard c => Die.ofLamp (lampOf c)
  | .outDarknGran c => Die.ofLamp (lampOf c)
  | .outCell c => Die.ofLamp (lampOf c)
  | .biasCommon n => Die.ofLamp n
  | .biasCtrl b => Die.ofLamp (lampOfBias b)
  | .biasLevel b => Die.ofLamp (lampOfBias b)
  | .biasSlew b => Die.ofLamp (lampOfBias b)
  | .biasClampLo b => Die.ofLamp (lampOfBias b)
  | .biasClampHi b => Die.ofLamp (lampOfBias b)
  | .biasNow b => Die.ofLamp (lampOfBias b)
  | .biasPaddr b => Die.ofLamp (lampOfBias b)
  | .biasPdata b => Die.ofLamp (lampOfBias b)
  | .biasQfill b => Die.ofLamp (lampOfBias b)
  | .biasStatus b => Die.ofLamp (lampOfBias b)
  | .biasClamped b => Die.ofLamp (lampOfBias b)
  | .lookCtrl n => Die.ofLamp n
  | .lookThr n => Die.ofLamp n
  | .lookThrB n => Die.ofLamp n
  | .lookBiasThr n => Die.ofLamp n
  | .lookStatus n => Die.ofLamp n
  | .lookSkipped n => Die.ofLamp n
  | .lookMean c => Die.ofLamp (lampOf c)
  | .lookRms c => Die.ofLamp (lampOf c)
  | .lookCell c => Die.ofLamp (lampOf c)
  | .lookBias b => Die.ofLamp (lampOfBias b)
  | .merCtrl m => Die.ofMerid m
  | .merState m => Die.ofMerid m
  | .merStatus m => Die.ofMerid m
  | .merDpll m => Die.ofMerid m
  | .merSlew m => Die.ofMerid m
  | .merRefOffset m => Die.ofMerid m
  | .merDpllCmd m => Die.ofMerid m
  | .merSfreq m => Die.ofMerid m
  | .merApply m => Die.ofMerid m
  | .merOut m _ => Die.ofMerid m
  | .merSyncCtrl m => Die.ofMerid m
  | .merSyncLat m => Die.ofMerid m
  | .merSyncComp m => Die.ofMerid m
  | .merEchoDly m => Die.ofMerid m
  | .merSyncDev m => Die.ofMerid m
  | .merSyncFine m => Die.ofMerid m
  | .merSyncStampLo m => Die.ofMerid m
  | .merSyncStampHi m => Die.ofMerid m
  | .merTwinCal m _ => Die.ofMerid m
  | .merTwinBad m => Die.ofMerid m
  | .merSel m => Die.ofMerid m
  | .merFov m => Die.ofMerid m
  | .merFovTimeLo m => Die.ofMerid m
  | .merFovTimeHi m => Die.ofMerid m
  | .merLight m => Die.ofMerid m
  | .merBall m _ => Die.ofMerid m
  | .trnCtrl => Die.meridA
  | .trnStatus m => Die.ofMerid m
  | .trnCal m => Die.ofMerid m
  | .trnStuck0 m => Die.ofMerid m
  | .trnStuck1 m => Die.ofMerid m
  | .trnNowLo m => Die.ofMerid m
  | .trnNowHi m => Die.ofMerid m
  | .trnLogCtrl => Die.meridA
  | .trnLogWr => Die.meridA
  | .trnLogRd => Die.meridA
  | .trnLogDrop => Die.meridA
  | .trnPort _ => Die.meridA
  | .trnInCtrl _ => Die.meridA
  | .trnInStuck _ => Die.meridA
  | .trnInOff m _ => Die.ofMerid m
  | .trnInMissed m _ => Die.ofMerid m
  | .trnInLast m _ _ => Die.ofMerid m
  | .trnTiLevel _ => Die.meridA
  | .eng m _ .ctrl => Die.ofMerid m
  | .eng m _ .n => Die.ofMerid m
  | .eng m _ .timeout => Die.ofMerid m
  | .eng m _ .status => Die.ofMerid m
  | .eng m _ .pLo => Die.ofMerid m
  | .eng m _ .pHi => Die.ofMerid m
  | .eng m _ .t0Lo => Die.ofMerid m
  | .eng m _ .t0Hi => Die.ofMerid m
  | .eng m _ .count => Die.ofMerid m
  | .eng m _ .unres => Die.ofMerid m
  | .eng m _ .order => Die.ofMerid m
  | .eng m _ .other => Die.ofMerid m
  | .eng m _ .meanLo => Die.ofMerid m
  | .eng m _ .meanHi => Die.ofMerid m
  | .eng m _ .sd => Die.ofMerid m
  | .eng m _ .minLo => Die.ofMerid m
  | .eng m _ .minHi => Die.ofMerid m
  | .eng m _ .maxLo => Die.ofMerid m
  | .eng m _ .maxHi => Die.ofMerid m
  | .bcnStatus => Die.meridA
  | .bcnInject => Die.meridA
  | .bcnDropOff => Die.meridA
  | .bcnLegTimeout => Die.meridA
  | .bcnLoop => Die.meridA
  | .bcnInflight _ => Die.meridA
  | .bcnChOvr _ => Die.meridA
  | .bcnEngMerged _ => Die.meridA
  | .bcnCons _ => Die.meridA
  | .bcnConsStat _ => Die.meridA
  | .bcnConsOvr _ => Die.meridA
  | .bcnConsMerged _ => Die.meridA
  | .bcnTmrCtrl _ => Die.meridA
  | .bcnTmrDelay _ => Die.meridA
  | .bcnTmrMinp _ => Die.meridA
  | .bcnEvout _ => Die.meridA
  | .bcnSrc _ => Die.meridA
  | .kprCtrl k => Die.ofDome (domeOfKeeper k)
  | .kprState k => Die.ofDome (domeOfKeeper k)
  | .kprStatus k => Die.ofDome (domeOfKeeper k)
  | .kprFault k => Die.ofDome (domeOfKeeper k)
  | .kprAbandons k => Die.ofDome (domeOfKeeper k)
  | .kprRestarts k => Die.ofDome (domeOfKeeper k)
  | .kprCorr k => Die.ofDome (domeOfKeeper k)
  | .kprImage k => Die.ofDome (domeOfKeeper k)
  | .kprBind k _ => Die.ofDome (domeOfKeeper k)
  | .kprPub k _ => Die.ofDome (domeOfKeeper k)
  | .kprShadow k => Die.ofDome (domeOfKeeper k)
  | .kprShdStatus k => Die.ofDome (domeOfKeeper k)
  | .kprShdCount k => Die.ofDome (domeOfKeeper k)
  | .oryState c => Die.ofLamp (lampOf c)
  | .oryStatus c => Die.ofLamp (lampOf c)
  | .oryCorr c => Die.ofLamp (lampOf c)
  | .oryRecoveries c => Die.ofLamp (lampOf c)
  | .oryRecovGran c => Die.ofLamp (lampOf c)
  | .oryFault c => Die.ofLamp (lampOf c)
  | .moorCfg d => Die.ofDome d
  | .moorMap d => Die.ofDome d
  | .moorStatus d => Die.ofDome d
  | .moorWq d => Die.ofDome d
  | .moorRef d => Die.ofDome d
  | .moorMig d => Die.ofDome d
  | .moorScrub d => Die.ofDome d
  | .moorSr d => Die.ofDome d
  | .moorFreq d => Die.ofDome d
  | .moorPoison d => Die.ofDome d
  | .moorLateGran d => Die.ofDome d
  | .moorScrubMismatch d => Die.ofDome d
  | .moorSrAborts d => Die.ofDome d
  | .moorMigWm d => Die.ofDome d
  | .moorQos d _ => Die.ofDome d
  | .mpState d _ => Die.ofDome d
  | .mpStatus d _ => Die.ofDome d
  | .mpOwed d _ => Die.ofDome d
  | .mpCapar d _ => Die.ofDome d
  | .mpEdc d _ => Die.ofDome d
  | .mpUncorr d _ => Die.ofDome d
  | .mpUrgent d _ => Die.ofDome d
  | .mpNbr d _ => Die.ofDome d
  | .mpAge d _ => Die.ofDome d
  | .mpTs0 d _ _ => Die.ofDome d
  | .mpTs1 d _ _ => Die.ofDome d
  | .mpTs2 d _ _ => Die.ofDome d
  | .mpTs3 d _ _ => Die.ofDome d
  | .mpTs4 d _ _ => Die.ofDome d
  | .mpTs5 d _ _ => Die.ofDome d
  | .pbCtrl d => Die.ofDome d
  | .pbStatus d => Die.ofDome d
  | .pbbState d _ => Die.ofDome d
  | .pbbCorr d _ => Die.ofDome d
  | .pbbUncorr d _ => Die.ofDome d
  | .pbbCollide d _ => Die.ofDome d
  | .pbbRestores d _ => Die.ofDome d
  | .pbbSkipped d _ => Die.ofDome d
  | .pbbPasses d _ => Die.ofDome d
  | .pbbLast d _ => Die.ofDome d
  | .hstCtrl d => Die.ofDome d
  | .hstLink d => Die.ofDome d
  | .hstStatus d => Die.ofDome d
  | .hstAsyncDrop d => Die.ofDome d
  | .hstVroute _ => Die.domeA
  | .hstTxn => Die.domeA
  | .hstDring d _ => Die.ofDome d
  | .hstRring d _ => Die.ofDome d
  | .glob .gId => Die.domeA
  | .glob .gRev => Die.domeA
  | .glob .serialLo => Die.domeA
  | .glob .serialHi => Die.domeA
  | .glob .gFunc => Die.domeA
  | .glob .gStart => Die.domeA
  | .glob .gEpoch => Die.domeA
  | .glob .snapMax => Die.domeA
  | .glob .dbLo => Die.domeA
  | .glob .dbHi => Die.domeA
  | .glob .dring0Lo => Die.domeA
  | .glob .dring0Hi => Die.domeA
  | .glob .dring0Cfg => Die.domeA
  | .glob .rring0Lo => Die.domeA
  | .glob .rring0Hi => Die.domeA
  | .glob .rring0Cfg => Die.domeA
  | .glob .rring0Coal => Die.domeA
  | .glob .regStatus => Die.domeA
  | .glob .violAddr => Die.domeA
  | .glob .parityAddr => Die.domeA
  | .glob .lockedWr => Die.domeA
  | .glob (.featOffer _) => Die.domeA
  | .glob (.featAccept _) => Die.domeA
  | .glob (.voteCorr _) => Die.domeA
  | .glob (.parityErr _) => Die.domeA
  | .ext .pwrCtrl => Die.meridA
  | .ext .pwrState => Die.meridA
  | .ext .pwrStatus => Die.meridA
  | .ext .pwrSaveA => Die.meridA
  | .ext .pwrSaveB => Die.meridA
  | .ext .pwrExcl => Die.meridA
  | .ext .ledgCtrl => Die.meridA
  | .ext .ledgStatus => Die.meridA
  | .ext .ledgStart => Die.meridA
  | .ext .ledgStepsLo => Die.meridA
  | .ext .ledgStepsHi => Die.meridA
  | .ext .ledgAlt => Die.meridA
  | .ext .availCond => Die.meridA
  | .ext .availLapses => Die.meridA
  | .ext .secStatus => Die.meridA
  | .ext .secFloors => Die.meridA
  | .ext .secOwnerFloor => Die.meridA
  | .ext .secHatch => Die.meridA
  | .ext .telCase => Die.meridA
  | .ext (.pwrDom _) => Die.meridA
  | .ext (.secOwnerHash _) => Die.meridA
  | .ext (.secAttHash _) => Die.meridA
  | .ext (.secAttKey _) => Die.meridA
  | .ext (.telDie _) => Die.meridA
  | .ext (.telRail _) => Die.meridA
  | .snapStatus => Die.domeA
  | .snapTLo => Die.domeA
  | .snapTHi => Die.domeA

/-- The fields of a register, lowest table row first. -/
def Reg.fields : Reg → List FieldSpec
  | .charCtrl _ => [CHAR_CTRL.TABLE_HOME, CHAR_CTRL.SWAP_MODE, CHAR_CTRL.STROBE_SEL, CHAR_CTRL.PRIME_GAP_EV, CHAR_CTRL.SWAP_CANCEL, ⟨8, 24, .rsv, false, 0⟩]
  | .charTable _ => [CHAR_TABLE.ACTIVE_LEN, CHAR_TABLE.ACTIVE_SLOT, CHAR_TABLE.STAGED_LEN, CHAR_TABLE.STAGED_BUSY]
  | .charSwap _ => [CHAR_SWAP.SWAP_ENTRY, ⟨14, 18, .rsv, false, 0⟩]
  | .charPos _ => [CHAR_POS.ENTRY, CHAR_POS.DEPTH, CHAR_POS.STATE, CHAR_POS.MOVING, ⟨22, 10, .ro, false, 0⟩]
  | .charIter _ => [CHAR_ITER.ITER, ⟨24, 8, .ro, false, 0⟩]
  | .charGoff _ => [CHAR_GOFF.GOFF]
  | .charPlayedLo _ => [CHAR_PLAYED_LO.PLAYED_LO]
  | .charPlayedHi _ => [CHAR_PLAYED_HI.PLAYED_HI]
  | .charLead _ => [CHAR_LEAD.LEAD, CHAR_LEAD.LEAD_MIN]
  | .charStatus _ => [CHAR_STATUS.END_REACHED, CHAR_STATUS.SWAP_DONE, CHAR_STATUS.SWAP_JUMP_DROP, CHAR_STATUS.PRIME_GAP, CHAR_STATUS.WALK_FAULT, CHAR_STATUS.RELAY_SHORT, CHAR_STATUS.SEG_LOST, CHAR_STATUS.SWAP_CANCELLED, CHAR_STATUS.HOME_REFUSED, ⟨9, 23, .ro, false, 0⟩]
  | .charFault _ => [CHAR_FAULT.FAULT_ENTRY, ⟨14, 2, .ro, false, 0⟩, CHAR_FAULT.FAULT_CODE, ⟨20, 12, .ro, false, 0⟩]
  | .charPrimeGap _ => [CHAR_PRIME_GAP.GRANULES]
  | .charSegLost _ => [CHAR_SEG_LOST.GRANULES]
  | .charForever _ => [CHAR_FOREVER.FOREVER, ⟨8, 24, .ro, false, 0⟩]
  | .charFrame _ _ => [CHAR_FRAMEk.REMAINING]
  | .jmpCtrl _ => [JMP_CTRL.TAKEN_EV, JMP_CTRL.LATE_EV, JMP_CTRL.DEGRADE_EV, JMP_CTRL.DROP_EV, ⟨4, 4, .rsv, false, 0⟩, JMP_CTRL.EV_CH, ⟨16, 16, .rsv, false, 0⟩]
  | .jmpGroup _ => [JMP_GROUP.GROUP, JMP_GROUP.GROUP_EN, JMP_GROUP.LEADER, ⟨5, 27, .rsv, false, 0⟩]
  | .jmpStatus _ => [JMP_STATUS.TAKEN, JMP_STATUS.CARRIED, JMP_STATUS.DEGRADED, JMP_STATUS.LATE_ACCEPT, JMP_STATUS.WINDOW_REJECT, JMP_STATUS.DROPPED, JMP_STATUS.UNMATCHED, JMP_STATUS.IGNORED, JMP_STATUS.GROUP_MISS, JMP_STATUS.GROUP_SPLIT, JMP_STATUS.HEAD_LOST, JMP_STATUS.EDGE_EARLY, ⟨12, 20, .ro, false, 0⟩]
  | .jmpPend _ => [JMP_PEND.VALID, JMP_PEND.SLOT, JMP_PEND.MODE, JMP_PEND.CARRIED, JMP_PEND.GROUP, JMP_PEND.LATE, ⟨8, 4, .ro, false, 0⟩, JMP_PEND.TARGET, JMP_PEND.PHASE, JMP_PEND.DEGRADED]
  | .jmpPendGc _ => [JMP_PEND_GC.GC]
  | .jmpLast _ => [JMP_LAST.VALID, JMP_LAST.SLOT, JMP_LAST.MODE, JMP_LAST.CARRIED, JMP_LAST.GROUP, JMP_LAST.LATE, ⟨8, 4, .ro, false, 0⟩, JMP_LAST.TARGET, JMP_LAST.PHASE, JMP_LAST.DEGRADED]
  | .jmpLastSrc _ => [JMP_LAST_SRC.SOURCE, JMP_LAST_SRC.CHANNEL, ⟨22, 10, .ro, false, 0⟩]
  | .jmpLastReg _ => [JMP_LAST_REG.GC]
  | .jmpLastGc _ => [JMP_LAST_GC.GC]
  | .jmpTaken _ => [JMP_TAKEN.COUNT]
  | .jmpDropped _ => [JMP_DROPPED.COUNT]
  | .jmpUnmatched _ => [JMP_UNMATCHED.COUNT]
  | .jmpDegraded _ => [JMP_DEGRADED.COUNT]
  | .jmpLate _ => [JMP_LATE.COUNT]
  | .jmpIgnored _ => [JMP_IGNORED.COUNT]
  | .jmpReady _ _ => [JMP_READYk.ENTRY, JMP_READYk.USED, JMP_READYk.HELD, ⟨16, 16, .ro, false, 0⟩]
  | .winOpen _ _ => [WINk_OPEN.OPEN]
  | .winClose _ _ => [WINk_CLOSE.CLOSE]
  | .winDelay _ _ => [WINk_DELAY.DELAY]
  | .lantCtrl _ => [LANT_CTRL.PAIR, LANT_CTRL.MIX_REAL, LANT_CTRL.ZERO_AT_START, LANT_CTRL.MAX_INTERP, LANT_CTRL.SAT_EV, ⟨7, 1, .rsv, false, 0⟩, LANT_CTRL.EV_CH, ⟨16, 16, .rsv, false, 0⟩]
  | .lantStatus _ => [LANT_STATUS.SAT, LANT_STATUS.COLLIDE, LANT_STATUS.CUT, ⟨3, 29, .ro, false, 0⟩]
  | .lantSat _ => [LANT_SAT.COUNT]
  | .lantTrim _ => [LANT_TRIM.TRIM, ⟨18, 14, .rsv, false, 0⟩]
  | .lantPoff _ => [LANT_POFF.POFF, ⟨16, 16, .rsv, false, 0⟩]
  | .lantDdsAmp _ => [LANT_DDS_AMP.AMP, ⟨15, 17, .rsv, false, 0⟩]
  | .lantNco _ => [LANT_NCO.SECTOR, LANT_NCO.CHIRP, LANT_NCO.CHIRP_SECTOR, LANT_NCO.CURVE, ⟨12, 20, .ro, false, 0⟩]
  | .lantLatency _ => [LANT_LATENCY.LG, ⟨5, 27, .ro, false, 0⟩]
  | .lantRateLo _ => [LANT_RATE_LO.RATE_LO]
  | .lantRateHi _ => [LANT_RATE_HI.RATE_HI, ⟨8, 24, .ro, false, 0⟩]
  | .lantSecFreqLo _ _ => [LANT_SECk_FREQ_LO.FREQ_LO]
  | .lantSecFreqHi _ _ => [LANT_SECk_FREQ_HI.FREQ_HI, ⟨16, 16, .rsv, false, 0⟩]
  | .lantSecPhase _ _ => [LANT_SECk_PHASE.PHASE]
  | .lantHb _ _ => [LANT_HBk.COEF, ⟨18, 14, .ro, false, 0⟩]
  | .lantCurve _ _ => [LANT_CURVEj.CURVE, ⟨24, 8, .rsv, false, 0⟩]
  | .tndCtrl _ => [TND_CTRL.ATTACH, TND_CTRL.POLICY, TND_CTRL.FILL_MODE, TND_CTRL.FORMAT, TND_CTRL.INTERP, TND_CTRL.BLOCK_EV, ⟨14, 2, .rsv, false, 0⟩, TND_CTRL.EV_CH, TND_CTRL.CHANNEL, ⟨28, 4, .rsv, false, 0⟩]
  | .tndRegion _ => [TND_REGION.BASE, ⟨14, 2, .rsv, false, 0⟩, TND_REGION.SIZE_LOG2, ⟨21, 11, .rsv, false, 0⟩]
  | .tndRingLo _ => [TND_RING_LO.RING_LOG2, ⟨5, 7, .rsv, false, 0⟩, TND_RING_LO.BASE_LO]
  | .tndRingHi _ => [TND_RING_HI.BASE_HI]
  | .tndConsLo _ => [⟨0, 3, .rsv, false, 0⟩, TND_CONS_LO.ADDR_LO]
  | .tndConsHi _ => [TND_CONS_HI.ADDR_HI]
  | .tndWmA _ => [TND_WM_A.FILL, TND_WM_A.LOW]
  | .tndWmB _ => [TND_WM_B.RESUME, TND_WM_B.HIGH]
  | .tndFallback _ => [TND_FALLBACK.ENTRY, ⟨14, 18, .rsv, false, 0⟩]
  | .tndLimit _ => [TND_LIMIT.BLOCKS]
  | .tndState _ => [TND_STATE.STATE, ⟨3, 29, .ro, false, 0⟩]
  | .tndStatus _ => [TND_STATUS.UNDERRUN, TND_STATUS.RESUMED, TND_STATUS.LOW, TND_STATUS.HIGH, TND_STATUS.DRAINED, TND_STATUS.LOST, TND_STATUS.WM_REFUSED, TND_STATUS.ATTACH_REFUSED, TND_STATUS.LIMIT_REFUSED, ⟨9, 7, .ro, false, 0⟩, TND_STATUS.REASON]
  | .tndFill _ => [TND_FILL.FILL, ⟨17, 15, .ro, false, 0⟩]
  | .tndPosLo _ => [TND_POS_LO.POS_LO]
  | .tndPosHi _ => [TND_POS_HI.POS_HI]
  | .tndLanded _ => [TND_LANDED.BLOCKS]
  | .tndUnderruns _ => [TND_UNDERRUNS.COUNT]
  | .tndSkipped _ => [TND_SKIPPED.GRANULES]
  | .tndGapLast _ => [TND_GAP_LAST.SAMPLES]
  | .tndGapTotal _ => [TND_GAP_TOTAL.SAMPLES]
  | .tndDiscarded _ => [TND_DISCARDED.BLOCKS]
  | .outCtrl _ => [OUT_CTRL.SETTLE, OUT_CTRL.START_RANGE, OUT_CTRL.MKA_POL, OUT_CTRL.MKB_POL, OUT_CTRL.MKA_SRC, OUT_CTRL.MKB_SRC, OUT_CTRL.EV_CH, ⟨29, 3, .rsv, false, 0⟩]
  | .outState _ => [OUT_STATE.RANGE, OUT_STATE.RANGE_BUSY, OUT_STATE.DARK_SRC, OUT_STATE.SPARE_USED, OUT_STATE.SYNC_DARK, OUT_STATE.SWAPS, ⟨10, 6, .ro, false, 0⟩, ⟨24, 8, .ro, false, 0⟩]
  | .outStatus _ => [OUT_STATUS.RANGE_DONE, OUT_STATUS.DARK_N_SEEN, OUT_STATUS.LOOK_FAIL, OUT_STATUS.CELL_SWAPPED, OUT_STATUS.CELL_EXHAUSTED, ⟨5, 27, .ro, false, 0⟩]
  | .outDark _ => [OUT_DARK.CODE, OUT_DARK.FUSED, ⟨17, 15, .ro, false, 0⟩]
  | .outMkDelay _ => [OUT_MK_DELAY.MKA, ⟨7, 1, .rsv, false, 0⟩, OUT_MK_DELAY.MKB, ⟨15, 17, .rsv, false, 0⟩]
  | .outDiscard _ => [OUT_DISCARD.SAMPLES]
  | .outDarknGran _ => [OUT_DARKN_GRAN.GRANULES]
  | .outCell _ => [OUT_CELL.CELL, ⟨6, 2, .ro, false, 0⟩, OUT_CELL.SWAP_NOW, ⟨9, 23, .rsv, false, 0⟩]
  | .biasCommon _ => [BIAS_COMMON.TICK, BIAS_COMMON.EV_CH, ⟨24, 8, .rsv, false, 0⟩]
  | .biasCtrl _ => [BIAS_CTRL.CLASS, BIAS_CTRL.PERIOD, BIAS_CTRL.DEGLITCH, BIAS_CTRL.EV_EN, BIAS_CTRL.LEN, ⟨26, 6, .rsv, false, 0⟩]
  | .biasLevel _ => [BIAS_LEVEL.LEVEL, ⟨20, 12, .rsv, false, 0⟩]
  | .biasSlew _ => [BIAS_SLEW.SLEW, ⟨20, 12, .rsv, false, 0⟩]
  | .biasClampLo _ => [BIAS_CLAMP_LO.LO, ⟨20, 12, .rsv, false, 0⟩]
  | .biasClampHi _ => [BIAS_CLAMP_HI.HI, ⟨20, 12, .rsv, false, 0⟩]
  | .biasNow _ => [BIAS_NOW.CODE]
  | .biasPaddr _ => [BIAS_PADDR.ADDR, ⟨10, 22, .rsv, false, 0⟩]
  | .biasPdata _ => [BIAS_PDATA.DATA]
  | .biasQfill _ => [BIAS_QFILL.FILL]
  | .biasStatus _ => [BIAS_STATUS.CLAMPED, BIAS_STATUS.SLEWING, BIAS_STATUS.SLEW_LIMITED, BIAS_STATUS.QUEUE_EMPTY, BIAS_STATUS.QUEUE_FULL]
  | .biasClamped _ => [BIAS_CLAMPED.COUNT]
  | .lookCtrl _ => [LOOK_CTRL.EN, LOOK_CTRL.AUTO_SWAP, LOOK_CTRL.BLOCK, LOOK_CTRL.EV_CH, ⟨16, 16, .rsv, false, 0⟩]
  | .lookThr _ => [LOOK_THR.MEAN, LOOK_THR.RMS]
  | .lookThrB _ => [LOOK_THR_B.CELL, ⟨16, 16, .rsv, false, 0⟩]
  | .lookBiasThr _ => [LOOK_BIAS_THR.THR, ⟨20, 12, .rsv, false, 0⟩]
  | .lookStatus _ => [LOOK_STATUS.FAIL, LOOK_STATUS.BIAS_DEV, LOOK_STATUS.SELF_FAIL, ⟨13, 19, .ro, false, 0⟩]
  | .lookSkipped _ => [LOOK_SKIPPED.COUNT]
  | .lookMean _ => [LOOK_MEANc.MEAN]
  | .lookRms _ => [LOOK_RMSc.RMS]
  | .lookCell _ => [LOOK_CELLc.CELL, ⟨6, 10, .ro, false, 0⟩, LOOK_CELLc.ESTIMATE]
  | .lookBias _ => [LOOK_BIASj.RESIDUAL, ⟨24, 8, .ro, false, 0⟩]
  | .merCtrl _ => [MER_CTRL.XO_FREQ, MER_CTRL.REF_FREQ, MER_CTRL.RETURN_AT_SYNC, ⟨3, 5, .rsv, false, 0⟩, MER_CTRL.EV_CH, ⟨16, 16, .rsv, false, 0⟩]
  | .merState _ => [MER_STATE.FLOOP, MER_STATE.SLOOP, MER_STATE.DPLL, MER_STATE.FBAND, MER_STATE.SBAND, MER_STATE.LEADER, MER_STATE.SYNC_STALE, ⟨23, 9, .ro, false, 0⟩]
  | .merStatus _ => [MER_STATUS.LOCK_LOST, MER_STATUS.REF_LOST, MER_STATUS.PHASE_BEYOND, MER_STATUS.STEPPED, MER_STATUS.SYNC_REFUSED, MER_STATUS.SYNC_LATE, MER_STATUS.TWIN_RANGE, MER_STATUS.SPARE_IN, MER_STATUS.APPLY_REFUSED, ⟨9, 23, .ro, false, 0⟩]
  | .merDpll _ => [MER_DPLL.BW, MER_DPLL.POLICY, ⟨6, 2, .rsv, false, 0⟩, MER_DPLL.WINDOW, MER_DPLL.LOCK_THR, MER_DPLL.QUAL, ⟨28, 4, .rsv, false, 0⟩]
  | .merSlew _ => [MER_SLEW.RATE, ⟨17, 15, .rsv, false, 0⟩]
  | .merRefOffset _ => [MER_REF_OFFSET.OFFSET]
  | .merDpllCmd _ => [MER_DPLL_CMD.SLEW, MER_DPLL_CMD.STEP_SYNC, ⟨2, 30, .rsv, false, 0⟩]
  | .merSfreq _ => [MER_SFREQ.M, MER_SFREQ.F]
  | .merApply _ => [MER_APPLY.NOW, MER_APPLY.AT_SYNC, MER_APPLY.SFREQ_PENDING, ⟨3, 29, .rsv, false, 0⟩]
  | .merOut _ _ => [MER_OUTk.DIV, MER_OUTk.EN, ⟨13, 3, .rsv, false, 0⟩, MER_OUTk.DELAY, ⟨26, 5, .rsv, false, 0⟩, MER_OUTk.PENDING]
  | .merSyncCtrl _ => [MER_SYNC_CTRL.ROLE, MER_SYNC_CTRL.ARM, MER_SYNC_CTRL.FORCE, MER_SYNC_CTRL.FIRE, MER_SYNC_CTRL.MEASURE_ECHO, ⟨6, 26, .rsv, false, 0⟩]
  | .merSyncLat _ => [MER_SYNC_LAT.L, ⟨15, 17, .rsv, false, 0⟩]
  | .merSyncComp _ => [MER_SYNC_COMP.COMP]
  | .merEchoDly _ => [MER_ECHO_DLY.E]
  | .merSyncDev _ => [MER_SYNC_DEV.DEV]
  | .merSyncFine _ => [MER_SYNC_FINE.FINE, ⟨6, 26, .ro, false, 0⟩]
  | .merSyncStampLo _ => [MER_SYNC_STAMP_LO.T_LO]
  | .merSyncStampHi _ => [MER_SYNC_STAMP_HI.T_HI]
  | .merTwinCal _ _ => [MER_TWIN_CALn.RESIDUAL, MER_TWIN_CALn.SAMPLE, ⟨13, 19, .ro, false, 0⟩]
  | .merTwinBad _ => [MER_TWIN_BAD.BAD, ⟨10, 22, .ro, false, 0⟩]
  | .merSel _ => [MER_SEL.TWIN, ⟨10, 22, .ro, false, 0⟩]
  | .merFov _ => [MER_FOV.LAST, ⟨10, 6, .ro, false, 0⟩, MER_FOV.COUNT]
  | .merFovTimeLo _ => [MER_FOV_TIME_LO.T_LO]
  | .merFovTimeHi _ => [MER_FOV_TIME_HI.T_HI]
  | .merLight _ => [MER_LIGHT.QUIET, MER_LIGHT.DRIVING, ⟨2, 30, .rsv, false, 0⟩]
  | .merBall _ _ => [MER_BALLc.B, ⟨16, 16, .ro, false, 0⟩]
  | .trnCtrl => [TRN_CTRL.EV_CH, TRN_CTRL.STUCK_EV, TRN_CTRL.LOG_EV, ⟨10, 22, .rsv, false, 0⟩]
  | .trnStatus _ => [TRN_STATUS.STUCK, TRN_STATUS.MISSED, TRN_STATUS.LOG_DROP, TRN_STATUS.UNCAL, TRN_STATUS.FOV_MARK, TRN_STATUS.PORT_MERGED, TRN_STATUS.RELEASED, ⟨7, 25, .ro, false, 0⟩]
  | .trnCal _ => [TRN_CAL.ALL_CAL, ⟨1, 31, .ro, false, 0⟩]
  | .trnStuck0 _ => [TRN_STUCK0.MAP]
  | .trnStuck1 _ => [TRN_STUCK1.MAP]
  | .trnNowLo _ => [TRN_NOW_LO.C_LO]
  | .trnNowHi _ => [TRN_NOW_HI.C_HI]
  | .trnLogCtrl => [TRN_LOG_CTRL.EN, TRN_LOG_CTRL.WRAP, TRN_LOG_CTRL.HOME, TRN_LOG_CTRL.SIZE_LOG2, ⟨8, 8, .rsv, false, 0⟩, TRN_LOG_CTRL.BASE, ⟨26, 6, .rsv, false, 0⟩]
  | .trnLogWr => [TRN_LOG_WR.INDEX]
  | .trnLogRd => [TRN_LOG_RD.INDEX]
  | .trnLogDrop => [TRN_LOG_DROP.COUNT]
  | .trnPort _ => [TRN_PORTp.CH, TRN_PORTp.EN, ⟨9, 23, .rsv, false, 0⟩]
  | .trnInCtrl k => if k.val < 8 ∨ k.val = 57
      then [TRN_INk_CTRL.EN, TRN_INk_CTRL.EDGE, TRN_INk_CTRL.POL, TRN_INk_CTRL.PORT, TRN_INk_CTRL.PUB, TRN_INk_CTRL.LOG, TRN_INk_CTRL.WAKE, ⟨11, 1, .rsv, false, 0⟩, TRN_INk_CTRL.HOLDOFF, ⟨24, 8, .rsv, false, 0⟩]
      else [TRN_INk_CTRL.EN, TRN_INk_CTRL.EDGE, TRN_INk_CTRL.POL, TRN_INk_CTRL.PORT, TRN_INk_CTRL.PUB, TRN_INk_CTRL.LOG, ⟨10, 2, .rsv, false, 0⟩, TRN_INk_CTRL.HOLDOFF, ⟨24, 8, .rsv, false, 0⟩]
  | .trnInStuck _ => [TRN_INk_STUCK.TIME, TRN_INk_STUCK.STUCK, ⟨21, 11, .rsv, false, 0⟩]
  | .trnInOff _ _ => [TRN_INk_OFF.OFF]
  | .trnInMissed _ _ => [TRN_INk_MISSED.COUNT]
  | .trnInLast _ _ _ => [TRN_INk_LAST.RECORD]
  | .trnTiLevel _ => [TRN_TIj_LEVEL.THR, TRN_TIj_LEVEL.HYST, TRN_TIj_LEVEL.TERM, ⟨20, 12, .rsv, false, 0⟩]
  | .eng _ _ .ctrl => [ENG_CTRL.MODE, ENG_CTRL.RUN, ENG_CTRL.INC_UNRES, ENG_CTRL.INC_ORDER, ENG_CTRL.BALL_REF, ENG_CTRL.DONE_EV, ENG_CTRL.START, ENG_CTRL.STOP, ENG_CTRL.CONT, ⟨21, 11, .rsv, false, 0⟩]
  | .eng _ _ .n => [ENG_N.N]
  | .eng _ _ .timeout => [ENG_TIMEOUT.TIMEOUT]
  | .eng _ _ .status => [ENG_STATUS.BUSY, ENG_STATUS.DONE, ENG_STATUS.OVERRANGE]
  | .eng _ _ .pLo => [ENG_P_LO.P]
  | .eng _ _ .pHi => [ENG_P_HI.P]
  | .eng _ _ .t0Lo => [ENG_T0_LO.T0]
  | .eng _ _ .t0Hi => [ENG_T0_HI.T0]
  | .eng _ _ .count => [ENG_COUNT.COUNT]
  | .eng _ _ .unres => [ENG_UNRES.COUNT]
  | .eng _ _ .order => [ENG_ORDER.COUNT]
  | .eng _ _ .other => [ENG_OTHER.COUNT]
  | .eng _ _ .meanLo => [ENG_MEAN_LO.MEAN]
  | .eng _ _ .meanHi => [ENG_MEAN_HI.MEAN]
  | .eng _ _ .sd => [ENG_SD.SD]
  | .eng _ _ .minLo => [ENG_MIN_LO.MIN]
  | .eng _ _ .minHi => [ENG_MIN_HI.MIN]
  | .eng _ _ .maxLo => [ENG_MAX_LO.MAX]
  | .eng _ _ .maxHi => [ENG_MAX_HI.MAX]
  | .bcnStatus => [BCN_STATUS.CH_MERGE, BCN_STATUS.CONS_OVR, BCN_STATUS.CONS_MERGED, BCN_STATUS.LEG_TIMEOUT, BCN_STATUS.DROP_OFF, BCN_STATUS.LOOP_REJECT, ⟨6, 26, .ro, false, 0⟩]
  | .bcnInject => [BCN_INJECT.CH, BCN_INJECT.INFO]
  | .bcnDropOff => [BCN_DROP_OFF.COUNT]
  | .bcnLegTimeout => [BCN_LEG_TIMEOUT.COUNT]
  | .bcnLoop => [BCN_LOOP.CH, BCN_LOOP.VALID, ⟨9, 23, .ro, false, 0⟩]
  | .bcnInflight _ => [BCN_INFLIGHTk.MAP]
  | .bcnChOvr _ => [BCN_CHc_OVR.COUNT]
  | .bcnEngMerged _ => [BCN_ENGc_MERGED.COUNT]
  | .bcnCons _ => [BCN_CONSi.CH, BCN_CONSi.EN, ⟨9, 23, .rsv, false, 0⟩]
  | .bcnConsStat _ => [BCN_CONSi_STAT.BUSY, BCN_CONSi_STAT.PENDING, BCN_CONSi_STAT.OVERRUN, BCN_CONSi_STAT.MERGED, ⟨4, 28, .ro, false, 0⟩]
  | .bcnConsOvr _ => [BCN_CONSi_OVR.COUNT]
  | .bcnConsMerged _ => [BCN_CONSi_MERGED.COUNT]
  | .bcnTmrCtrl _ => [BCN_TMRt_CTRL.CH, BCN_TMRt_CTRL.MODE, BCN_TMRt_CTRL.START, BCN_TMRt_CTRL.STOP, BCN_TMRt_CTRL.RUNNING, ⟨12, 20, .rsv, false, 0⟩]
  | .bcnTmrDelay _ => [BCN_TMRt_DELAY.DELAY]
  | .bcnTmrMinp _ => [BCN_TMRt_MINP.MINP]
  | .bcnEvout _ => [BCN_EVOUTj.MODE, BCN_EVOUTj.POL, BCN_EVOUTj.WIDTH, ⟨12, 20, .rsv, false, 0⟩]
  | .bcnSrc _ => [BCN_SRCs.CH, BCN_SRCs.EN, BCN_SRCs.CH_OWNED, ⟨10, 22, .rsv, false, 0⟩]
  | .kprCtrl _ => [KPR_CTRL.RETRY, KPR_CTRL.MAX_RUN, ⟨20, 12, .rsv, false, 0⟩]
  | .kprState _ => [KPR_STATE.RUNNING, KPR_STATE.INPUT, KPR_STATE.ROUTINE, KPR_STATE.COMMITTED, KPR_STATE.WAITING, KPR_STATE.RELEASING, KPR_STATE.WORD, ⟨30, 2, .ro, false, 0⟩]
  | .kprStatus _ => [KPR_STATUS.ABANDONED, KPR_STATUS.FAILED, KPR_STATUS.TIMEOUT, KPR_STATUS.RELEASE_DROP, KPR_STATUS.STORE_CORR, KPR_STATUS.STORE_REPAIR, KPR_STATUS.SPARES_OUT, KPR_STATUS.LOAD_DONE, KPR_STATUS.LOAD_FAIL, ⟨9, 23, .ro, false, 0⟩]
  | .kprFault _ => [KPR_FAULT.ROUTINE, KPR_FAULT.INPUT, KPR_FAULT.CODE, KPR_FAULT.WORD, ⟨30, 2, .ro, false, 0⟩]
  | .kprAbandons _ => [KPR_ABANDONS.COUNT]
  | .kprRestarts _ => [KPR_RESTARTS.COUNT]
  | .kprCorr _ => [KPR_CORR.COUNT, KPR_CORR.SPARES]
  | .kprImage _ => [KPR_IMAGE.VENDOR, KPR_IMAGE.OWNER]
  | .kprBind _ _ => [KPR_BINDi.ROUTINE, KPR_BINDi.EN, KPR_BINDi.LOCKED, KPR_BINDi.FAILED, KPR_BINDi.PROTECT, ⟨12, 20, .rsv, false, 0⟩]
  | .kprPub _ _ => [KPR_PUBp.CH, ⟨8, 24, .rsv, false, 0⟩]
  | .kprShadow _ => [KPR_SHADOW.CHANNELS, ⟨16, 16, .ro, false, 0⟩]
  | .kprShdStatus _ => [KPR_SHD_STATUS.CHANNEL, KPR_SHD_STATUS.CAUSE, KPR_SHD_STATUS.VALID, ⟨8, 24, .ro, false, 0⟩]
  | .kprShdCount _ => [KPR_SHD_COUNT.COUNT]
  | .oryState _ => [ORY_STATE.STORE, ORY_STATE.SPARES, ⟨9, 7, .ro, false, 0⟩, ORY_STATE.VERSION]
  | .oryStatus _ => [ORY_STATUS.CORR, ORY_STATUS.REPAIR, ORY_STATUS.UNCORR, ORY_STATUS.RECOVERED, ORY_STATUS.GIVEN_UP, ORY_STATUS.SPARES_OUT, ⟨6, 26, .ro, false, 0⟩]
  | .oryCorr _ => [ORY_CORR.COUNT]
  | .oryRecoveries _ => [ORY_RECOVERIES.COUNT]
  | .oryRecovGran _ => [ORY_RECOV_GRAN.GRANULES]
  | .oryFault _ => [ORY_FAULT.WORD, ⟨13, 3, .ro, false, 0⟩, ORY_FAULT.CAUSE, ORY_FAULT.SHD_CAUSE, ⟨23, 9, .ro, false, 0⟩]
  | .moorCfg _ => [MOOR_CFG.HALF, MOOR_CFG.DIV, MOOR_CFG.SET_STATE, MOOR_CFG.TIMING_SET, ⟨9, 7, .ro, false, 0⟩, MOOR_CFG.TRAIN_MASK, ⟨22, 10, .rsv, false, 0⟩]
  | .moorMap _ => [MOOR_MAP.L0, MOOR_MAP.L1, MOOR_MAP.L2, MOOR_MAP.L3, MOOR_MAP.SPARE_USED, ⟨13, 19, .ro, false, 0⟩]
  | .moorStatus _ => [MOOR_STATUS.RETIRED, MOOR_STATUS.MIG_DONE, MOOR_STATUS.POISON, MOOR_STATUS.URGENT, MOOR_STATUS.SCRUB_MISMATCH, MOOR_STATUS.LATE, MOOR_STATUS.SR_ABORT, ⟨7, 25, .ro, false, 0⟩]
  | .moorWq _ => [MOOR_WQ.HIGH, ⟨7, 1, .rsv, false, 0⟩, MOOR_WQ.LOW, ⟨15, 1, .rsv, false, 0⟩, MOOR_WQ.FILL, ⟨24, 8, .ro, false, 0⟩]
  | .moorRef _ => [MOOR_REF.NBR_K, MOOR_REF.NBR_EN, ⟨5, 27, .rsv, false, 0⟩]
  | .moorMig _ => [MOOR_MIG.SHARE, MOOR_MIG.AUTO, MOOR_MIG.START, MOOR_MIG.BUSY, ⟨9, 23, .rsv, false, 0⟩]
  | .moorScrub _ => [MOOR_SCRUB.DUTY, ⟨4, 12, .rsv, false, 0⟩, MOOR_SCRUB.PASSES]
  | .moorSr _ => [MOOR_SR.EXIT, MOOR_SR.IDLE_EN, ⟨15, 1, .rsv, false, 0⟩, MOOR_SR.IDLE_US, MOOR_SR.STATE, ⟨31, 1, .rsv, false, 0⟩]
  | .moorFreq _ => [MOOR_FREQ.TARGET_DIV, MOOR_FREQ.GO, MOOR_FREQ.BUSY, MOOR_FREQ.RESULT, ⟨8, 24, .rsv, false, 0⟩]
  | .moorPoison _ => [MOOR_POISON.COUNT]
  | .moorLateGran _ => [MOOR_LATE_GRAN.GRANULES]
  | .moorScrubMismatch _ => [MOOR_SCRUB_MISMATCH.COUNT]
  | .moorSrAborts _ => [MOOR_SR_ABORTS.COUNT]
  | .moorMigWm _ => [MOOR_MIG_WM.W, ⟨25, 7, .ro, false, 0⟩]
  | .moorQos _ _ => [MOOR_QOSc.TARGET, ⟨20, 12, .rsv, false, 0⟩]
  | .mpState _ _ => [MP_STATE.ROLE, MP_STATE.DOUBLE, MP_STATE.IN_SR, ⟨5, 3, .ro, false, 0⟩, MP_STATE.TEMP, MP_STATE.DENSITY, ⟨20, 12, .ro, false, 0⟩]
  | .mpStatus _ _ => [MP_STATUS.CAPAR, MP_STATUS.EDC, MP_STATUS.UNCORR, MP_STATUS.TRAIN_FAIL, MP_STATUS.TEMP_HIGH, ⟨5, 27, .ro, false, 0⟩]
  | .mpOwed _ _ => [MP_OWED.SC0, MP_OWED.SC1, MP_OWED.SC2, MP_OWED.SC3, ⟨16, 16, .ro, false, 0⟩]
  | .mpCapar _ _ => [MP_CAPAR.COUNT]
  | .mpEdc _ _ => [MP_EDC.COUNT]
  | .mpUncorr _ _ => [MP_UNCORR.COUNT]
  | .mpUrgent _ _ => [MP_URGENT.COUNT]
  | .mpNbr _ _ => [MP_NBR.COUNT]
  | .mpAge _ _ => [MP_AGE.HOURS]
  | .mpTs0 _ _ _ => [MP_TSx_0.CL, MP_TSx_0.CWL, MP_TSx_0.TRCD, MP_TSx_0.TRP]
  | .mpTs1 _ _ _ => [MP_TSx_1.TRRD, MP_TSx_1.TCCD, MP_TSx_1.TWTR, MP_TSx_1.TRTP]
  | .mpTs2 _ _ _ => [MP_TSx_2.TRAS, MP_TSx_2.TRC, MP_TSx_2.TWR, ⟨30, 2, .rsv, false, 0⟩]
  | .mpTs3 _ _ _ => [MP_TSx_3.TFAW, ⟨10, 22, .rsv, false, 0⟩]
  | .mpTs4 _ _ _ => [MP_TSx_4.TRFCAB, MP_TSx_4.TRFCPB, ⟨24, 8, .rsv, false, 0⟩]
  | .mpTs5 _ _ _ => [MP_TSx_5.TREFI, MP_TSx_5.TXS]
  | .pbCtrl _ => [PB_CTRL.TEST_EN, PB_CTRL.CORR_EV, PB_CTRL.AUTO_REPAIR, ⟨3, 13, .rsv, false, 0⟩, PB_CTRL.INTERVAL, ⟨28, 4, .rsv, false, 0⟩]
  | .pbStatus _ => [PB_STATUS.COLLIDE, PB_STATUS.CORR, PB_STATUS.UNCORR, PB_STATUS.REPAIR, PB_STATUS.SPARES_OUT, PB_STATUS.TEST_FAIL, PB_STATUS.RESTORE, ⟨7, 25, .ro, false, 0⟩]
  | .pbbState _ _ => [PBb_STATE.SPARES_USED, PBb_STATE.SPARES_TOTAL, PBb_STATE.REGION, PBb_STATE.TESTING, ⟨29, 3, .ro, false, 0⟩]
  | .pbbCorr _ _ => [PBb_CORR.COUNT]
  | .pbbUncorr _ _ => [PBb_UNCORR.COUNT]
  | .pbbCollide _ _ => [PBb_COLLIDE.COUNT]
  | .pbbRestores _ _ => [PBb_RESTORES.COUNT]
  | .pbbSkipped _ _ => [PBb_SKIPPED.COUNT]
  | .pbbPasses _ _ => [PBb_PASSES.COUNT]
  | .pbbLast _ _ => [PBb_LAST.ROW, PBb_LAST.KIND, PBb_LAST.VALID, ⟨16, 16, .ro, false, 0⟩]
  | .hstCtrl _ => [HST_CTRL.POLL, ⟨14, 18, .rsv, false, 0⟩]
  | .hstLink _ => [HST_LINK.GEN, HST_LINK.WIDTH, HST_LINK.FLIT, HST_LINK.D3, ⟨10, 22, .ro, false, 0⟩]
  | .hstStatus _ => [HST_STATUS.LINK_DOWN, HST_STATUS.DMA_FAULT, HST_STATUS.ASYNC_DROP, HST_STATUS.ABORT, HST_STATUS.HOST_LOST, ⟨5, 27, .ro, false, 0⟩]
  | .hstAsyncDrop _ => [HST_ASYNC_DROP.COUNT]
  | .hstVroute _ => [HST_VROUTEq.ROUTE]
  | .hstTxn => [HST_TXN.OPEN, HST_TXN.ARMED, HST_TXN.FUNC, ⟨12, 20, .ro, false, 0⟩]
  | .hstDring _ _ => [HST_DRINGr.STATE, ⟨2, 14, .ro, false, 0⟩, HST_DRINGr.CONS]
  | .hstRring _ _ => [HST_RRINGr.STATE, HST_RRINGr.FULL, ⟨3, 13, .ro, false, 0⟩, HST_RRINGr.PROD]
  | .glob .gId => [ID.PART, ID.FAMILY, ⟨24, 8, .ro, false, 0⟩]
  | .glob .gRev => [REV.MINOR, REV.MAJOR, REV.BOOT]
  | .glob .serialLo => [SERIAL_LO.SN_LO]
  | .glob .serialHi => [SERIAL_HI.SN_HI]
  | .glob .gFunc => [FUNC.DOME, FUNC.PEER_UP, ⟨2, 30, .ro, false, 0⟩]
  | .glob .gStart => [START.STEP, START.HALTED, START.DEGRADED, START.LIT, ⟨8, 8, .ro, false, 0⟩, START.REASON]
  | .glob .gEpoch => [EPOCH.EPOCH]
  | .glob .snapMax => [SNAP_MAX.COUNT]
  | .glob .dbLo => [⟨0, 12, .rsv, false, 0⟩, DB_LO.ADDR_LO]
  | .glob .dbHi => [DB_HI.ADDR_HI]
  | .glob .dring0Lo => [DRING0_LO.BASE_LO]
  | .glob .dring0Hi => [DRING0_HI.BASE_HI]
  | .glob .dring0Cfg => [DRING0_CFG.SIZE_LOG2, DRING0_CFG.FUNC, ⟨6, 2, .rsv, false, 0⟩, DRING0_CFG.DEF_RRING, ⟨14, 17, .rsv, false, 0⟩, DRING0_CFG.EN]
  | .glob .rring0Lo => [RRING0_LO.BASE_LO]
  | .glob .rring0Hi => [RRING0_HI.BASE_HI]
  | .glob .rring0Cfg => [RRING0_CFG.SIZE_LOG2, RRING0_CFG.FUNC, RRING0_CFG.VECTOR, ⟨13, 3, .rsv, false, 0⟩, RRING0_CFG.COAL_COUNT, ⟨24, 7, .rsv, false, 0⟩, RRING0_CFG.EN]
  | .glob .rring0Coal => [RRING0_COAL.TIME, ⟨16, 16, .rsv, false, 0⟩]
  | .glob .regStatus => [REG_STATUS.LOCK_VIOL, REG_STATUS.VOTE_CORR, REG_STATUS.VOTE_FAIL, REG_STATUS.PARITY, REG_STATUS.BAD_ACCESS, REG_STATUS.RING_CFG, REG_STATUS.TEST_ACTIVE, ⟨7, 25, .ro, false, 0⟩]
  | .glob .violAddr => [VIOL_ADDR.OFFSET, ⟨25, 7, .ro, false, 0⟩]
  | .glob .parityAddr => [PARITY_ADDR.OFFSET, ⟨25, 7, .ro, false, 0⟩]
  | .glob .lockedWr => [LOCKED_WR.COUNT]
  | .glob (.featOffer _) => [FEAT_OFFERk.OFFER]
  | .glob (.featAccept _) => [FEAT_ACCEPTk.ACCEPT]
  | .glob (.voteCorr _) => [VOTE_CORRd.COUNT]
  | .glob (.parityErr _) => [PARITY_ERRd.COUNT]
  | .ext .pwrCtrl => [PWR_CTRL.REQ, PWR_CTRL.READMIT, PWR_CTRL.RESET, ⟨4, 28, .rsv, false, 0⟩]
  | .ext .pwrState => [PWR_STATE.STATE, PWR_STATE.LIT_READY, PWR_STATE.HALTED, PWR_STATE.EXITING, ⟨5, 11, .ro, false, 0⟩, PWR_STATE.WAKE_SRC, PWR_STATE.WAKE_VALID, ⟨27, 5, .ro, false, 0⟩]
  | .ext .pwrStatus => [PWR_STATUS.REFUSED, PWR_STATUS.CAUSE, PWR_STATUS.STALE, PWR_STATUS.READMITTED, PWR_STATUS.EXIT_FAIL, ⟨7, 25, .ro, false, 0⟩]
  | .ext .pwrSaveA => [PWR_SAVE_A.BASE, PWR_SAVE_A.EN, ⟨15, 17, .rsv, false, 0⟩]
  | .ext .pwrSaveB => [PWR_SAVE_B.BASE, PWR_SAVE_B.EN, ⟨15, 17, .rsv, false, 0⟩]
  | .ext .pwrExcl => [PWR_EXCL.DIES, PWR_EXCL.CHANNELS, ⟨24, 8, .ro, false, 0⟩]
  | .ext .ledgCtrl => [LEDG_CTRL.CLEAR_ALT, LEDG_CTRL.COMPACT, ⟨16, 16, .rsv, false, 0⟩]
  | .ext .ledgStatus => [LEDG_STATUS.FLASH0_BAD, LEDG_STATUS.FLASH1_BAD, LEDG_STATUS.WRITE_FAIL, LEDG_STATUS.COMPACTED, ⟨4, 12, .ro, false, 0⟩, LEDG_STATUS.LOG_FREE, ⟨29, 3, .ro, false, 0⟩]
  | .ext .ledgStart => [LEDG_START.START_NO]
  | .ext .ledgStepsLo => [LEDG_STEPS_LO.STEPS_LO]
  | .ext .ledgStepsHi => [LEDG_STEPS_HI.STEPS_HI]
  | .ext .ledgAlt => [LEDG_ALT.THIS, ⟨15, 1, .ro, false, 0⟩, LEDG_ALT.STICKY, ⟨31, 1, .ro, false, 0⟩]
  | .ext .availCond => [AVAIL_COND.LOOKOUT, AVAIL_COND.PLATE_TEST, AVAIL_COND.SCRUB, AVAIL_COND.SPARE_PORT, AVAIL_COND.SPARE_LANE, AVAIL_COND.SPARE_CELL, AVAIL_COND.SPARE_ROW, AVAIL_COND.SPARE_WORD, AVAIL_COND.SPARE_CLOCK, AVAIL_COND.TEMP, AVAIL_COND.MIRROR, ⟨11, 20, .ro, false, 0⟩, AVAIL_COND.ALL]
  | .ext .availLapses => [AVAIL_LAPSES.COUNT]
  | .ext .secStatus => [SEC_STATUS.ROOT_ALT, SEC_STATUS.OWNER_ENROLLED, SEC_STATUS.OWNER_FUSED, SEC_STATUS.ERASED, SEC_STATUS.ATT_READY, SEC_STATUS.ATT_GEN, SEC_STATUS.STORE_BAD, SEC_STATUS.HATCH_OPEN, SEC_STATUS.ERASE_PENDING, ⟨9, 23, .ro, false, 0⟩]
  | .ext .secFloors => [SEC_FLOORS.VENDOR, ⟨7, 25, .ro, false, 0⟩]
  | .ext .secOwnerFloor => [SEC_OWNER_FLOOR.OWNER]
  | .ext .secHatch => [SEC_HATCH.STATE, SEC_HATCH.REFUSALS, SEC_HATCH.LOCKOUT, ⟨6, 10, .ro, false, 0⟩, SEC_HATCH.OPENINGS]
  | .ext .telCase => [TEL_CASE.CASE, TEL_CASE.WARN, TEL_CASE.HOT, ⟨14, 18, .ro, false, 0⟩]
  | .ext (.pwrDom _) => [PWR_DOMj.DOM]
  | .ext (.secOwnerHash _) => [SEC_OWNER_HASHk.HASH]
  | .ext (.secAttHash _) => [SEC_ATT_HASHk.HASH]
  | .ext (.secAttKey _) => [SEC_ATT_KEYk.MODULUS]
  | .ext (.telDie _) => [TEL_DIEd.TEMP, ⟨12, 4, .ro, false, 0⟩, TEL_DIEd.POWER, ⟨28, 4, .ro, false, 0⟩]
  | .ext (.telRail _) => [TEL_RAILj.MV, TEL_RAILj.OUT, ⟨17, 15, .ro, false, 0⟩]
  | .snapStatus => [SNAP_STATUS.VALID, SNAP_STATUS.BUSY, SNAP_STATUS.LATE, ⟨3, 5, .ro, false, 0⟩, SNAP_STATUS.SCOPE, SNAP_STATUS.SEQ]
  | .snapTLo => [SNAP_T_LO.T_LO]
  | .snapTHi => [SNAP_T_HI.T_HI]

/-- A word with the fields of a table at their reset values. -/
def fieldsReset : List FieldSpec → Nat
  | [] => 0
  | f :: fs => f.reset <<< f.lo ||| fieldsReset fs

/-- The local indices whose channel is a field of the source's own block: CH_OWNED of BCN_SRCs (R240, R254). VISIT_PUB, which publishes on its entry's PUB_CH, is counted
among them (DEDUCED, log entry 137). -/
def chOwned (s : Nat) : Bool :=
  if s < 384 then
    let l := s % 96
    if l < 72 then l % 18 == 0 || (7 ≤ l % 18 && l % 18 ≤ 10) || 12 ≤ l % 18 else decide (l ≤ 82)
  else if s < 544 then decide ((s - 384) % 80 < 64)
  else
    let l := (s - 544) % 48
    decide (l ≤ 38) || l == 45

/-- DIV and EN of the Meridian outputs (R199, R205): the sample clocks undivided (DESIGN CHOICE, log entry 3: R199 gives 1 to 13), MCLK 12, CCLK 10, HCLK 12, TCLK 8, the spares 4,096 (encoded 0) and
disabled. -/
def merOutReset (k : Nat) : Word :=
  if k < 4 then 0x1001 else if k < 6 then 0x100C else if k < 8 then 0x100A else if k = 8 then 0x100C else if k = 9 then 0x1008 else 0

/-- The class targets of R295 in ns. -/
def qosReset (q : Nat) : Word := if q = 0 then 64 else if q = 1 then 2000 else if q = 2 then 4000 else if q = 3 then 100000 else 1000000

/-- The eleventh half-band coefficient that the ten others leave: twice their sum is 2^17 (R110). -/
def hbLast : Int := 2 ^ 16 - ((List.finRange 10).foldl (fun acc k => acc + toSigned 18 (Config.halfBand ⟨k.val, by omega⟩).toNat) (0 : Int))
/-- The half-band coefficients the silicon holds, as any eleven values that satisfy R110; where ten values leave none for the eleventh, those of a two-tap stage stand for them. -/
def hbWord (k : Fin 11) : BitVec 18 :=
  if -(2 ^ 17) ≤ hbLast ∧ hbLast < 2 ^ 17 then (if k.val < 10 then Config.halfBand k else BitVec.ofNat 18 (ofSigned 18 hbLast))
  else if k.val = 0 then 0x10000 else 0

/-- The reset value of a register: the Reset column, and where that column names a rule, a fuse, a strap or the image instead of a number, what that gives. -/
def Reg.reset (r : Reg) : Word :=
  match r with
  | .lantHb _ k => (hbWord k).setWidth 32
  | .merOut _ k => merOutReset k.val
  | .trnInCtrl k => if 56 ≤ k.val ∧ k.val ≤ 59 then BitVec.ofNat 32 (fieldsReset (Reg.fields (.trnInCtrl k))) ||| 1 else BitVec.ofNat 32 (fieldsReset (Reg.fields (.trnInCtrl k))) &&& 0xFFFFFFFE
  | .bcnSrc sr => BitVec.ofNat 32 (fieldsReset (Reg.fields (.bcnSrc sr))) ||| (if chOwned sr.val then 0x200 else 0)
  | .kprBind _ i => if i.val < 4 then 0x200 else 0
  | .kprShadow k => BitVec.ofNat 32 (0xF <<< (4 * k.val))
  | .moorQos _ q => qosReset q.val
  | .mpState _ p => if p.val = 4 then 1 else 0
  | .pbbState _ b => if b.val = 1 then 0x4000 else if b.val = 3 ∨ b.val = 4 then 0x1000 else 0x2000
  | .hstVroute q => if q.val < 2 then 0 else 0xFFFFFFFF
  | .glob .snapMax => 1661
  | r => BitVec.ofNat 32 (fieldsReset r.fields)

/-- Whether a snapshot includes the register (R383; the sentence of each chapter that includes its counters and results). -/
def Reg.inSnapshot : Reg → Bool
  | .charCtrl _ => false
  | .charTable _ => false
  | .charSwap _ => false
  | .charPos _ => false
  | .charIter _ => false
  | .charGoff _ => false
  | .charPlayedLo _ => true
  | .charPlayedHi _ => true
  | .charLead _ => false
  | .charStatus _ => false
  | .charFault _ => false
  | .charPrimeGap _ => false
  | .charSegLost _ => false
  | .charForever _ => false
  | .charFrame _ _ => false
  | .jmpCtrl _ => false
  | .jmpGroup _ => false
  | .jmpStatus _ => false
  | .jmpPend _ => false
  | .jmpPendGc _ => false
  | .jmpLast _ => false
  | .jmpLastSrc _ => false
  | .jmpLastReg _ => false
  | .jmpLastGc _ => false
  | .jmpTaken _ => true
  | .jmpDropped _ => true
  | .jmpUnmatched _ => true
  | .jmpDegraded _ => true
  | .jmpLate _ => true
  | .jmpIgnored _ => true
  | .jmpReady _ _ => false
  | .winOpen _ _ => false
  | .winClose _ _ => false
  | .winDelay _ _ => false
  | .lantCtrl _ => false
  | .lantStatus _ => false
  | .lantSat _ => true
  | .lantTrim _ => false
  | .lantPoff _ => false
  | .lantDdsAmp _ => false
  | .lantNco _ => false
  | .lantLatency _ => false
  | .lantRateLo _ => false
  | .lantRateHi _ => false
  | .lantSecFreqLo _ _ => false
  | .lantSecFreqHi _ _ => false
  | .lantSecPhase _ _ => true
  | .lantHb _ _ => false
  | .lantCurve _ _ => false
  | .tndCtrl _ => false
  | .tndRegion _ => false
  | .tndRingLo _ => false
  | .tndRingHi _ => false
  | .tndConsLo _ => false
  | .tndConsHi _ => false
  | .tndWmA _ => false
  | .tndWmB _ => false
  | .tndFallback _ => false
  | .tndLimit _ => false
  | .tndState _ => false
  | .tndStatus _ => false
  | .tndFill _ => false
  | .tndPosLo _ => false
  | .tndPosHi _ => false
  | .tndLanded _ => true
  | .tndUnderruns _ => true
  | .tndSkipped _ => true
  | .tndGapLast _ => false
  | .tndGapTotal _ => true
  | .tndDiscarded _ => true
  | .outCtrl _ => false
  | .outState _ => false
  | .outStatus _ => false
  | .outDark _ => false
  | .outMkDelay _ => false
  | .outDiscard _ => true
  | .outDarknGran _ => true
  | .outCell _ => false
  | .biasCommon _ => false
  | .biasCtrl _ => false
  | .biasLevel _ => false
  | .biasSlew _ => false
  | .biasClampLo _ => false
  | .biasClampHi _ => false
  | .biasNow _ => true
  | .biasPaddr _ => false
  | .biasPdata _ => false
  | .biasQfill _ => false
  | .biasStatus _ => false
  | .biasClamped _ => false
  | .lookCtrl _ => false
  | .lookThr _ => false
  | .lookThrB _ => false
  | .lookBiasThr _ => false
  | .lookStatus _ => false
  | .lookSkipped _ => true
  | .lookMean _ => false
  | .lookRms _ => false
  | .lookCell _ => false
  | .lookBias _ => false
  | .merCtrl _ => false
  | .merState _ => false
  | .merStatus _ => false
  | .merDpll _ => false
  | .merSlew _ => false
  | .merRefOffset _ => false
  | .merDpllCmd _ => false
  | .merSfreq _ => false
  | .merApply _ => false
  | .merOut _ _ => false
  | .merSyncCtrl _ => false
  | .merSyncLat _ => false
  | .merSyncComp _ => false
  | .merEchoDly _ => false
  | .merSyncDev _ => false
  | .merSyncFine _ => false
  | .merSyncStampLo _ => false
  | .merSyncStampHi _ => false
  | .merTwinCal _ _ => false
  | .merTwinBad _ => false
  | .merSel _ => false
  | .merFov _ => true
  | .merFovTimeLo _ => false
  | .merFovTimeHi _ => false
  | .merLight _ => false
  | .merBall _ _ => false
  | .trnCtrl => false
  | .trnStatus _ => false
  | .trnCal _ => false
  | .trnStuck0 _ => false
  | .trnStuck1 _ => false
  | .trnNowLo _ => false
  | .trnNowHi _ => false
  | .trnLogCtrl => false
  | .trnLogWr => false
  | .trnLogRd => false
  | .trnLogDrop => true
  | .trnPort _ => false
  | .trnInCtrl _ => false
  | .trnInStuck _ => false
  | .trnInOff _ _ => false
  | .trnInMissed _ _ => true
  | .trnInLast _ _ _ => false
  | .trnTiLevel _ => false
  | .eng _ _ .ctrl => false
  | .eng _ _ .n => false
  | .eng _ _ .timeout => false
  | .eng _ _ .status => false
  | .eng _ _ .pLo => false
  | .eng _ _ .pHi => false
  | .eng _ _ .t0Lo => false
  | .eng _ _ .t0Hi => false
  | .eng _ _ .count => true
  | .eng _ _ .unres => true
  | .eng _ _ .order => true
  | .eng _ _ .other => true
  | .eng _ _ .meanLo => true
  | .eng _ _ .meanHi => true
  | .eng _ _ .sd => true
  | .eng _ _ .minLo => true
  | .eng _ _ .minHi => true
  | .eng _ _ .maxLo => true
  | .eng _ _ .maxHi => true
  | .bcnStatus => false
  | .bcnInject => false
  | .bcnDropOff => true
  | .bcnLegTimeout => true
  | .bcnLoop => false
  | .bcnInflight _ => false
  | .bcnChOvr _ => true
  | .bcnEngMerged _ => true
  | .bcnCons _ => false
  | .bcnConsStat _ => false
  | .bcnConsOvr _ => true
  | .bcnConsMerged _ => true
  | .bcnTmrCtrl _ => false
  | .bcnTmrDelay _ => false
  | .bcnTmrMinp _ => false
  | .bcnEvout _ => false
  | .bcnSrc _ => false
  | .kprCtrl _ => false
  | .kprState _ => false
  | .kprStatus _ => false
  | .kprFault _ => false
  | .kprAbandons _ => true
  | .kprRestarts _ => true
  | .kprCorr _ => true
  | .kprImage _ => false
  | .kprBind _ _ => false
  | .kprPub _ _ => false
  | .kprShadow _ => false
  | .kprShdStatus _ => false
  | .kprShdCount _ => true
  | .oryState _ => false
  | .oryStatus _ => false
  | .oryCorr _ => true
  | .oryRecoveries _ => true
  | .oryRecovGran _ => true
  | .oryFault _ => false
  | .moorCfg _ => false
  | .moorMap _ => false
  | .moorStatus _ => false
  | .moorWq _ => false
  | .moorRef _ => false
  | .moorMig _ => false
  | .moorScrub _ => false
  | .moorSr _ => false
  | .moorFreq _ => false
  | .moorPoison _ => true
  | .moorLateGran _ => true
  | .moorScrubMismatch _ => true
  | .moorSrAborts _ => true
  | .moorMigWm _ => false
  | .moorQos _ _ => false
  | .mpState _ _ => false
  | .mpStatus _ _ => false
  | .mpOwed _ _ => false
  | .mpCapar _ _ => true
  | .mpEdc _ _ => true
  | .mpUncorr _ _ => true
  | .mpUrgent _ _ => true
  | .mpNbr _ _ => true
  | .mpAge _ _ => false
  | .mpTs0 _ _ _ => false
  | .mpTs1 _ _ _ => false
  | .mpTs2 _ _ _ => false
  | .mpTs3 _ _ _ => false
  | .mpTs4 _ _ _ => false
  | .mpTs5 _ _ _ => false
  | .pbCtrl _ => false
  | .pbStatus _ => false
  | .pbbState _ _ => false
  | .pbbCorr _ _ => true
  | .pbbUncorr _ _ => true
  | .pbbCollide _ _ => true
  | .pbbRestores _ _ => true
  | .pbbSkipped _ _ => true
  | .pbbPasses _ _ => true
  | .pbbLast _ _ => false
  | .hstCtrl _ => false
  | .hstLink _ => false
  | .hstStatus _ => false
  | .hstAsyncDrop _ => true
  | .hstVroute _ => false
  | .hstTxn => false
  | .hstDring _ _ => false
  | .hstRring _ _ => false
  | .glob .gId => false
  | .glob .gRev => false
  | .glob .serialLo => false
  | .glob .serialHi => false
  | .glob .gFunc => false
  | .glob .gStart => false
  | .glob .gEpoch => false
  | .glob .snapMax => false
  | .glob .dbLo => false
  | .glob .dbHi => false
  | .glob .dring0Lo => false
  | .glob .dring0Hi => false
  | .glob .dring0Cfg => false
  | .glob .rring0Lo => false
  | .glob .rring0Hi => false
  | .glob .rring0Cfg => false
  | .glob .rring0Coal => false
  | .glob .regStatus => false
  | .glob .violAddr => false
  | .glob .parityAddr => false
  | .glob .lockedWr => true
  | .glob (.featOffer _) => false
  | .glob (.featAccept _) => false
  | .glob (.voteCorr _) => true
  | .glob (.parityErr _) => true
  | .ext .pwrCtrl => false
  | .ext .pwrState => false
  | .ext .pwrStatus => false
  | .ext .pwrSaveA => false
  | .ext .pwrSaveB => false
  | .ext .pwrExcl => false
  | .ext .ledgCtrl => false
  | .ext .ledgStatus => false
  | .ext .ledgStart => false
  | .ext .ledgStepsLo => false
  | .ext .ledgStepsHi => false
  | .ext .ledgAlt => false
  | .ext .availCond => true
  | .ext .availLapses => true
  | .ext .secStatus => false
  | .ext .secFloors => false
  | .ext .secOwnerFloor => false
  | .ext .secHatch => false
  | .ext .telCase => true
  | .ext (.pwrDom _) => false
  | .ext (.secOwnerHash _) => false
  | .ext (.secAttHash _) => false
  | .ext (.secAttKey _) => false
  | .ext (.telDie _) => true
  | .ext (.telRail _) => true
  | .snapStatus => false
  | .snapTLo => false
  | .snapTHi => false

/-- An array of `n` registers from `start`, `stride` bytes apart: the one at offset `x`. -/
def regArray (n start stride x : Nat) (f : Fin n → Reg) : Option Reg :=
  if h : start ≤ x ∧ (x - start) % stride = 0 ∧ (x - start) / stride < n then some (f ⟨(x - start) / stride, h.2.2⟩) else none

/-- A block repeated `n` times from `start`, `stride` bytes apart: the instance and the offset within it. -/
def blockAt (n start stride x : Nat) (f : Fin n → Nat → Option Reg) : Option Reg :=
  if h : start ≤ x ∧ (x - start) / stride < n then f ⟨(x - start) / stride, h.2⟩ ((x - start) % stride) else none

/-- The register at offset `x` of the block. -/
def Reg.charAt (c : ChanId) (x : Nat) : Option Reg :=
  List.lookup x [(0x0, .charCtrl c), (0x4, .charTable c), (0x8, .charSwap c), (0xc, .charPos c), (0x10, .charIter c), (0x14, .charGoff c), (0x18, .charPlayedLo c), (0x1c, .charPlayedHi c), (0x20, .charLead c), (0x24, .charStatus c), (0x28, .charFault c), (0x2c, .charPrimeGap c), (0x30, .charSegLost c), (0x34, .charForever c)]
  <|> regArray 8 0x40 4 x (fun k => .charFrame c k)

/-- The register at offset `x` of the block. -/
def Reg.jmpAt (c : ChanId) (x : Nat) : Option Reg :=
  List.lookup x [(0x0, .jmpCtrl c), (0x4, .jmpGroup c), (0x8, .jmpStatus c), (0xc, .jmpPend c), (0x10, .jmpPendGc c), (0x14, .jmpLast c), (0x18, .jmpLastSrc c), (0x1c, .jmpLastReg c), (0x20, .jmpLastGc c), (0x24, .jmpTaken c), (0x28, .jmpDropped c), (0x2c, .jmpUnmatched c), (0x30, .jmpDegraded c), (0x34, .jmpLate c), (0x38, .jmpIgnored c)]
  <|> regArray 8 0x40 4 x (fun k => .jmpReady c k)
  <|> regArray 32 0x100 16 x (fun k => .winOpen c k)
  <|> regArray 32 0x104 16 x (fun k => .winClose c k)
  <|> regArray 32 0x108 16 x (fun k => .winDelay c k)

/-- The register at offset `x` of the block. -/
def Reg.lantAt (c : ChanId) (x : Nat) : Option Reg :=
  List.lookup x [(0x0, .lantCtrl c), (0x4, .lantStatus c), (0x8, .lantSat c), (0xc, .lantTrim c), (0x10, .lantPoff c), (0x14, .lantDdsAmp c), (0x18, .lantNco c), (0x1c, .lantLatency c), (0x20, .lantRateLo c), (0x24, .lantRateHi c)]
  <|> regArray 8 0x40 8 x (fun k => .lantSecFreqLo c k)
  <|> regArray 8 0x44 8 x (fun k => .lantSecFreqHi c k)
  <|> regArray 8 0x80 4 x (fun k => .lantSecPhase c k)
  <|> regArray 11 0xc0 4 x (fun k => .lantHb c k)
  <|> regArray 32 0x100 4 x (fun j => .lantCurve c j)

/-- The register at offset `x` of the block. -/
def Reg.outAt (c : ChanId) (x : Nat) : Option Reg :=
  List.lookup x [(0x0, .outCtrl c), (0x4, .outState c), (0x8, .outStatus c), (0xc, .outDark c), (0x10, .outMkDelay c), (0x14, .outDiscard c), (0x18, .outDarknGran c), (0x1c, .outCell c)]

/-- The register at offset `x` of the block. -/
def Reg.oryAt (c : ChanId) (x : Nat) : Option Reg :=
  List.lookup x [(0x0, .oryState c), (0x4, .oryStatus c), (0x8, .oryCorr c), (0xc, .oryRecoveries c), (0x10, .oryRecovGran c), (0x14, .oryFault c)]

/-- The register at offset `x` of the block. -/
def Reg.biasCommonAt (n : LampId) (x : Nat) : Option Reg :=
  List.lookup x [(0x0, .biasCommon n)]

/-- The register at offset `x` of the block. -/
def Reg.biasLineAt (b : BiasId) (x : Nat) : Option Reg :=
  List.lookup x [(0x0, .biasCtrl b), (0x4, .biasLevel b), (0x8, .biasSlew b), (0xc, .biasClampLo b), (0x10, .biasClampHi b), (0x14, .biasNow b), (0x18, .biasPaddr b), (0x1c, .biasPdata b), (0x20, .biasQfill b), (0x24, .biasStatus b), (0x28, .biasClamped b)]

/-- The register at offset `x` of the block. -/
def Reg.lookAt (n : LampId) (x : Nat) : Option Reg :=
  List.lookup x [(0x0, .lookCtrl n), (0x4, .lookThr n), (0x8, .lookThrB n), (0xc, .lookBiasThr n), (0x10, .lookStatus n), (0x14, .lookSkipped n)]

/-- The register at offset `x` of the block. -/
def Reg.merAt (m : MerId) (x : Nat) : Option Reg :=
  List.lookup x [(0x0, .merCtrl m), (0x4, .merState m), (0x8, .merStatus m), (0xc, .merDpll m), (0x10, .merSlew m), (0x14, .merRefOffset m), (0x18, .merDpllCmd m), (0x1c, .merSfreq m), (0x20, .merApply m), (0x80, .merSyncCtrl m), (0x84, .merSyncLat m), (0x88, .merSyncComp m), (0x8c, .merEchoDly m), (0x90, .merSyncDev m), (0x94, .merSyncFine m), (0x98, .merSyncStampLo m), (0x9c, .merSyncStampHi m), (0xb0, .merTwinBad m), (0xb4, .merSel m), (0xb8, .merFov m), (0xbc, .merFovTimeLo m), (0xc0, .merFovTimeHi m), (0xc4, .merLight m)]
  <|> regArray 12 0x40 4 x (fun k => .merOut m k)
  <|> regArray 4 0xa0 4 x (fun n => .merTwinCal m n)
  <|> regArray 16 0xd0 4 x (fun c => .merBall m c)

/-- The register at offset `x` of the block. -/
def Reg.extAt  (x : Nat) : Option Reg :=
  List.lookup x [(0x800, .ext .pwrCtrl), (0x804, .ext .pwrState), (0x808, .ext .pwrStatus), (0x80c, .ext .pwrSaveA), (0x810, .ext .pwrSaveB), (0x814, .ext .pwrExcl), (0x840, .ext .ledgCtrl), (0x844, .ext .ledgStatus), (0x848, .ext .ledgStart), (0x84c, .ext .ledgStepsLo), (0x850, .ext .ledgStepsHi), (0x854, .ext .ledgAlt), (0x900, .ext .availCond), (0x904, .ext .availLapses), (0xa00, .ext .secStatus), (0xa04, .ext .secFloors), (0xa08, .ext .secOwnerFloor), (0xa0c, .ext .secHatch), (0xb20, .ext .telCase)]
  <|> regArray 5 0x820 4 x (fun j => .ext (.pwrDom j))
  <|> regArray 16 0xa40 4 x (fun k => .ext (.secOwnerHash k))
  <|> regArray 16 0xa80 4 x (fun k => .ext (.secAttHash k))
  <|> regArray 128 0xc00 4 x (fun k => .ext (.secAttKey k))
  <|> regArray 8 0xb00 4 x (fun die => .ext (.telDie die))
  <|> regArray 12 0xb40 4 x (fun j => .ext (.telRail j))

/-- The register at offset `x` of the block. -/
def Reg.trnAt (m : MerId) (x : Nat) : Option Reg :=
  List.lookup x [(0x4, .trnStatus m), (0x8, .trnCal m), (0xc, .trnStuck0 m), (0x10, .trnStuck1 m), (0x14, .trnNowLo m), (0x18, .trnNowHi m)]
  <|> regArray 64 0x108 16 x (fun k => .trnInOff m k)
  <|> regArray 64 0x10c 16 x (fun k => .trnInMissed m k)
  <|> blockAt 8 0x1000 0x80 x (fun e y => List.lookup y [(0x0, .eng m e .ctrl), (0x4, .eng m e .n), (0x8, .eng m e .timeout), (0xc, .eng m e .status), (0x10, .eng m e .pLo), (0x14, .eng m e .pHi), (0x18, .eng m e .t0Lo), (0x1c, .eng m e .t0Hi), (0x20, .eng m e .count), (0x24, .eng m e .unres), (0x28, .eng m e .order), (0x2c, .eng m e .other), (0x30, .eng m e .meanLo), (0x34, .eng m e .meanHi), (0x38, .eng m e .sd), (0x3c, .eng m e .minLo), (0x40, .eng m e .minHi), (0x44, .eng m e .maxLo), (0x48, .eng m e .maxHi)])
  <|> blockAt 64 0x500 16 x (fun k y => regArray 4 0 4 y (.trnInLast m k))

/-- The register at offset `x` of the block. -/
def Reg.trnSharedAt  (x : Nat) : Option Reg :=
  List.lookup x [(0x0, .trnCtrl), (0x20, .trnLogCtrl), (0x24, .trnLogWr), (0x28, .trnLogRd), (0x2c, .trnLogDrop)]
  <|> regArray 16 0x40 4 x (fun p => .trnPort p)
  <|> regArray 64 0x100 16 x (fun k => .trnInCtrl k)
  <|> regArray 64 0x104 16 x (fun k => .trnInStuck k)
  <|> regArray 8 0x900 4 x (fun j => .trnTiLevel j)

/-- The register at offset `x` of the block. -/
def Reg.tndAt (st : StreamId) (x : Nat) : Option Reg :=
  List.lookup x [(0x0, .tndCtrl st), (0x4, .tndRegion st), (0x8, .tndRingLo st), (0xc, .tndRingHi st), (0x10, .tndConsLo st), (0x14, .tndConsHi st), (0x18, .tndWmA st), (0x1c, .tndWmB st), (0x20, .tndFallback st), (0x24, .tndLimit st), (0x28, .tndState st), (0x2c, .tndStatus st), (0x30, .tndFill st), (0x34, .tndPosLo st), (0x38, .tndPosHi st), (0x3c, .tndLanded st), (0x40, .tndUnderruns st), (0x44, .tndSkipped st), (0x48, .tndGapLast st), (0x4c, .tndGapTotal st), (0x50, .tndDiscarded st)]

/-- The register at offset `x` of the block. -/
def Reg.kprAt (k : KeeperId) (x : Nat) : Option Reg :=
  List.lookup x [(0x0, .kprCtrl k), (0x4, .kprState k), (0x8, .kprStatus k), (0xc, .kprFault k), (0x10, .kprAbandons k), (0x14, .kprRestarts k), (0x18, .kprCorr k), (0x1c, .kprImage k), (0xc0, .kprShadow k), (0xc4, .kprShdStatus k), (0xc8, .kprShdCount k)]
  <|> regArray 16 0x40 4 x (fun i => .kprBind k i)
  <|> regArray 16 0x80 4 x (fun p => .kprPub k p)

/-- The register at offset `x` of the block. -/
def Reg.moorAt (d : DomeId) (x : Nat) : Option Reg :=
  List.lookup x [(0x0, .moorCfg d), (0x4, .moorMap d), (0x8, .moorStatus d), (0xc, .moorWq d), (0x10, .moorRef d), (0x14, .moorMig d), (0x18, .moorScrub d), (0x1c, .moorSr d), (0x20, .moorFreq d), (0x24, .moorPoison d), (0x28, .moorLateGran d), (0x2c, .moorScrubMismatch d), (0x30, .moorSrAborts d), (0x34, .moorMigWm d)]
  <|> regArray 5 0x40 4 x (fun q => .moorQos d q)

/-- The register at offset `x` of the block. -/
def Reg.mpAt (d : DomeId) (p : PortId) (x : Nat) : Option Reg :=
  List.lookup x [(0x0, .mpState d p), (0x4, .mpStatus d p), (0x8, .mpOwed d p), (0xc, .mpCapar d p), (0x10, .mpEdc d p), (0x14, .mpUncorr d p), (0x18, .mpUrgent d p), (0x1c, .mpNbr d p), (0x20, .mpAge d p)]
  <|> regArray 2 0x40 32 x (fun x => .mpTs0 d p x)
  <|> regArray 2 0x44 32 x (fun x => .mpTs1 d p x)
  <|> regArray 2 0x48 32 x (fun x => .mpTs2 d p x)
  <|> regArray 2 0x4c 32 x (fun x => .mpTs3 d p x)
  <|> regArray 2 0x50 32 x (fun x => .mpTs4 d p x)
  <|> regArray 2 0x54 32 x (fun x => .mpTs5 d p x)

/-- The register at offset `x` of the block. -/
def Reg.pbAt (d : DomeId) (x : Nat) : Option Reg :=
  List.lookup x [(0x0, .pbCtrl d), (0x4, .pbStatus d)]

/-- The register at offset `x` of the block. -/
def Reg.pbBankAt (d : DomeId) (b : BankId) (x : Nat) : Option Reg :=
  List.lookup x [(0x0, .pbbState d b), (0x4, .pbbCorr d b), (0x8, .pbbUncorr d b), (0xc, .pbbCollide d b), (0x10, .pbbRestores d b), (0x14, .pbbSkipped d b), (0x18, .pbbPasses d b), (0x1c, .pbbLast d b)]

/-- The register at offset `x` of the block. -/
def Reg.hstAt (d : DomeId) (x : Nat) : Option Reg :=
  List.lookup x [(0x0, .hstCtrl d), (0x4, .hstLink d), (0x8, .hstStatus d), (0xc, .hstAsyncDrop d)]
  <|> regArray 64 0x100 4 x (fun r => .hstDring d r)
  <|> regArray 64 0x200 4 x (fun r => .hstRring d r)

/-- The register at offset `x` of the block. -/
def Reg.hstSharedAt  (x : Nat) : Option Reg :=
  List.lookup x [(0x20, .hstTxn)]
  <|> regArray 4 0x10 4 x (fun q => .hstVroute q)

/-- The register at offset `x` of the block. -/
def Reg.bcnAt  (x : Nat) : Option Reg :=
  List.lookup x [(0x0, .bcnStatus), (0x4, .bcnInject), (0x8, .bcnDropOff), (0xc, .bcnLegTimeout), (0x10, .bcnLoop)]
  <|> regArray 8 0x80 4 x (fun k => .bcnInflight k)
  <|> regArray 256 0x100 4 x (fun ch => .bcnChOvr ch)
  <|> regArray 16 0x500 4 x (fun c => .bcnEngMerged c)
  <|> regArray 212 0x1000 16 x (fun i => .bcnCons i)
  <|> regArray 212 0x1004 16 x (fun i => .bcnConsStat i)
  <|> regArray 212 0x1008 16 x (fun i => .bcnConsOvr i)
  <|> regArray 212 0x100c 16 x (fun i => .bcnConsMerged i)
  <|> regArray 4 0x2000 16 x (fun t => .bcnTmrCtrl t)
  <|> regArray 4 0x2004 16 x (fun t => .bcnTmrDelay t)
  <|> regArray 4 0x2008 16 x (fun t => .bcnTmrMinp t)
  <|> regArray 8 0x2100 4 x (fun j => .bcnEvout j)
  <|> regArray 640 0x4000 4 x (fun sr => .bcnSrc sr)

/-- The register at offset `x` of the block. -/
def Reg.globalAt  (x : Nat) : Option Reg :=
  List.lookup x [(0x0, .glob .gId), (0x4, .glob .gRev), (0x8, .glob .serialLo), (0xc, .glob .serialHi), (0x10, .glob .gFunc), (0x14, .glob .gStart), (0x18, .glob .gEpoch), (0x1c, .glob .snapMax), (0x80, .glob .dbLo), (0x84, .glob .dbHi), (0x90, .glob .dring0Lo), (0x94, .glob .dring0Hi), (0x98, .glob .dring0Cfg), (0xa0, .glob .rring0Lo), (0xa4, .glob .rring0Hi), (0xa8, .glob .rring0Cfg), (0xac, .glob .rring0Coal), (0xc0, .glob .regStatus), (0xc4, .glob .violAddr), (0xc8, .glob .parityAddr), (0xcc, .glob .lockedWr)]
  <|> regArray 8 0x40 4 x (fun k => .glob (.featOffer k))
  <|> regArray 8 0x60 4 x (fun k => .glob (.featAccept k))
  <|> regArray 8 0x100 4 x (fun die => .glob (.voteCorr die))
  <|> regArray 8 0x120 4 x (fun die => .glob (.parityErr die))

/-- The register at offset `x` of the block. -/
def Reg.snapHeaderAt  (x : Nat) : Option Reg :=
  List.lookup x [(0x0, .snapStatus), (0x4, .snapTLo), (0x8, .snapTHi)]

/-- The register at offset `x` of a MERID window. The always-on block and the shared Transit set-up answer in both windows. -/
def Reg.meridAt (m : MerId) (x : Nat) : Option Reg :=
  if x < 0x10000 then Reg.merAt m x <|> Reg.extAt x else Reg.trnAt m (x - 0x10000) <|> Reg.trnSharedAt (x - 0x10000)

/-- The register at offset `x` of a DOME window (R368). -/
def Reg.domeAt (d : DomeId) (x : Nat) : Option Reg :=
  if x < 0x70000 then blockAt 8 0x60000 0x100 x (fun i y => Reg.tndAt (streamOfDome d i) y)
  else if x < 0x80000 then blockAt 2 0x70000 0x1000 x (fun i y => Reg.kprAt (keeperOfDome d i) y)
  else if x < 0x81000 then Reg.moorAt d (x - 0x80000)
  else if x < 0x90000 then blockAt 5 0x81000 0x1000 x (fun p y => Reg.mpAt d p y)
  else if x < 0x90100 then Reg.pbAt d (x - 0x90000)
  else if x < 0xA0000 then blockAt 6 0x90100 0x20 x (fun b y => Reg.pbBankAt d b y)
  else Reg.hstAt d (x - 0xA0000) <|> Reg.hstSharedAt (x - 0xA0000)

/-- The register at offset `x` of a LAMP window (R368). -/
def Reg.lampAt (n : LampId) (x : Nat) : Option Reg :=
  if x < 0x30000 then blockAt 4 0x20000 0x1000 x (fun i y =>
    if y < 0x800 then Reg.charAt (chanOfLamp n i) y else Reg.jmpAt (chanOfLamp n i) (y - 0x800))
  else if x < 0x40000 then blockAt 4 0x30000 0x1000 x (fun i y => Reg.lantAt (chanOfLamp n i) y)
  else if x < 0x50000 then blockAt 4 0x40000 0x1000 x (fun i y => Reg.outAt (chanOfLamp n i) y)
  else if x < 0x60000 then
    (if x < 0x50100 then Reg.biasCommonAt n (x - 0x50000) else blockAt 8 0x50100 0x40 x (fun i y => Reg.biasLineAt (biasOfLamp n i) y))
  else if x < 0x70000 then Reg.lookAt n (x - 0x60000)
    <|> regArray 4 0x60040 8 x (fun i => .lookMean (chanOfLamp n i)) <|> regArray 4 0x60044 8 x (fun i => .lookRms (chanOfLamp n i))
    <|> regArray 4 0x60060 4 x (fun i => .lookCell (chanOfLamp n i)) <|> regArray 8 0x60080 4 x (fun i => .lookBias (biasOfLamp n i))
  else blockAt 4 0x70000 0x100 x (fun i y => Reg.oryAt (chanOfLamp n i) y)

/-- The register a BAR0 offset names (R368, R369): none where the offset names no register of its window. -/
def Reg.ofAddr? (x : Nat) : Option Reg :=
  if x < 0x100000 then Reg.globalAt x
  else if x < 0x180000 then Reg.meridAt 0 (x - 0x100000)
  else if x < 0x200000 then Reg.meridAt 1 (x - 0x180000)
  else if x < 0x300000 then Reg.domeAt 0 (x - 0x200000)
  else if x < 0x400000 then Reg.domeAt 1 (x - 0x300000)
  else if x < 0x800000 then blockAt 4 0x400000 0x100000 x Reg.lampAt
  else if x < 0xA00000 then Reg.bcnAt (x - 0x800000)
  else if 0xF00000 ≤ x ∧ x < 0x1000000 then Reg.snapHeaderAt (x - 0xF00000)
  else none

/-- Every register of one instance of a block. -/
def Reg.allCHAR (c : ChanId) : List Reg :=
  List.flatten [[.charCtrl c, .charTable c, .charSwap c, .charPos c, .charIter c, .charGoff c, .charPlayedLo c, .charPlayedHi c, .charLead c, .charStatus c, .charFault c, .charPrimeGap c, .charSegLost c, .charForever c],
    (List.finRange 8).map (fun k => .charFrame c k)]

/-- Every register of one instance of a block. -/
def Reg.allJMP (c : ChanId) : List Reg :=
  List.flatten [[.jmpCtrl c, .jmpGroup c, .jmpStatus c, .jmpPend c, .jmpPendGc c, .jmpLast c, .jmpLastSrc c, .jmpLastReg c, .jmpLastGc c, .jmpTaken c, .jmpDropped c, .jmpUnmatched c, .jmpDegraded c, .jmpLate c, .jmpIgnored c],
    (List.finRange 8).map (fun k => .jmpReady c k),
    (List.finRange 32).map (fun k => .winOpen c k),
    (List.finRange 32).map (fun k => .winClose c k),
    (List.finRange 32).map (fun k => .winDelay c k)]

/-- Every register of one instance of a block. -/
def Reg.allLANT (c : ChanId) : List Reg :=
  List.flatten [[.lantCtrl c, .lantStatus c, .lantSat c, .lantTrim c, .lantPoff c, .lantDdsAmp c, .lantNco c, .lantLatency c, .lantRateLo c, .lantRateHi c],
    (List.finRange 8).map (fun k => .lantSecFreqLo c k),
    (List.finRange 8).map (fun k => .lantSecFreqHi c k),
    (List.finRange 8).map (fun k => .lantSecPhase c k),
    (List.finRange 11).map (fun k => .lantHb c k),
    (List.finRange 32).map (fun j => .lantCurve c j)]

/-- Every register of one instance of a block. -/
def Reg.allOUT (c : ChanId) : List Reg :=
  [.outCtrl c, .outState c, .outStatus c, .outDark c, .outMkDelay c, .outDiscard c, .outDarknGran c, .outCell c]

/-- Every register of one instance of a block. -/
def Reg.allORY (c : ChanId) : List Reg :=
  [.oryState c, .oryStatus c, .oryCorr c, .oryRecoveries c, .oryRecovGran c, .oryFault c]

/-- Every register of one instance of a block. -/
def Reg.allBIASC (n : LampId) : List Reg :=
  [.biasCommon n]

/-- Every register of one instance of a block. -/
def Reg.allBIAS (b : BiasId) : List Reg :=
  [.biasCtrl b, .biasLevel b, .biasSlew b, .biasClampLo b, .biasClampHi b, .biasNow b, .biasPaddr b, .biasPdata b, .biasQfill b, .biasStatus b, .biasClamped b]

/-- Every register of one instance of a block. -/
def Reg.allLOOK (n : LampId) : List Reg :=
  [.lookCtrl n, .lookThr n, .lookThrB n, .lookBiasThr n, .lookStatus n, .lookSkipped n]

/-- Every register of one instance of a block. -/
def Reg.allLOOKC (c : ChanId) : List Reg :=
  [.lookMean c, .lookRms c, .lookCell c]

/-- Every register of one instance of a block. -/
def Reg.allLOOKB (b : BiasId) : List Reg :=
  [.lookBias b]

/-- Every register of one instance of a block. -/
def Reg.allMER (m : MerId) : List Reg :=
  List.flatten [[.merCtrl m, .merState m, .merStatus m, .merDpll m, .merSlew m, .merRefOffset m, .merDpllCmd m, .merSfreq m, .merApply m, .merSyncCtrl m, .merSyncLat m, .merSyncComp m, .merEchoDly m, .merSyncDev m, .merSyncFine m, .merSyncStampLo m, .merSyncStampHi m, .merTwinBad m, .merSel m, .merFov m, .merFovTimeLo m, .merFovTimeHi m, .merLight m],
    (List.finRange 12).map (fun k => .merOut m k),
    (List.finRange 4).map (fun n => .merTwinCal m n),
    (List.finRange 16).map (fun c => .merBall m c)]

/-- Every register of one instance of a block. -/
def Reg.allEXT : List Reg :=
  List.flatten [[.ext .pwrCtrl, .ext .pwrState, .ext .pwrStatus, .ext .pwrSaveA, .ext .pwrSaveB, .ext .pwrExcl, .ext .ledgCtrl, .ext .ledgStatus, .ext .ledgStart, .ext .ledgStepsLo, .ext .ledgStepsHi, .ext .ledgAlt, .ext .availCond, .ext .availLapses, .ext .secStatus, .ext .secFloors, .ext .secOwnerFloor, .ext .secHatch, .ext .telCase],
    (List.finRange 5).map (fun j => .ext (.pwrDom j)),
    (List.finRange 16).map (fun k => .ext (.secOwnerHash k)),
    (List.finRange 16).map (fun k => .ext (.secAttHash k)),
    (List.finRange 128).map (fun k => .ext (.secAttKey k)),
    (List.finRange 8).map (fun die => .ext (.telDie die)),
    (List.finRange 12).map (fun j => .ext (.telRail j))]

/-- Every register of one instance of a block. -/
def Reg.allTRN (m : MerId) : List Reg :=
  List.flatten [[.trnStatus m, .trnCal m, .trnStuck0 m, .trnStuck1 m, .trnNowLo m, .trnNowHi m],
    (List.finRange 64).map (fun k => .trnInOff m k),
    (List.finRange 64).map (fun k => .trnInMissed m k),
    (List.finRange 64).flatMap (fun k => (List.finRange 4).map (fun w => .trnInLast m k w)),
    (List.finRange 8).flatMap (fun e => [.eng m e .ctrl, .eng m e .n, .eng m e .timeout, .eng m e .status, .eng m e .pLo, .eng m e .pHi, .eng m e .t0Lo, .eng m e .t0Hi, .eng m e .count, .eng m e .unres, .eng m e .order, .eng m e .other, .eng m e .meanLo, .eng m e .meanHi, .eng m e .sd, .eng m e .minLo, .eng m e .minHi, .eng m e .maxLo, .eng m e .maxHi])]

/-- Every register of one instance of a block. -/
def Reg.allTRNS : List Reg :=
  List.flatten [[.trnCtrl, .trnLogCtrl, .trnLogWr, .trnLogRd, .trnLogDrop],
    (List.finRange 16).map (fun p => .trnPort p),
    (List.finRange 64).map (fun k => .trnInCtrl k),
    (List.finRange 64).map (fun k => .trnInStuck k),
    (List.finRange 8).map (fun j => .trnTiLevel j)]

/-- Every register of one instance of a block. -/
def Reg.allTND (st : StreamId) : List Reg :=
  [.tndCtrl st, .tndRegion st, .tndRingLo st, .tndRingHi st, .tndConsLo st, .tndConsHi st, .tndWmA st, .tndWmB st, .tndFallback st, .tndLimit st, .tndState st, .tndStatus st, .tndFill st, .tndPosLo st, .tndPosHi st, .tndLanded st, .tndUnderruns st, .tndSkipped st, .tndGapLast st, .tndGapTotal st, .tndDiscarded st]

/-- Every register of one instance of a block. -/
def Reg.allKPR (k : KeeperId) : List Reg :=
  List.flatten [[.kprCtrl k, .kprState k, .kprStatus k, .kprFault k, .kprAbandons k, .kprRestarts k, .kprCorr k, .kprImage k, .kprShadow k, .kprShdStatus k, .kprShdCount k],
    (List.finRange 16).map (fun i => .kprBind k i),
    (List.finRange 16).map (fun p => .kprPub k p)]

/-- Every register of one instance of a block. -/
def Reg.allMOOR (d : DomeId) : List Reg :=
  List.flatten [[.moorCfg d, .moorMap d, .moorStatus d, .moorWq d, .moorRef d, .moorMig d, .moorScrub d, .moorSr d, .moorFreq d, .moorPoison d, .moorLateGran d, .moorScrubMismatch d, .moorSrAborts d, .moorMigWm d],
    (List.finRange 5).map (fun q => .moorQos d q)]

/-- Every register of one instance of a block. -/
def Reg.allMP (d : DomeId) (p : PortId) : List Reg :=
  List.flatten [[.mpState d p, .mpStatus d p, .mpOwed d p, .mpCapar d p, .mpEdc d p, .mpUncorr d p, .mpUrgent d p, .mpNbr d p, .mpAge d p],
    (List.finRange 2).map (fun x => .mpTs0 d p x),
    (List.finRange 2).map (fun x => .mpTs1 d p x),
    (List.finRange 2).map (fun x => .mpTs2 d p x),
    (List.finRange 2).map (fun x => .mpTs3 d p x),
    (List.finRange 2).map (fun x => .mpTs4 d p x),
    (List.finRange 2).map (fun x => .mpTs5 d p x)]

/-- Every register of one instance of a block. -/
def Reg.allPB (d : DomeId) : List Reg :=
  [.pbCtrl d, .pbStatus d]

/-- Every register of one instance of a block. -/
def Reg.allPBB (d : DomeId) (b : BankId) : List Reg :=
  [.pbbState d b, .pbbCorr d b, .pbbUncorr d b, .pbbCollide d b, .pbbRestores d b, .pbbSkipped d b, .pbbPasses d b, .pbbLast d b]

/-- Every register of one instance of a block. -/
def Reg.allHST (d : DomeId) : List Reg :=
  List.flatten [[.hstCtrl d, .hstLink d, .hstStatus d, .hstAsyncDrop d],
    (List.finRange 64).map (fun r => .hstDring d r),
    (List.finRange 64).map (fun r => .hstRring d r)]

/-- Every register of one instance of a block. -/
def Reg.allHSTS : List Reg :=
  List.flatten [[.hstTxn],
    (List.finRange 4).map (fun q => .hstVroute q)]

/-- Every register of one instance of a block. -/
def Reg.allBCN : List Reg :=
  List.flatten [[.bcnStatus, .bcnInject, .bcnDropOff, .bcnLegTimeout, .bcnLoop],
    (List.finRange 8).map (fun k => .bcnInflight k),
    (List.finRange 256).map (fun ch => .bcnChOvr ch),
    (List.finRange 16).map (fun c => .bcnEngMerged c),
    (List.finRange 212).map (fun i => .bcnCons i),
    (List.finRange 212).map (fun i => .bcnConsStat i),
    (List.finRange 212).map (fun i => .bcnConsOvr i),
    (List.finRange 212).map (fun i => .bcnConsMerged i),
    (List.finRange 4).map (fun t => .bcnTmrCtrl t),
    (List.finRange 4).map (fun t => .bcnTmrDelay t),
    (List.finRange 4).map (fun t => .bcnTmrMinp t),
    (List.finRange 8).map (fun j => .bcnEvout j),
    (List.finRange 640).map (fun sr => .bcnSrc sr)]

/-- Every register of one instance of a block. -/
def Reg.allGLB : List Reg :=
  List.flatten [[.glob .gId, .glob .gRev, .glob .serialLo, .glob .serialHi, .glob .gFunc, .glob .gStart, .glob .gEpoch, .glob .snapMax, .glob .dbLo, .glob .dbHi, .glob .dring0Lo, .glob .dring0Hi, .glob .dring0Cfg, .glob .rring0Lo, .glob .rring0Hi, .glob .rring0Cfg, .glob .rring0Coal, .glob .regStatus, .glob .violAddr, .glob .parityAddr, .glob .lockedWr],
    (List.finRange 8).map (fun k => .glob (.featOffer k)),
    (List.finRange 8).map (fun k => .glob (.featAccept k)),
    (List.finRange 8).map (fun die => .glob (.voteCorr die)),
    (List.finRange 8).map (fun die => .glob (.parityErr die))]

/-- Every register of one instance of a block. -/
def Reg.allSNAP : List Reg :=
  [.snapStatus, .snapTLo, .snapTHi]

/-- Every register of the map. -/
def Reg.all : List Reg := List.flatten [(List.finRange 16).flatMap (fun c => Reg.allCHAR c),
    (List.finRange 16).flatMap (fun c => Reg.allJMP c),
    (List.finRange 16).flatMap (fun c => Reg.allLANT c),
    (List.finRange 16).flatMap (fun c => Reg.allOUT c),
    (List.finRange 16).flatMap (fun c => Reg.allORY c),
    (List.finRange 4).flatMap (fun n => Reg.allBIASC n),
    (List.finRange 32).flatMap (fun b => Reg.allBIAS b),
    (List.finRange 4).flatMap (fun n => Reg.allLOOK n),
    (List.finRange 16).flatMap (fun c => Reg.allLOOKC c),
    (List.finRange 32).flatMap (fun b => Reg.allLOOKB b),
    (List.finRange 2).flatMap (fun m => Reg.allMER m),
    Reg.allEXT,
    (List.finRange 2).flatMap (fun m => Reg.allTRN m),
    Reg.allTRNS,
    (List.finRange 16).flatMap (fun st => Reg.allTND st),
    (List.finRange 4).flatMap (fun k => Reg.allKPR k),
    (List.finRange 2).flatMap (fun d => Reg.allMOOR d),
    (List.finRange 2).flatMap (fun d => (List.finRange 5).flatMap (fun p => Reg.allMP d p)),
    (List.finRange 2).flatMap (fun d => Reg.allPB d),
    (List.finRange 2).flatMap (fun d => (List.finRange 6).flatMap (fun b => Reg.allPBB d b)),
    (List.finRange 2).flatMap (fun d => Reg.allHST d),
    Reg.allHSTS,
    Reg.allBCN,
    Reg.allGLB,
    Reg.allSNAP]

end Sys2Proof.Machine
end

