-- ==== Sys2Proof/Machine/State.lean ====
section
/-! DEFINITION. The state of the CKV8816 as plain data, the state after reset, and the ways a step can stop. -/
namespace Sys2Proof.Machine
open Sys2Proof

/-! ### Characteristic tables and channels (spec 02_characteristics.md, 03_jumps_and_cutoffs.md) -/

/-- One characteristic entry: eight little-endian 64-bit words W0 to W7 (R41). -/
structure EntryWords where
  w0 : QWord
  w1 : QWord
  w2 : QWord
  w3 : QWord
  w4 : QWord
  w5 : QWord
  w6 : QWord
  w7 : QWord
deriving DecidableEq, Repr

/-- A table slot of PB1 (R36): its length in entries and the entries loaded, by index. An index not listed holds zeros. -/
structure Table where
  len     : Nat
  entries : List (Nat × EntryWords)
deriving DecidableEq, Repr

/-- States of a channel (R50). -/
inductive ChanState where
  | idle | priming | playing | ended | fault
deriving DecidableEq, Repr

/-- A loop frame (R48): passes remaining including the pass now running; `forever` for LOOP_COUNT 0. -/
structure Frame where
  remaining : Nat
  forever   : Bool
deriving DecidableEq, Repr

/-- Modes of a jump (R45). -/
inductive JumpMode where
  | boundary | granule | timed
deriving DecidableEq, Repr

/-- A pending jump (R93): what it will show in JMP_PEND and JMP_LAST, and the event that asked for it. `take` is the take point in output
samples of the channel; `atBoundary` marks a request that moves with the boundary that takes it (R79, R151); `regGc` is the granule its take point is reckoned from, `seenGc` the registration
granule JMP_LAST_REG shows: for a member of a group the leader's, which may lie before the member's start (R99, R103). -/
structure PendingJump where
  slot       : Fin 4
  mode       : JumpMode
  target     : Nat
  take       : Nat
  atBoundary : Bool
  regGc      : Int
  seenGc     : Int
  regVisit   : Nat
  source     : Nat
  channel    : BeaconCh
  group      : Bool
  late       : Bool
  degraded   : Bool
deriving DecidableEq, Repr

/-- A group order of R98 on its way to a member: the beacon channel, the take point in samples from UGC 0 and the leader's r_g in granules from there, and how the leader takes it. -/
structure GroupOrder where
  channel  : BeaconCh
  take     : Int
  rg       : Int
  mode     : JumpMode
  late     : Bool
  degraded : Bool
deriving DecidableEq, Repr

/-- The requests a channel has registered in one gc (R94): the gc, the request pending when it began, and those made in it, in slot order, with their beacon channels in them. -/
structure JumpBatch where
  gran   : Nat
  before : Option PendingJump
  made   : List PendingJump
deriving DecidableEq, Repr

/-- A group order that reached a member while it recovered (R282): the order and the granule of the unit's count at which it came. -/
structure MissedOrder where
  order : GroupOrder
  gran  : Nat
deriving DecidableEq, Repr

/-- A committed swap not yet taken (R40): `effect` is the commit's effect time u on the channel's granule count, and `entry` and `atEnd` are SWAP_ENTRY and SWAP_MODE as they stood there. -/
structure PendingSwap where
  effect : Nat
  atEnd  : Bool
  entry  : Nat
deriving DecidableEq, Repr

/-- A place of the ready list (R87 to R90): its entry, whether its head is held, and the stored bytes of the head in the ready buffer. -/
structure ReadyPlace where
  entry : Nat
  held  : Bool
  head  : List Byte
deriving DecidableEq, Repr

/-- A stretch of a visit whose iterations are of one length (R75, R91): its entry, its first sample, the sample after its last, and the samples of one iteration. A pause of R151 makes the iteration
it falls in a stretch of its own. -/
structure VisitSpan where
  entry : Nat
  start : Nat
  stop  : Nat
  iterS : Nat
deriving DecidableEq, Repr

/-- What a channel engine sends to its progress shadow (R54, R102, R279). Beside the three kinds of R279, the model lets a start, a swap and a stop at END be told to the shadow, with the table that plays
from there on, and the target of a jump (DEDUCED, log entry 37). -/
inductive ChanReport where
  | start (entry gran : Nat) (table : Table)
  | visit (entry iters granules : Nat)
  | jump (slot : Fin 4) (mode : JumpMode) (reg take target : Nat)
  | swap (entry take : Nat) (table : Table)
  | stop (played : Nat)
  | progress (entry iter goff played : Nat) (frames : List Frame)
deriving DecidableEq, Repr

/-- A report, and the granule of the unit's count at which it was sent. -/
structure SentReport where
  report : ChanReport
  sent   : Nat
deriving DecidableEq, Repr

/-- A pause of R151, in samples of the channel's count: where it begins and, once it is over, where the walk goes on. -/
structure Pause where
  first : Nat
  upto  : Option Nat
deriving DecidableEq, Repr

/-- The walk of a channel as it entered FAULT, from which an unbroken walk is reckoned (R282): the entry, iterations completed, frames, the sample the iteration began at, the sample at which the fault
stopped it, the visit's number and first sample, the first sample of its present stretch, and the request pending. -/
structure KeptWalk where
  entry      : Nat
  iter       : Nat
  frames     : List Frame
  start      : Nat
  stop       : Nat
  visit      : Nat
  visitStart : Nat
  spanStart  : Nat
  pend       : Option PendingJump
deriving DecidableEq, Repr

/-- A move of a channel's tables after a change of TABLE_HOME (R38): the home named before. -/
structure TableMove where
  oldHome : Nat
deriving DecidableEq, Repr

/-! ### The Lantern pipeline (spec 04_lantern_pipeline.md) -/

/-- A running chirp (R115, R120): its bound sector, the table index and curvature latched at its start, and the granule-clock sample it started at. -/
structure Chirp where
  sector : Fin 8
  curve  : Nat
  curv   : Int
  start  : Nat
deriving DecidableEq, Repr

/-- A register write of a frequency word waiting for its granule edge (R119): the sample at which it takes effect. -/
structure FreqWrite where
  sector : Fin 8
  word   : BitVec 48
  sample : Nat
deriving DecidableEq, Repr

/-- The NCO of a channel (R115): accumulators and frequency words as they stand at sample `at_` of the unit's granule count × 32, the sector in
use, the chirp and its rate, the halves of FREQ_LO written and held (R119), and whether the sectors advance (every state but IDLE, R62). -/
structure Nco where
  acc     : Vector (BitVec 48) 8
  freq    : Vector (BitVec 48) 8
  at_     : Nat
  runs    : Bool
  sector  : Fin 8
  chirp   : Option Chirp
  rate    : BitVec 40
  curveNo : Nat
  loHeld  : Vector Word 8
  writes  : List FreqWrite
deriving DecidableEq, Repr

/-- What a pipeline takes from LANT_TRIM, LANT_POFF, LANT_DDS_AMP and LANT_CTRL.MIX_REAL of its channel. -/
structure LantSet where
  trim    : Nat
  poff    : Nat
  amp     : Nat
  mixReal : Bool
deriving DecidableEq, Repr

/-- A channel's pipeline beside its NCO (R104): the samples of the channel's count that have passed the gain stage are those before `done`; `tail` are the last stored samples the interpolation chain
still holds, newest first, at the factor 2^`factor` (R110, R113); `line` the hand-off values on their way to the balls, newest first, none where the sample plays dark (R105, R162); `inForce` the settings
in force and `waits` those that take effect at a later sample of the unit's granule count × 32 (R127); `satGran` the granule of the last saturation published; `held` the hand-off values of
the granule before a stream's gap, newest first, which a HOLD fill repeats (R146). -/
structure Pipe where
  done    : Nat
  factor  : Nat
  tail    : List (Int × Int)
  line    : List (Option Int)
  inForce : LantSet
  waits   : List (Nat × LantSet)
  satGran : Option Nat
  held    : List (StreamId × List (Option Int))
deriving DecidableEq, Repr

/-! ### Outputs, bias lines and the lookout (spec 06_outputs.md) -/

/-- A range change running or waiting (R166, R168): the range it sets, its first sample on the unit's granule count × 32, Nh, whether the reference gain has switched, and
whether a starting commit asked for it (R167). -/
structure RangeChange where
  range    : Bool
  first    : Nat
  nh       : Nat
  switched : Bool
  atStart  : Bool
deriving DecidableEq, Repr

/-- A marker setting written while the marker is active, waiting for its first inactive sample (R171). -/
structure MarkerSetting where
  delay : Nat
  pol   : Bool
  src   : Nat
deriving DecidableEq, Repr

/-- What a walk asks of a marker (R65, R164, R169): its program is active; and the walk plays or a pulse runs, without which the source ACTIVE is inactive too. -/
structure MarkerWalk where
  prog : Bool
  on   : Bool
deriving DecidableEq, Repr

/-- One marker driver: the settings in force, those waiting, the sample (of the channel's count) at which the running pulse ends (R65), and what the walk asks of it on its way to the balls: `base`, and
after it the changes in `moves`, oldest first, by the sample of the Lamp's granule count × 32 they are placed at (R105, R170). -/
structure Marker where
  inForce  : MarkerSetting
  waiting  : Option MarkerSetting
  pulseEnd : Option Nat
  base     : MarkerWalk
  moves    : List (Nat × MarkerWalk)
deriving DecidableEq, Repr

/-- One channel: its tables (R36), its walk (R48), its jumps (R93), its NCO (R115), its pipeline (R104) and its output stage (R158 to R172). Sample numbers count from
the channel's start (spec 03, preamble); `startGran` is the granule of the unit's own count at which the channel started. `kept` is the walk
as a fault stopped it and `missed` the group orders that have reached the channel since, `resume` marks a resuming start (R282), and `was` is the state it left (R281), and granules before `darkTo` play dark (R57, R59). `headed` holds for a visit whose first granules come from a held head (R58). A pause of R151 moves `iterStart`, from which the
iteration's rest is reckoned: `iterFirst` is the sample the iteration began at, `spanStart` the first sample of the visit's present stretch (R91), and `resumed` the sample at which the walk last went
on. `range` is the gain at the play position, `gainBase` that at the balls before the changes ended in `gainMoves`, which have not reached them (R105, R166). -/
structure Chan where
  st         : ChanState
  slots      : Vector Table 2
  activeSlot : Fin 2
  hasActive  : Bool
  heldOn     : Vector Bool 2
  move       : Option TableMove
  swap       : Option PendingSwap
  owner      : Func
  startEntry : Nat
  startAt    : Option Nat
  startWith  : List ChanId
  startGran  : Nat
  entry      : Nat
  visit      : Nat
  visitStart : Nat
  iter       : Nat
  iterStart  : Nat
  iterFirst  : Nat
  spanStart  : Nat
  resumed    : Nat
  headed     : Bool
  stopPos    : Nat
  frames     : List Frame
  reqTo      : Nat
  arrTo      : Nat
  primed     : Bool
  subs       : List BeaconCh
  pend       : Option PendingJump
  batch      : Option JumpBatch
  orders     : List GroupOrder
  missed     : List MissedOrder
  ready      : List ReadyPlace
  readyNext  : Option (List ReadyPlace)
  pauseFrom  : Option Nat
  relayDark  : Bool
  segDark    : Bool
  darkTo     : Nat
  nco        : Nco
  factor     : Nat
  pipe       : Pipe
  range      : Bool
  gainBase   : Bool
  gainMoves  : List RangeChange
  rangeAsked : Bool
  changes    : List RangeChange
  markers    : Vector Marker 2
  cellDue    : Option Nat
  cellWait   : Option Nat
  history    : List VisitSpan
  reports    : List SentReport
  lastReport : Nat
  recoveries : List Nat
  resume     : Bool
  kept       : Option KeptWalk
  was        : ChanState
deriving DecidableEq, Repr

/-- One bias line (R174 to R179): whether it drives, its pattern memory (entries not listed are 0), the unread QUEUE entries, the next CYCLE entry, its present target, whether
its next driven target ignores the slew limiter (R179), the level the deglitcher shows, and whether it holds (R178). -/
structure BiasLine where
  drives  : Bool
  mem     : List (Nat × Nat)
  queue   : List Nat
  cycle   : Nat
  synced  : Bool
  code    : Nat
  target  : Nat
  first   : Bool
  shown   : Nat
  holding : Bool
  movedAt : Nat
  devs    : Nat
deriving DecidableEq, Repr

/-- The bias block of a Lamp die: the tick period in force, the index of the next tick, and the granule of the unit's count at which index 0 falls (R175). -/
structure BiasBlock where
  tick   : Nat
  index  : Nat
  base   : Nat
deriving DecidableEq, Repr

/-- What ST-12 finds of a channel's output (R182): the taps of the three-tap response for the codes at the sample before, the sample and the one after, and the gain, in 1/2^16, and the offset in 1/256
code steps, of range ×1 and ×2. -/
structure LookModel where
  before : Int
  here   : Int
  after  : Int
  gain   : Vector Int 2
  offset : Vector Int 2
deriving DecidableEq, Repr

/-- One comparison of a block of the lookout (R181 to R184): the code the stage held and the residual in 1/256 code steps. -/
structure LookSample where
  chan     : ChanId
  code     : Nat
  residual : Int
deriving DecidableEq, Repr

/-- The lookout of a Lamp die: the granule of its next slot, the place in the frame, the frames since the last reference check and in the block, the position LFSR, the comparisons of the block, the
response model of each channel (R182), and the estimates of its 63 unary cells in 1/256 code steps (R184). -/
structure Lookout where
  gran    : Nat
  slot    : Nat
  frame   : Nat
  self    : Nat
  inBlock : Nat
  lfsr    : BitVec 16
  stopped : Bool
  samples : List LookSample
  models  : Vector LookModel 4
  cells   : Vector (List Int) 4
deriving DecidableEq, Repr

/-! ### Tender streams (spec 05_tender_streams.md) -/

/-- States of a stream (R143). -/
inductive StreamState where
  | detached | filling | flowing | underrun | drained | lost
deriving DecidableEq, Repr

/-- A tender stream. `pos` is P as accounted up to sample `at_` of the bound channel's count (R140). `pulled` blocks are pulled, those of `staged` have not landed, those of `landed`
are landed and not consumed, `late` landed after P had passed their first granule, `played` are the blocks of which a granule has been played, `drawn` counts the blocks pulled, and `consumed` blocks are consumed (R137 to R139, R152). Granules from `missing` on are
substituted while the stream does not flow (R145); `resumeAt` is the granule of a re-entry that has passed its test, `reenter` its sample under KEEP_POSITION, and `tested` the last candidate
block tested (R150, R151). -/
structure Stream where
  st        : StreamState
  owner     : Func
  prod      : Nat
  pulled    : Nat
  staged    : List Nat
  landed    : List Nat
  late      : List Nat
  drawn     : Nat
  played    : List Nat
  consumed  : Nat
  total     : Nat
  pos       : Nat
  at_       : Nat
  lowArmed  : Bool
  highArmed : Bool
  missing   : Nat
  resumeAt  : Option Nat
  reenter   : Nat
  tested    : Nat
deriving DecidableEq, Repr

/-! ### Meridian clocks (spec 07_meridian.md) -/

/-- The staged copies of the double-buffered values of R200. -/
structure MerStaged where
  m     : Nat
  f     : Nat
  div   : Vector Nat 12
  en    : Vector Bool 12
  delay : Vector Nat 12
deriving DecidableEq, Repr

/-- A SYNC scheduled at its event time (R204, R216), in q. -/
structure SyncEvent where
  time : Nat
deriving DecidableEq, Repr

/-- What a Meridian is doing in RETURN (R197). -/
inductive ReturnMode where
  | none | measuring | slewing | stepAtSync | hold
deriving DecidableEq, Repr

/-- One Meridian die beside its registers: the values staged, the delays as they have walked so far (R200), the bandwidth in force in ACQUIRE, what it does in RETURN,
the failed outputs, what each spare replaces and whether it has failed too (R205), the scheduled SYNC, whether its Lamp outputs are gated (R193), the start of the SYNC_OUT pulse last fired, and the last
edge on SYNC_ECHO (R214), in q. -/
structure Mer where
  staged   : MerStaged
  delayNow : Vector Nat 12
  acqBw    : Nat
  returns  : ReturnMode
  refValid : Bool
  failed   : List (Fin 10)
  spares   : Vector (Option (Fin 10)) 2
  spareBad : Vector Bool 2
  sync     : Option SyncEvent
  gated    : Bool
  fired    : Option Nat
  echoed   : Option Nat
deriving DecidableEq, Repr

/-- The unit's timebase. `now` is the time in q since the part came out of reset, and `epochAt` that of the epoch's start, from which coarse counts and stamps count (R220); `gran` counts the granule edges of each Lamp and never restarts; `ugcBase` is the value of
`gran` at UGC 0 and `tSync` the time of that edge's SYNC (R202, R203); one gc of a Lamp's grid is
`num / den` q (16,384 q at 12.0 GS/s, R19, R190, R220); `runs` is false while a Lamp's clock is gated or absent. `switching` marks the consumers whose selector
switches, `dead` those with no running clock (R211, R213), `foEnd` the granule at which a Lamp's dark interval of a switch ends, `syncDark` that at which the 4 gc of R198 and R204 end, on
the channels of `syncOn`. -/
structure Clock where
  now       : Nat
  epochAt   : Nat
  gran      : Vector Nat 4
  ugcBase   : Vector Nat 4
  tSync     : Nat
  num       : Vector Nat 4
  den       : Nat
  runs      : Vector Bool 4
  switching : Vector Bool 10
  dead      : Vector Bool 10
  foEnd     : Vector Nat 4
  syncDark  : Vector Nat 4
  syncOn    : List ChanId
deriving DecidableEq, Repr

/-! ### The Transit unit (spec 08_transit.md) -/

/-- A stamp record (R221). -/
structure StampRec where
  stamp  : BitVec 76
  input  : TrnIn
  fall   : Bool
  fov    : Bool
  uncal  : Bool
  twin   : Bool
  missed : Nat
  seq    : Word
deriving DecidableEq, Repr

/-- One input of a Transit unit: the edge last accepted, edges missed since the last record, and whether it stays at its active level. -/
structure TrnInput where
  last    : Option Nat
  missed  : Nat
  stuck   : Bool
deriving DecidableEq, Repr

/-- An edge an engine holds: whether it is of the START input, its time in q, whether its stamp carries FOV or UNCAL, and whether an edge of its input was missed since. -/
structure EngEdge where
  start  : Bool
  time   : Int
  marked : Bool
  missed : Bool
deriving DecidableEq, Repr

/-- An edge of an internal tap on its way to the Transit units (R69, R170, R172, R224): the input, whether it falls, and the time in q at which the tap has it. -/
structure TapEdge where
  input : TrnIn
  fall  : Bool
  time  : Nat
deriving DecidableEq, Repr

/-- A statistics engine (R233 to R236): the edge waiting for its partner or its successor, and the results entered in the run, their exact sums and extremes in q / 2^16; `ended` between two runs
of CONT. -/
structure Engine where
  edge  : Option EngEdge
  count : Nat
  sum   : Int
  sumSq : Nat
  min   : Int
  max   : Int
  ended : Bool
deriving DecidableEq, Repr

/-- One Transit unit: its inputs, its engines, the number of its next record and whether its interpolators are calibrated (R222). -/
structure Transit where
  inputs  : Vector TrnInput 64
  engines : Vector Engine 8
  seq     : Nat
  cal     : List Nat
deriving DecidableEq, Repr

/-! ### The beacon fabric (spec 09_beacon_fabric.md) -/

/-- What an event carries (R241). -/
structure Payload where
  src   : Nat
  info  : Word
  stamp : Option StampRec
deriving DecidableEq, Repr

/-- A task input of the fabric (R245). -/
inductive Consumer where
  | engine (c : ChanId)
  | task (i : ConsId)
deriving DecidableEq, Repr

/-- A delivery in flight (R242): its channel, the payload of the publication that began it and its time in q, the subscribed task inputs that have not acknowledged, whether one has, and the sources whose
publications it carries (R230, R244). -/
structure Delivery where
  ch      : BeaconCh
  payload : Payload
  born    : Nat
  waiting : List Consumer
  taken   : Bool
  sources : List Nat
deriving DecidableEq, Repr

/-- A delay timer (R248): its start, the grid instants passed, the last publication and whether a deferred one waits, in q. -/
structure Timer where
  start    : Nat
  ticks    : Nat
  lastPub  : Option Nat
  deferred : Bool
deriving DecidableEq, Repr

/-- An event output (R249): at its active level, and the end of the pulse being driven in q. -/
structure EvOut where
  active : Bool
  ends   : Option Nat
deriving DecidableEq, Repr

/-- The fabric: deliveries, the payload of the activation that runs and of the one that is pending at each keeper input, timers and event outputs. -/
structure Fabric where
  inFlight : List Delivery
  payloads : Vector (Option Payload) 64
  held     : Vector (Option Payload) 64
  timers   : Vector Timer 4
  evOut    : Vector EvOut 8
deriving DecidableEq, Repr

/-! ### Hawser links and heartbeats (spec 01_dies_and_links.md) -/

/-- One direction of a hawser link: lanes declared bad, spare lanes used or failed, lanes failed with no spare left, and the replays of the last 1 ms by lane with
their times in q (R13, R14, R16). -/
structure LinkDir where
  bad     : List Nat
  spares  : Nat
  missing : Nat
  replays : List (Nat × Nat)
deriving DecidableEq, Repr

/-- A hawser link (R11 to R16): lost, narrowed to half width, trained at the reduced rate of ST-6's alternate form, its two directions (`false` forward, `true`
return), the lane swap in progress with those waiting, and its lane-swap ageing counter. -/
structure Link where
  lost     : Bool
  narrow   : Bool
  slow     : Bool
  dirs     : Vector LinkDir 2
  swapping : Option (Bool × Nat)
  queued   : List (Bool × Nat)
  swaps    : Nat
deriving DecidableEq, Repr

/-- The heartbeat of a Dome (R33): who has missed it for 4 µs, and when it was last sent, in q. -/
structure Beat where
  missedPeer  : Bool
  missedMerid : Bool
  sent        : Nat
deriving DecidableEq, Repr

/-! ### Orrery engines (spec 10_orrery.md) -/

/-- A microword: 176 bits (R257). -/
abbrev Microword := BitVec 176

/-- One entry of an image's routine table (R272). -/
structure RoutineEntry where
  word  : Nat
  valid : Bool
  mask  : Nat
deriving DecidableEq, Repr

/-- A store image (R272): VERSION, SEC_VERSION, the first word loaded, the words, the routine table, and the hash of its contents (R431). -/
structure StoreImage where
  version  : Word
  secVer   : Word
  base     : Nat
  words    : List Microword
  routines : List RoutineEntry
  hash     : List Byte
deriving DecidableEq, Repr

/-- The images a place holds: vendor channel, vendor keeper and owner extension (R273). -/
structure Images where
  channel : Option StoreImage
  keeper  : Option StoreImage
  owner   : Option StoreImage
deriving DecidableEq, Repr

/-- Upkeep of one store (R276): words mapped onto spares, words corrected in the last scrub pass and in this one. -/
structure StoreCare where
  repairs : List (Nat × Nat)
  before  : List Nat
  now     : List Nat
deriving DecidableEq, Repr

/-- An outward effect of a keeper routine (R268). -/
inductive Outward where
  | regWrite (addr : Nat) (v : Word)
  | regMasked (addr : Nat) (v : Word)
  | plateWrite (addr : QWord) (v : QWord)
  | plateAdd (addr : QWord) (v : QWord)
  | copy (src dst len : Nat)
  | copyMirror (src dst len : Nat)
  | fill (value dst len : Nat)
  | consume (ring : Nat)
  | post (addr : Nat)
  | publish (idx : Nat) (info : Word)
deriving DecidableEq, Repr

/-- A register access running in the background of a routine (R259, R264): a READ or POLL of an address, with the field of G registers it names, and the mask and the value
that a POLL compares with. -/
structure RegAccess where
  addr : Nat
  reg  : Nat
  poll : Bool
  mask : QWord
  want : QWord
deriving DecidableEq, Repr

/-- A keeper engine (R256 to R271): its registers, flags and call stack, the input whose routine runs, the next word, whether past the commit point, the end of a
WAIT in q, the release buffer and whether it releases, restarts and abandonments in a row, when the run began, its units, and a shadow thread's turn. -/
structure Keeper where
  g         : Vector QWord 16
  zero      : Bool
  neg       : Bool
  carry     : Bool
  stack     : List Nat
  input     : Option (Fin 16)
  word      : Nat
  committed : Bool
  waitEnd   : Option Nat
  buffer    : List Outward
  releasing : Bool
  tries     : Vector Nat 16
  losses    : Vector Nat 16
  began     : Nat
  access    : Option RegAccess
  regDone   : Bool
  regMatch  : Bool
  dmaDone   : Bool
  plateDone : Bool
  txnPass   : Bool
  owner     : Option StoreImage
  vendor    : Option StoreImage
  care      : StoreCare
deriving DecidableEq, Repr

/-- A channel engine (R256 to R263): registers, flags, call stack, next word, the entries in its play and lookahead latches, the lookahead shadow stack, its iteration and
granule counters, its store and the upkeep of it. -/
structure ChanEngine where
  g        : Vector QWord 16
  zero     : Bool
  neg      : Bool
  carry    : Bool
  stack    : List Nat
  word     : Nat
  play     : Option Nat
  look     : Option Nat
  lookBad  : Bool
  frames   : List Frame
  iter     : Nat
  granules : Nat
  store    : Option StoreImage
  care     : StoreCare
deriving DecidableEq, Repr

/-- The progress shadow's copy of one channel (R278 to R280): whether it walks, the table it walks, the granule of the unit's count at which the channel's sample 0 plays, the entry and frames, the
iterations of the visit completed before sample `iterAt`, and the first sample of the visit. `iterAt` leaves out the samples of the pauses of R151: `slid` of them before the visit, and those of `pauses`.
`seen` are the visits a pending request can come from, `last` is the granule of the last report, and `declared` the declaration a recovery answers (its time in q). -/
structure Shadow where
  walks     : Bool
  table     : Table
  startGran : Nat
  entry     : Nat
  frames    : List Frame
  iter      : Nat
  iterAt    : Nat
  visitAt   : Nat
  slid      : Nat
  pauses    : List Pause
  seen      : List VisitSpan
  ended     : Bool
  last      : Nat
  declared  : Option Nat
deriving DecidableEq, Repr

/-! ### The Mooring controllers (spec 11_mooring.md) -/

/-- A read waiting at a sub-channel (R295): the request, its port address and its arrival in q. -/
structure MemRead where
  req     : MemReq
  addr    : Nat
  arrival : Nat
deriving DecidableEq, Repr

/-- A write in the queues of its set (R294): the request, its port address, its arrival in q, the logical positions written, the positions whose old unit the parity engine has read for it, and
whether its row's parity was formed from three queued data units. -/
structure MemWrite where
  req     : MemReq
  addr    : Nat
  arrival : Nat
  written : List (Fin 4)
  old     : List (Fin 4)
  whole   : Bool
deriving DecidableEq, Repr

/-- Kinds of command on a sub-channel (R296). -/
inductive MemCmdKind where
  | refreshAll | refreshBank (bank : Fin 16) | activate (bank : Fin 16) (row : Nat) | precharge (bank : Fin 16)
  | read (bank : Fin 16) (column : Fin 32) (id : Nat) | write (bank : Fin 16) (column : Fin 32) (id : Nat) | neighbour (bank : Fin 16) (row : Nat)
deriving DecidableEq, Repr

/-- A command of the retry buffer (R306): its number, sub-channel, kind, the alerts it has met, and how often it has been issued. -/
structure MemCmd where
  seq    : Nat
  sc     : Fin 4
  kind   : MemCmdKind
  alerts : Nat
  issued : Nat
deriving DecidableEq, Repr

/-- A neighbour refresh that waits (R304): its bank, the activated row and the time it is due by, in q. -/
structure Neighbour where
  bank : Fin 16
  row  : Nat
  due  : Nat
deriving DecidableEq, Repr

/-- One sub-channel of a port: the open row of each bank with the time of its last hit, reads waiting, the bank under refresh (16: all banks) with its end in q, per-bank refreshes done of the sixteen, the
bank next in rotation, whether a write batch runs, urgent refreshes still to issue, and neighbour refreshes waiting (R293 to R304). -/
structure SubChannel where
  openRow    : Vector (Option (Nat × Nat)) 16
  reads      : List MemRead
  refreshing : Option (Nat × Nat)
  steps      : Nat
  nextBank   : Fin 16
  batch      : Bool
  urgent     : Nat
  nbr        : List Neighbour
deriving DecidableEq, Repr

/-- One memory port: sub-channels, retry buffer, its LFSR (R304), readings below the threshold in a row (R301), and the retries of transfers in progress by request (R307). -/
structure MemPort where
  subs    : Vector SubChannel 4
  retry   : List MemCmd
  seq     : Nat
  lfsr    : BitVec 32
  below   : Nat
  retries : List (Nat × Nat)
deriving DecidableEq, Repr

/-- Why a Dome's ports are in self-refresh, or about to be (R312, R316). -/
inductive SrCause where
  | laidUp | freq | idle
deriving DecidableEq, Repr

/-- The protected memory of a Dome: its bytes by data address, ports, writes queued, logical positions lost, poisoned units by data address, dividers trained at ST-8 (bit j: divider
4 + j), a retraining of MP4 under way, reads answered (the unit read, and whether it was poisoned), the cause of self-refresh, the divider asked for, and when a request last came. -/
structure Mooring where
  data     : List Host.Cell
  ports    : Vector MemPort 5
  writes   : List MemWrite
  lost     : List (Fin 4)
  poison   : List Nat
  trained  : BitVec 6
  retrain  : Bool
  answers  : List (Nat × Vector Byte 64 × Bool)
  sr       : Option SrCause
  target   : Nat
  lastReq  : Nat
deriving DecidableEq, Repr

/-! ### Plate banks (spec 12_plate_banks.md) -/

/-- Phases of the background test (R326, R327). -/
inductive TestPhase where
  | save | march | restore | verify | forced
deriving DecidableEq, Repr

/-- One plate bank: its bytes, the phase of the test that runs, tests of the region broken off in a row, a region to test again, words with one or two bits in error, rows
corrected in the last pass and in this one, rows mapped onto spares, the row being copied with its spare, whether the test of the region failed, port-B writes to be retried, and accesses that wait (R319 to R330). -/
structure Bank where
  cells   : List Host.Cell
  phase   : Option TestPhase
  broken  : Nat
  again   : Bool
  single  : List Nat
  double  : List Nat
  before  : List Nat
  now     : List Nat
  repairs : List (Nat × Nat)
  copying : Option (Nat × Nat)
  failed  : Bool
  retries : List (PlateAccess × PlateMaster)
  waiting : List (PlateAccess × PlateAccess × PlateMaster × Ecc)
deriving DecidableEq, Repr

/-! ### The host interface (spec 13_host_rings.md) -/

/-- A descriptor that has begun or waits: the function that fetched it, its opcode, header, index on its ring. -/
structure DescRef where
  func  : Func
  code  : Byte
  hdr   : DescHdr
  index : Nat
deriving DecidableEq, Repr

/-- A report (R349): what the part writes, beside the ring's PHASE and the STAMP of its writing. -/
structure Report where
  code   : Byte
  async  : Bool
  func   : Func
  status : Nat
  tag    : Word
  dring  : RingId
  dindex : Nat
  dcons  : Nat
  detail : QWord
  irq    : Bool
deriving DecidableEq, Repr

/-- A descriptor fetched ahead (R345): the order of its fetch, its word W0, and whether it has completed ahead of those before it. -/
structure Fetched where
  seq  : Nat
  w0   : QWord
  done : Bool
deriving DecidableEq, Repr

/-- A dispatch ring (R343 to R345): set-up, function, base, size log2, default report ring, consumer index, producer index last read, descriptors fetched ahead, the one that has begun, and
reports kept until the ring is rebound (R354). -/
structure DRing where
  up        : Bool
  func      : Func
  base      : Nat
  log2      : Nat
  defReport : RingId
  cons      : Nat
  prod      : Nat
  fetched   : List Fetched
  began     : Option DescRef
  kept      : List (RingId × Report)
deriving DecidableEq, Repr

/-- A report ring (R343, R350, R352): set-up, function, base, size log2, vector, coalescing, the producer index at set-up and now, reports waiting to be written, reports written since its last request, and
when the first of them was written, in q. -/
structure RRing where
  up        : Bool
  func      : Func
  base      : Nat
  log2      : Nat
  vector    : Fin 128
  coalCount : Nat
  coalTime  : Nat
  start     : Nat
  prod      : Nat
  waiting   : List Report
  since     : Nat
  first     : Option Nat
deriving DecidableEq, Repr

/-- A START item of a transaction: its channels with their entries, and DELAY (R347, R360). -/
structure StartItem where
  entries : List (ChanId × Nat)
  delay   : Nat
deriving DecidableEq, Repr

/-- Where a transaction stands (R355 to R359): open, armed on a beacon channel, triggered, or with its effect granule set. -/
inductive TxnPhase where
  | closed | open_ | armed (ch : BeaconCh) | due (gran : Nat)
deriving DecidableEq, Repr

/-- A transaction: slot state, function, the items in the order they were added, and the COMMIT to be reported with it. `atUgc` holds for a COMMIT AT_UGC. -/
structure Txn where
  phase  : TxnPhase
  func   : Func
  sets   : List SetItem
  starts : List StartItem
  stops  : List ChanId
  swaps  : List (ChanId × Nat)
  refs   : List DescRef
  commit : Option DescRef
  atUgc  : Bool
deriving DecidableEq, Repr

/-- The watchdog (R364): when it was set up, heartbeats sent, and the consumer index it watches with the time of its last advance, in q. -/
structure Watchdog where
  start   : Nat
  ring    : RingId
  func    : Func
  period  : Nat
  timeout : Nat
  action  : Fin 4
  sent    : Nat
  cons    : Nat
  since   : Nat
deriving DecidableEq, Repr

/-- The host interface: rings, transactions (slots 0 to 3 opened by BEGIN), one-item transactions whose effect granule is set, the watchdog, host memory as the part sees it, BAR2 of each
function (R337), the number of the next fetch, and commands held for a key pair in generation (R431). -/
structure HostIf where
  drings  : Vector DRing 64
  rrings  : Vector RRing 64
  txns    : Vector Txn 4
  singles : List Txn
  wd      : Option Watchdog
  mem     : List Host.Cell
  bar2    : Vector (List Host.Cell) 2
  seq     : Nat
  attests : List (DescRef × Nat × Vector Byte 32)
deriving DecidableEq, Repr

/-! ### Registers beside their values (spec 14_register_conventions.md) -/

/-- A copy of a voted field that differs from the value its register holds (R378). -/
structure CopyFault where
  reg   : Reg
  lo    : Nat
  copy  : Fin 3
  value : Nat
deriving DecidableEq, Repr

/-- A HI register latched for a requester (R377). -/
structure Latch where
  who   : Requester
  reg   : Reg
  value : Word
deriving DecidableEq, Repr

/-- A snapshot being taken (R383 to R386): its instant in coarse counts, the dies in scope, those that have latched, the host address, and the command it answers. -/
structure SnapJob where
  t       : Nat
  scope   : BitVec 8
  latched : BitVec 8
  addr    : Nat
  late    : Bool
  ref     : DescRef
deriving DecidableEq, Repr

/-- A SNAPSHOT that waits for the one being taken. -/
structure SnapWait where
  dies : BitVec 8
  at_  : Bool
  t    : Nat
  addr : Nat
  ref  : DescRef
deriving DecidableEq, Repr

/-- Snapshots: the holding window (registers that hold 0 are not listed), the values latched for the next one, the one being taken and those that wait. -/
structure Snap where
  window : List (Reg × Word)
  next   : List (Reg × Word)
  job    : Option SnapJob
  queue  : List SnapWait
deriving DecidableEq, Repr

/-! ### Power, ledger and security (spec 15_start_and_states.md, 16_faults_spares_security.md, 17_balls_and_electrical.md) -/

/-- Pins and power beside the registers: RESET_N high, the power-good inputs PG_AON, PG_CORE, PG_MEM and PG_ANA, DARK_N high with the granule of each Lamp up to which the condition is counted and the granule at which the condition of its last rise ends (R163), the DAC supplies of each Lamp, the Lamps whose static dark code a LIT commit
has ended (R165, R393), the master store (R406), the tables saved (R406), the epoch tag and the admission record of each die (R410), entries to LAID-UP in this start
(R409), Lamps being readmitted (R411), SMB_ALERT_N asserted and the SMBus port answering (R451), a start under way, whether its ST-15 will find the tags equal, and FEAT_ACCEPT0 written (R389). -/
structure Power where
  resetN  : Bool
  pg      : Vector Bool 4
  darkN   : Bool
  darkFrom : Vector Nat 4
  darkEnd : Vector Nat 4
  dac     : Vector Bool 4
  litOnce : Vector Bool 4
  master  : List (Reg × Word)
  saved   : List (ChanId × Fin 2 × Table)
  tags    : Vector Nat 8
  records : Vector Nat 8
  laidUps : Nat
  readmit : Vector Bool 4
  alert   : Bool
  smbUp   : Bool
  smbAddr : BitVec 3
  running : Bool
  epochOk : Bool
  negotiated : Bool
deriving DecidableEq, Repr

/-- A start record (R402), closed or interrupted. -/
structure StartRec where
  startNo  : Word
  steps    : QWord
  reason   : Nat
  alt      : Nat
  exclCh   : Nat
  exclDie  : Nat
  lookOff  : Nat
  links    : Nat
  ports    : Nat
  bootVer  : Word
  logCount : Nat
  closed   : Bool
deriving DecidableEq, Repr

/-- A log entry of the ledger (R404). -/
structure LogEntry where
  kind : Nat
  die  : Nat
  a    : Nat
  b    : Nat
deriving DecidableEq, Repr

/-- The start ledger on the boot flash devices (R401 to R405): generation, start records, log, entries that wait in the AON domain while it is compacted, and the sticky
alternate mask (R397). -/
structure Ledger where
  generation : Nat
  records    : List StartRec
  log        : List LogEntry
  compacting : Bool
  waiting    : List LogEntry
  sticky     : Nat
deriving DecidableEq, Repr

/-- What the fuses and the secure store hold, and the security root at work (R425 to R435): the owner key hash fused, the vendor and owner floors, openings, ERASED, the erasure mark, the
number of the attestation key pair in force (R430), whether an enrolment is in force, the valid challenge, an accepted token's opening under way, the boot image in
use and the dark-code fuses (R161, R365). -/
structure Security where
  ownerHash   : Option (List Byte)
  vendorFloor : Nat
  ownerFloor  : Nat
  openings    : Nat
  erased      : Bool
  erasing     : Bool
  attKey      : Option Nat
  enrolled    : Bool
  challenge   : Option (List Byte)
  opening     : Bool
  bootVer     : Word
  bootSec     : Nat
  bootHash    : List Byte
  darkFuses   : Vector (Option (BitVec 16)) 16
deriving DecidableEq, Repr

/-! ### The whole machine -/

/-- States of a power domain (R23, R413): RETIRED is held OFF from then on (R25). -/
inductive DomState where
  | off | retain | on | retired
deriving DecidableEq, Repr

/-- What the last read or protocol command returned to its sender (spec 14 R369, R370; 15 R336; 16 R432; 17 R451): the machine's own output. -/
inductive Resp where
  | none
  | data (w : Word)
  | unsupported
  | retry
  | bytes (b : List Byte)
  | nack
deriving DecidableEq, Repr

/-- The state of the CKV8816: the queue of commands, the registers that differ from their reset values, what the last read returned, the counter of free values used, `trnLogQ`, the
times in q at which the records in the queue of the Transit log leave it (R232), and the parts above. -/
structure State where
  pending  : List Instr
  regs     : List (Reg × Word)
  resp     : Resp
  free     : Nat
  clock    : Clock
  chans    : Vector Chan 16
  engines  : Vector ChanEngine 16
  shadows  : Vector Shadow 16
  bias     : Vector BiasLine 32
  biasBlk  : Vector BiasBlock 4
  looks    : Vector Lookout 4
  streams  : Vector Stream 16
  mers     : Vector Mer 2
  transit  : Vector Transit 2
  taps     : List TapEdge
  trnLogQ  : List Nat
  fabric   : Fabric
  links    : Vector Link 22
  beats    : Vector Beat 2
  keepers  : Vector Keeper 4
  flash    : Images
  pb3      : Vector Images 2
  ownerNew : Option StoreImage
  moor     : Vector Mooring 2
  plate    : Vector (Vector Bank 6) 2
  host     : HostIf
  copies   : List CopyFault
  badPar   : List Reg
  latches  : List Latch
  snap     : Snap
  power    : Power
  ledger   : Ledger
  sec      : Security
  domains  : Vector DomState 76
  dieLost  : Vector Bool 8
deriving DecidableEq, Repr

/-- Why the machine stops with a fault: it has no such reason, for the spec gives every command an effect in every state. -/
inductive Fault where
deriving DecidableEq, Repr

/-- Why a command has no meaning. -/
inductive Refusal where
  /-- Raised by no meaning: it stands in the arms of `exec` for a command that has no meaning yet. Safe. -/
  | notModelled (mnemonic : String)
deriving DecidableEq, Repr

/-! ### The state after reset -/

def Table.empty : Table := ⟨0, []⟩

def Nco.reset : Nco :=
  { acc := Vector.replicate 8 0, freq := Vector.replicate 8 0, at_ := 0, runs := false, sector := 0, chirp := none, rate := 0, curveNo := 0
    loHeld := Vector.replicate 8 0, writes := [] }

/-- The reset values of LANT_TRIM, LANT_POFF, LANT_DDS_AMP and MIX_REAL (R130). -/
def LantSet.reset : LantSet := ⟨0x20000, 0, 0x7FFF, false⟩
def Pipe.reset : Pipe := { done := 0, factor := 0, tail := [], line := [], inForce := LantSet.reset, waits := [], satGran := none, held := [] }

/-- A channel in IDLE with no table (R50). Its range is x1 (OUT_STATE.RANGE 0) and its markers have the reset settings of OUT_CTRL and OUT_MK_DELAY. -/
def Chan.reset : Chan :=
  { st := .idle, slots := Vector.replicate 2 Table.empty, activeSlot := 0, hasActive := false, heldOn := Vector.replicate 2 false, move := none, swap := none, owner := 0
    startEntry := 0, startAt := none, startWith := [], startGran := 0, entry := 0, visit := 0, visitStart := 0, iter := 0, iterStart := 0, iterFirst := 0, spanStart := 0, resumed := 0, headed := false, stopPos := 0, frames := []
    reqTo := 0, arrTo := 0, primed := false, subs := [], pend := none, batch := none, orders := [], missed := [], ready := [], readyNext := none, pauseFrom := none, relayDark := false
    segDark := false, darkTo := 0, nco := Nco.reset, factor := 0, pipe := Pipe.reset, range := false, gainBase := false, gainMoves := [], rangeAsked := false, changes := [], markers := Vector.replicate 2 ⟨⟨0, false, 0⟩, none, none, ⟨false, false⟩, []⟩
    cellDue := none, cellWait := none, history := [], reports := [], lastReport := 0, recoveries := [], resume := false, kept := none
    was := .idle }

def StoreCare.reset : StoreCare := ⟨[], [], []⟩

def ChanEngine.reset : ChanEngine :=
  { g := Vector.replicate 16 0, zero := false, neg := false, carry := false, stack := [], word := 0, play := none, look := none, lookBad := false, frames := [], iter := 0
    granules := 0, store := none, care := StoreCare.reset }

def Shadow.reset : Shadow :=
  { walks := false, table := Table.empty, startGran := 0, entry := 0, frames := [], iter := 0, iterAt := 0, visitAt := 0, slid := 0, pauses := [], seen := [], ended := false, last := 0, declared := none }

def BiasLine.reset : BiasLine :=
  { drives := false, mem := [], queue := [], cycle := 0, synced := false, code := 0, target := 0, first := true, shown := 0, holding := false, movedAt := 0, devs := 0 }

/-- The response before ST-12 finds it: that of an ideal stage (DESIGN CHOICE, log entry 124: the lookout's domain is OFF until then). -/
def LookModel.reset : LookModel := ⟨0, 2 ^ 16, 0, Vector.replicate 2 (2 ^ 16), Vector.replicate 2 0⟩

def Lookout.reset : Lookout :=
  { gran := 0, slot := 0, frame := 0, self := 0, inBlock := 0, lfsr := 0xACE1, stopped := false, samples := [], models := Vector.replicate 4 LookModel.reset, cells := Vector.replicate 4 [] }

def Stream.reset : Stream :=
  { st := .detached, owner := 0, prod := 0, pulled := 0, staged := [], landed := [], late := [], drawn := 0, played := [], consumed := 0, total := 0, pos := 0, at_ := 0, lowArmed := true
    highArmed := true, missing := 0, resumeAt := none, reenter := 0, tested := 0 }

def Mer.reset : Mer :=
  { staged := ⟨120, 0, #v[1, 1, 1, 1, 12, 12, 10, 10, 12, 8, 0, 0], Vector.ofFn (fun k => decide (k.val < 10)), Vector.replicate 12 0⟩, delayNow := Vector.replicate 12 0, acqBw := 0, returns := .none
    refValid := false, failed := [], spares := Vector.replicate 2 none, spareBad := Vector.replicate 2 false, sync := none, gated := true, fired := none, echoed := none }

def Clock.reset : Clock :=
  { now := 0, epochAt := 0, gran := Vector.replicate 4 0, ugcBase := Vector.replicate 4 0, tSync := 0, num := Vector.replicate 4 16384, den := 1, runs := Vector.replicate 4 false, switching := Vector.replicate 10 false, dead := Vector.replicate 10 true, foEnd := Vector.replicate 4 0
    syncDark := Vector.replicate 4 0, syncOn := [] }

def Transit.reset : Transit :=
  { inputs := Vector.replicate 64 ⟨none, 0, false⟩, engines := Vector.replicate 8 ⟨none, 0, 0, 0, 0, 0, false⟩, seq := 0, cal := [] }

def Fabric.reset : Fabric :=
  { inFlight := [], payloads := Vector.replicate 64 none, held := Vector.replicate 64 none, timers := Vector.replicate 4 ⟨0, 0, none, false⟩, evOut := Vector.replicate 8 ⟨false, none⟩ }

def Link.reset : Link :=
  { lost := false, narrow := false, slow := false, dirs := Vector.replicate 2 ⟨[], 0, 0, []⟩, swapping := none, queued := [], swaps := 0 }

def Keeper.reset : Keeper :=
  { g := Vector.replicate 16 0, zero := false, neg := false, carry := false, stack := [], input := none, word := 0, committed := false, waitEnd := none, buffer := []
    releasing := false, tries := Vector.replicate 16 0, losses := Vector.replicate 16 0, began := 0, access := none, regDone := false, regMatch := false, dmaDone := false, plateDone := false
    txnPass := false, owner := none, vendor := none, care := StoreCare.reset }

def SubChannel.reset : SubChannel :=
  { openRow := Vector.replicate 16 none, reads := [], refreshing := none, steps := 0, nextBank := 0, batch := false, urgent := 0, nbr := [] }

def MemPort.reset : MemPort := { subs := Vector.replicate 4 SubChannel.reset, retry := [], seq := 0, lfsr := 1, below := 0, retries := [] }

def Mooring.reset : Mooring :=
  { data := [], ports := Vector.replicate 5 MemPort.reset, writes := [], lost := [], poison := [], trained := 0, retrain := false, answers := [], sr := none, target := 0, lastReq := 0 }

def Bank.reset : Bank :=
  { cells := [], phase := none, broken := 0, again := false, single := [], double := [], before := [], now := [], repairs := [], copying := none, failed := false, retries := [], waiting := [] }

def Txn.reset : Txn := ⟨.closed, 0, [], [], [], [], [], none, false⟩

def HostIf.reset : HostIf :=
  { drings := Vector.replicate 64 ⟨false, 0, 0, 4, 0, 0, 0, [], none, []⟩, rrings := Vector.replicate 64 ⟨false, 0, 0, 4, 0, 0, 0, 0, 0, [], 0, none⟩, txns := Vector.replicate 4 Txn.reset
    singles := [], wd := none, mem := [], bar2 := Vector.replicate 2 [], seq := 0, attests := [] }

def Power.reset : Power :=
  { resetN := true, pg := Vector.replicate 4 true, darkN := true, darkFrom := Vector.replicate 4 0, darkEnd := Vector.replicate 4 0, dac := Vector.replicate 4 false, litOnce := Vector.replicate 4 false, master := [], saved := [], tags := Vector.replicate 8 0
    records := Vector.replicate 8 0, laidUps := 0, readmit := Vector.replicate 4 false, alert := false, smbUp := false, smbAddr := 0, running := false, epochOk := true, negotiated := false }

def Security.reset : Security :=
  { ownerHash := none, vendorFloor := 0, ownerFloor := 0, openings := 0, erased := false, erasing := false, attKey := none, enrolled := false, challenge := none, opening := false
    bootVer := 0, bootSec := 0, bootHash := [], darkFuses := Vector.replicate 16 none }

/-- The power domains in DARK: the AON domains of the Meridians are ON (R391), every other domain OFF until its step of the start. -/
def domainsAtReset : Vector DomState 76 := Vector.ofFn (fun i => if i.val = 68 ∨ i.val = 72 then .on else .off)

/-- The machine right after reset: DARK, every register at its reset value, no start begun (R391, R395, R412). -/
def State.reset : State :=
  { pending := [], regs := [], resp := .none, free := 0, clock := Clock.reset, chans := Vector.replicate 16 Chan.reset, engines := Vector.replicate 16 ChanEngine.reset
    shadows := Vector.replicate 16 Shadow.reset, bias := Vector.replicate 32 BiasLine.reset, biasBlk := Vector.replicate 4 ⟨375, 0, 0⟩, looks := Vector.replicate 4 Lookout.reset
    streams := Vector.replicate 16 Stream.reset, mers := Vector.replicate 2 Mer.reset, transit := Vector.replicate 2 Transit.reset, taps := [], trnLogQ := [], fabric := Fabric.reset
    links := Vector.replicate 22 Link.reset, beats := Vector.replicate 2 ⟨false, false, 0⟩, keepers := Vector.replicate 4 Keeper.reset, flash := ⟨none, none, none⟩
    pb3 := Vector.replicate 2 ⟨none, none, none⟩, ownerNew := none, moor := Vector.replicate 2 Mooring.reset, plate := Vector.replicate 2 (Vector.replicate 6 Bank.reset)
    host := HostIf.reset, copies := [], badPar := [], latches := [], snap := ⟨[], [], none, []⟩, power := Power.reset, ledger := ⟨0, [], [], false, [], 0⟩, sec := Security.reset
    domains := domainsAtReset, dieLost := Vector.replicate 8 false }

end Sys2Proof.Machine
end

