-- ==== Sys2Proof/Machine/Ops.lean ====
section
/-! DEFINITION. The named operations over registers, fields, memories and time that every meaning is written with. -/
namespace Sys2Proof.Machine
open Sys2Proof

/-! ### Fields of a register (R9, R372) -/

/-- The value a word holds in a field. -/
def FieldSpec.get (f : FieldSpec) (w : Word) : Nat := w.toNat >>> f.lo % 2 ^ f.width

/-- The bits of a field, set. -/
def FieldSpec.mask (f : FieldSpec) : Word := BitVec.ofNat 32 ((2 ^ f.width - 1) <<< f.lo)

/-- A word with the field set to `v`, reduced to the field's width; the other bits keep their value. -/
def FieldSpec.put (f : FieldSpec) (w : Word) (v : Nat) : Word :=
  (w &&& ~~~f.mask) ||| (BitVec.ofNat 32 ((v % 2 ^ f.width) <<< f.lo))

/-- The largest value of a field, at which its counters saturate. -/
def FieldSpec.top (f : FieldSpec) : Nat := 2 ^ f.width - 1

/-! ### The register file: a list of the registers that differ from their reset value, in rising offset order -/

/-- The value a table holds for a register: its reset value where it is not listed. -/
def RegTab.get (t : List (Reg × Word)) (r : Reg) : Word :=
  match t with
  | [] => r.reset
  | (r', w) :: rest => if r' = r then w else RegTab.get rest r

/-- A table without a register. -/
def RegTab.erase (t : List (Reg × Word)) (r : Reg) : List (Reg × Word) :=
  match t with
  | [] => []
  | (r', w) :: rest => if r' = r then RegTab.erase rest r else (r', w) :: RegTab.erase rest r

/-- A table with an entry added in rising offset order. -/
def RegTab.insert (t : List (Reg × Word)) (r : Reg) (w : Word) : List (Reg × Word) :=
  match t with
  | [] => [(r, w)]
  | (r', w') :: rest => if r.addr < r'.addr then (r, w) :: (r', w') :: rest else (r', w') :: RegTab.insert rest r w

/-- A table with the register at `w`; a register at its reset value is not listed. -/
def RegTab.set (t : List (Reg × Word)) (r : Reg) (w : Word) : List (Reg × Word) :=
  if w = r.reset then RegTab.erase t r else RegTab.insert (RegTab.erase t r) r w

/-- The stored value of a register. -/
def State.rd (s : State) (r : Reg) : Word := RegTab.get s.regs r
/-- The state with a register stored. -/
def State.wr (s : State) (r : Reg) (w : Word) : State := { s with regs := RegTab.set s.regs r w }
/-- The stored value of a field. -/
def State.fld (s : State) (r : Reg) (f : FieldSpec) : Nat := f.get (s.rd r)
/-- The state with a field stored. -/
def State.setFld (s : State) (r : Reg) (f : FieldSpec) (v : Nat) : State := s.wr r (f.put (s.rd r) v)
/-- The state with a one-bit field stored. -/
def State.setFlag (s : State) (r : Reg) (f : FieldSpec) (b : Bool) : State := s.setFld r f (if b then 1 else 0)
/-- The state with a flag set. -/
def State.raise (s : State) (r : Reg) (f : FieldSpec) : State := s.setFld r f 1
/-- The state with `n` added to a counter, which saturates at its largest value. -/
def State.bumpBy (s : State) (r : Reg) (f : FieldSpec) (n : Nat) : State := s.setFld r f (min f.top (s.fld r f + n))
/-- The state with a counter incremented, saturating. -/
def State.bump (s : State) (r : Reg) (f : FieldSpec) : State := s.bumpBy r f 1
/-- Whether a one-bit field is 1. -/
def State.isSet (s : State) (r : Reg) (f : FieldSpec) : Bool := s.fld r f == 1
/-- A 64-bit value held in a LO and a HI register. -/
def State.rd64 (s : State) (lo hi : Reg) : Nat := (s.rd lo).toNat + (s.rd hi).toNat * 2 ^ 32
/-- The state with a 64-bit value stored in a LO and a HI register. -/
def State.wr64 (s : State) (lo hi : Reg) (v : Nat) : State := (s.wr lo (BitVec.ofNat 32 v)).wr hi (BitVec.ofNat 32 (v / 2 ^ 32))

/-! ### Byte memories: lists of cells in strictly rising address order, none equal to zero, what an unlisted byte reads as -/

/-- The byte at an address. -/
def Memory.get (m : List Host.Cell) (a : Nat) : Byte :=
  match m with
  | [] => 0
  | (a', b) :: rest => if a' = a then b else Memory.get rest a

/-- The memory without a cell. -/
def Memory.erase (m : List Host.Cell) (a : Nat) : List Host.Cell :=
  match m with
  | [] => []
  | (a', b) :: rest => if a' = a then Memory.erase rest a else (a', b) :: Memory.erase rest a

/-- The memory with a cell added in rising address order. -/
def Memory.insert (m : List Host.Cell) (a : Nat) (b : Byte) : List Host.Cell :=
  match m with
  | [] => [(a, b)]
  | (a', b') :: rest => if a < a' then (a, b) :: (a', b') :: rest else (a', b') :: Memory.insert rest a b

/-- The memory with one byte written. -/
def Memory.set (m : List Host.Cell) (a : Nat) (b : Byte) : List Host.Cell :=
  if b = 0 then Memory.erase m a else Memory.insert (Memory.erase m a) a b

/-- The bytes of a memory from an address, lowest first. -/
def Memory.read (m : List Host.Cell) (a n : Nat) : List Byte := (List.range n).map (fun i => Memory.get m (a + i))

/-- The memory with bytes written from an address, lowest first. -/
def Memory.write (m : List Host.Cell) (a : Nat) (bs : List Byte) : List Host.Cell :=
  match bs with
  | [] => m
  | b :: rest => Memory.write (Memory.set m a b) (a + 1) rest

/-- The canonical form: addresses strictly rising and no cell zero. -/
def Memory.wf (m : List Host.Cell) : Bool :=
  match m with
  | [] => true
  | (_, b) :: [] => b != 0
  | (a, b) :: (a', b') :: rest => b != 0 && decide (a < a') && Memory.wf ((a', b') :: rest)

/-- A number from its bytes, lowest first (R5). -/
def fromBytes : List Byte → Nat
  | [] => 0
  | b :: rest => b.toNat + 256 * fromBytes rest

/-- The `n` bytes of a number, lowest first (R5). -/
def toBytes : Nat → Nat → List Byte
  | 0, _ => []
  | n + 1, v => BitVec.ofNat 8 v :: toBytes n (v / 256)

/-- The little-endian value of `n` bytes of a memory. -/
def Memory.readLE (m : List Host.Cell) (a n : Nat) : Nat := fromBytes (Memory.read m a n)
/-- The memory with the `n` bytes of a value written little-endian. -/
def Memory.writeLE (m : List Host.Cell) (a n v : Nat) : List Host.Cell := Memory.write m a (toBytes n v)

/-! ### Parts of the state -/

/-- The state with one channel changed. -/
def State.updChan (s : State) (c : ChanId) (f : Chan → Chan) : State := { s with chans := s.chans.set c (f s.chans[c]) }
/-- The state with one stream changed. -/
def State.updStream (s : State) (st : StreamId) (f : Stream → Stream) : State := { s with streams := s.streams.set st (f s.streams[st]) }
/-- The state with one Meridian changed. -/
def State.updMer (s : State) (m : MerId) (f : Mer → Mer) : State := { s with mers := s.mers.set m (f s.mers[m]) }
/-- The state with one bias line changed. -/
def State.updBias (s : State) (b : BiasId) (f : BiasLine → BiasLine) : State := { s with bias := s.bias.set b (f s.bias[b]) }
/-- The state with one lookout changed. -/
def State.updLook (s : State) (n : LampId) (f : Lookout → Lookout) : State := { s with looks := s.looks.set n (f s.looks[n]) }
/-- The next free value (of 64 bits) and the state that has used it. -/
def State.fresh (s : State) : QWord × State := (Config.freeBits s.free, { s with free := s.free + 1 })

/-- Ceiling of a quotient. -/
def ceilDiv (a b : Nat) : Nat := (a + b - 1) / b
/-- `n / d` rounded to the nearest integer, ties away from zero (R110, R123, R127). -/
def roundDiv (n : Int) (d : Nat) : Int := if 0 ≤ n then (2 * n + d) / (2 * d) else -((2 * (-n) + d) / (2 * d))

/-! ### The timebase (R190, R199, R202, R206, R220) -/

/-- The leading Meridian (R35). -/
def State.leader (s : State) : MerId := if s.isSet (.merState 1) MER_STATE.LEADER then 1 else 0

/-- The divider in force of a Meridian output: 0 encodes 4,096 (R199). -/
def State.divOf (s : State) (m : MerId) (k : Fin 12) : Nat :=
  let d := s.fld (.merOut m k) MER_OUTk.DIV
  if d = 0 then 4096 else d

/-- SVCO / 100 MHz in units of 2^−24 (R190). -/
def State.svco (s : State) : Nat :=
  s.fld (.merSfreq s.leader) MER_SFREQ.M * 2 ^ 24 + s.fld (.merSfreq s.leader) MER_SFREQ.F

/-- N_s, the divider of Lamp output `n` (R190, R199). -/
def State.nsOf (s : State) (n : LampId) : Nat := s.divOf s.leader ⟨n.val, by omega⟩

/-- One gc of Lamp `n` by the settings in force is `rateNum / rateDen` q (R190, R220): 32 / fs with fs = SVCO / N_s of its output, and 1 q = 1 / (4,096 × 1.5 GHz). -/
def State.rateNum (s : State) (n : LampId) : Nat := 1966080 * s.nsOf n * 2 ^ 24
/-- See `State.rateNum`. -/
def State.rateDen (s : State) : Nat := max 1 s.svco
/-- One gc of the present grid of Lamp `n` is `gcNum / gcDen` q (R19: its granule clock is its sample clock / 32). -/
def State.gcNum (s : State) (n : LampId) : Nat := s.clock.num[n]
/-- See `State.gcNum`. -/
def State.gcDen (s : State) : Nat := max 1 s.clock.den

/-- The granule count of a Lamp, and that of a channel's Lamp. -/
def State.gran (s : State) (n : LampId) : Nat := s.clock.gran[n]
def State.granC (s : State) (c : ChanId) : Nat := s.gran (lampOf c)
/-- The Lamp whose granule count is the unit's where one count is asked for: the effect granule of a transaction, the arming of SYNC (DESIGN CHOICE, log entry 6). -/
def unitLamp : LampId := 0

/-- The time in q of granule edge `g` of a Lamp's count (R206), at or after the last restart of the grid. -/
def State.edgeTime (s : State) (n : LampId) (g : Nat) : Nat :=
  s.clock.tSync + ceilDiv ((g - s.clock.ugcBase[n]) * s.gcNum n) s.gcDen

/-- The granule count of a Lamp at time `t`. -/
def State.granAt (s : State) (n : LampId) (t : Nat) : Nat :=
  s.clock.ugcBase[n] + (t - s.clock.tSync) * s.gcDen / max 1 (s.gcNum n)

/-- The unit granule count UGC on a Lamp (R202). -/
def State.ugc (s : State) (n : LampId) : Nat := s.gran n - s.clock.ugcBase[n]

/-- The granule counts of the Lamps once time `t` is reached: they stand while the Lamp clocks do. -/
def State.gransAt (s : State) (t : Nat) : Vector Nat 4 := Vector.ofFn (fun n => if s.clock.runs[n] then max s.clock.gran[n] (s.granAt n t) else s.clock.gran[n])

/-- The state at time `t`, or unchanged where that time has passed. -/
def State.reachTime (s : State) (t : Nat) : State :=
  if t ≤ s.clock.now then s else { s with clock := { s.clock with now := t, gran := s.gransAt t } }

/-- The state at granule edge `g` of a Lamp's count, or unchanged where that edge has passed. -/
def State.reachGran (s : State) (n : LampId) (g : Nat) : State :=
  if g ≤ s.gran n then s
  else
    let t := max s.clock.now (s.edgeTime n g)
    { s with clock := { s.clock with now := t, gran := (s.gransAt t).set n (max g (s.gransAt t)[n]) } }
/-- The state at granule edge `g` of a channel's Lamp. -/
def State.reachGranC (s : State) (c : ChanId) (g : Nat) : State := s.reachGran (lampOf c) g

/-- The first granule edge of a Lamp at or after time `t`: the next one while its clock stands. -/
def State.edgeAfter (s : State) (n : LampId) (t : Nat) : Nat :=
  if s.clock.runs[n] then max s.clock.gran[n] (s.clock.ugcBase[n] + ceilDiv ((t - s.clock.tSync) * s.gcDen) (max 1 (s.gcNum n))) else s.clock.gran[n] + 1
/-- The first granule edge of a channel's Lamp at or after now. -/
def State.nextEdge (s : State) (c : ChanId) : Nat := if s.edgeTime (lampOf c) (s.granC c) = s.clock.now then s.granC c else s.granC c + 1

/-- q in 1 ns, and in the 2.5 ns and 10 ns steps and the 31.25 ns ACLK cycle of the always-on consumers (R220, R246, R248). -/
def qNs : Nat := 6144
def qUs : Nat := 6144000
def qMs : Nat := 6144000000
def q25 : Nat := 15360
def q10 : Nat := 61440
def qAclk : Nat := 192000

/-- The first time after now at which a granule edge of a Lamp whose clock runs falls; the end of an ACLK cycle where that comes first. -/
def State.nextEdgeTime (s : State) : Nat :=
  (List.finRange 4).foldl (fun t n => if s.clock.runs[n] then min t (max (s.clock.now + 1) (s.edgeTime n (s.gran n + 1))) else t) (s.clock.now + qAclk)

/-- The time since the epoch's start in q, which stamps count (R220). -/
def State.sinceEpoch (s : State) : Nat := s.clock.now - s.clock.epochAt
/-- The coarse count of the Transit unit now (R220): 4,096 q to a TCLK period. -/
def State.coarse (s : State) : Nat := s.sinceEpoch / 4096

/-! ### Dies, domains and power state (R23 to R25, R391) -/

/-- A domain is ON (R23). -/
def State.domainOn (s : State) (x : DomId) : Bool := s.domains[x] == .on

/-- The power state: 0 DARK, 1 LAID-UP, 2 SHUTTERED, 3 LIT (R391). -/
def State.pwr (s : State) : Nat := s.fld (.ext .pwrState) PWR_STATE.STATE

/-- A fixed loop is LOCKED (R192): a Meridian in service supplies the 400 MHz clock of the always-on consumers (R246). -/
def State.fixedLocked (s : State) : Bool :=
  (List.finRange 2).any (fun m => !s.dieLost[Die.ofMerid m] && s.fld (.merState m) MER_STATE.FLOOP == 3)
/-- A time of the always-on consumers on the clock they count on: in LAID-UP, and while no fixed loop is LOCKED, a whole number of ACLK cycles, rounded up (R246, R248). -/
def State.alwaysOn (s : State) (q : Nat) : Nat := if s.pwr = 1 ∨ ¬ s.fixedLocked then ceilDiv q qAclk * qAclk else q

/-- A host function's link is up and not in D3hot (R354, R367). -/
def State.linkUp (s : State) (f : Func) : Bool := s.fld (.hstLink f) HST_LINK.GEN != 0 && !s.isSet (.hstLink f) HST_LINK.D3

/-- The function a vector is sent through: HST_VROUTE, or the other function where the routed link is down (R352). -/
def State.vectorRoute (s : State) (v : Fin 128) : Func :=
  let f : Func := if bitOf (s.rd (.hstVroute ⟨v.val / 32, by omega⟩)).toNat (v.val % 32) then 1 else 0
  if s.linkUp f then f else if s.linkUp (twin f) then twin f else f

/-- The die of a beacon source (R239). -/
def dieOfSource (n : Nat) : Die :=
  if n < 384 then ⟨4 + n / 96 % 4, by omega⟩ else if n < 544 then ⟨2 + (n - 384) / 80 % 2, by omega⟩ else ⟨(n - 544) / 48 % 2, by omega⟩

/-- The domain that holds a die's control and registers: LCTL, DCTL or AON (R23). -/
def domOfDie (x : Die) : DomId :=
  if x.val < 2 then ⟨68 + 4 * (x.val % 2), by omega⟩ else if x.val < 4 then ⟨48 + 10 * (x.val % 2), by omega⟩ else ⟨12 * ((x.val - 4) % 4), by omega⟩

/-- A die is in service: not lost, and its control domain ON. -/
def State.dieUp (s : State) (x : Die) : Bool := !s.dieLost[x] && s.domainOn (domOfDie x)

/-- The domain that holds the block of a beacon source (R23, R239, R254). The lookout measures what the sources 14 to 17 of a channel and BIAS_DEV report (DESIGN CHOICE, log entry 106). -/
def domOfSource (n : Nat) : DomId :=
  if n < 384 then
    let l : LampId := ⟨n / 96 % 4, by omega⟩
    let i := n % 96
    if i < 72 then (if 14 ≤ i % 18 then domLook l else domChan (chanOfLamp l ⟨i / 18 % 4, by omega⟩))
    else if i = 72 then domLctl l
    else if i < 81 then domBias l
    else if i < 83 then domLook l
    else domLctl l
  else if n < 544 then
    let d : DomeId := ⟨(n - 384) / 80 % 2, by omega⟩
    let i := (n - 384) % 80
    if i < 67 then domDctl d
    else if i < 72 then domPort d ⟨(i - 67) % 5, by omega⟩
    else if i < 74 then domPlate d
    else if i = 76 then domPcie d
    else domDctl d
  else
    let m : MerId := ⟨(n - 544) / 48 % 2, by omega⟩
    let i := (n - 544) % 48
    if i < 9 then domSyn m else if i < 35 then domTrn m else domAon m

/-- A source can publish: its die takes part in the fabric and the domain of its block is not OFF (R24), and in LAID-UP it is one of the sources of R250. -/
def State.sourceAlive (s : State) (n : Nat) : Bool :=
  s.dieUp (dieOfSource n)
  && s.domains[domOfSource n] != .off && s.domains[domOfSource n] != .retired
  && (s.pwr != 1 || (544 ≤ n && (let i := (n - 544) % 48; (9 ≤ i && i ≤ 24) || (35 ≤ i && i ≤ 42))))

/-! ### Commands on a die under test (R375) -/

/-- The reserved bits of an RW or LK register (R375). -/
def Reg.reservedMask (r : Reg) : Word := (r.fields.filter (fun f => f.access == .rsv)).foldl (fun m f => m ||| f.mask) 0

/-- A reserved bit of the die differs from its reset value: some reserved bits are live test controls (R375). -/
def State.underTest (s : State) (d : Die) : Bool := s.regs.any (fun p => p.1.die == d && (p.2 ^^^ p.1.reset) &&& p.1.reservedMask != 0)

/-- The outcome of a command that acts on dies. For a die under test controls the rules of the manual do not hold, and the spec gives no others (R375): a free value then decides whether the command has its
effect or none (DESIGN CHOICE, log entry 114). -/
def State.act (s : State) (dies : List Die) (f : State → State) : Host.Outcome State Fault Refusal :=
  match dies.find? s.underTest with
  | some _ => let (v, s) := s.fresh; .next (if v.getLsbD 0 then f s else s)
  | none => .next (f s)

end Sys2Proof.Machine
end

