-- ==== Sys2Proof/Machine/Fabric.lean ====
section
/-! DEFINITION. The beacon fabric: sources, publication, deliveries, timers and event outputs (spec 09_beacon_fabric.md R238 to R255). -/
namespace Sys2Proof.Machine
open Sys2Proof

/-- The sources of one channel, in the order of their local index (R254). -/
inductive ChanSource where
  | visitPub | chanEnd | primeGap | walkFault | swapDone | segLost | relayShort | jmpTaken | jmpLate | jmpDegraded | jmpDropped
  | group | lantSat | rangeDone | lookFail | cellSwap | cellSwapDue | cellExhausted
deriving DecidableEq, Repr

/-- The first nine sources of a Meridian, on MER_CTRL.EV_CH (R254). -/
inductive MerSource where
  | lockLost | refLost | phaseBeyond | stepped | syncDone | syncRefused | failover | twinRange | spareIn
deriving DecidableEq, Repr

/-- The events of a stream (R144, R254). -/
inductive StreamEvent where
  | filled | low | resumed | high | underrun | drained | lost | block
deriving DecidableEq, Repr

/-- The 640 sources (R239, R254); the reserved ones never publish. -/
inductive Source where
  | chan (c : ChanId) (k : ChanSource)
  | darkN (n : LampId) | biasLine (b : BiasId) | biasDev (n : LampId) | selfFail (n : LampId) | hwl (n : LampId) (d : DomeId)
  | clkSwitch (n : LampId) | regVote (n : LampId) | regParity (n : LampId) | storeFault (n : LampId) | epochStale (n : LampId) | thermal (n : LampId)
  | stream (st : StreamId) (e : StreamEvent)
  | keep (k : KeeperId) | shadow (d : DomeId) | memPort (d : DomeId) (p : PortId) | pbCollide (d : DomeId) | pbEcc (d : DomeId) | hwx (d : DomeId)
  | peerLost (d : DomeId) | pcie (d : DomeId) | ring (d : DomeId) | reg (d : DomeId)
  | mer (m : MerId) (k : MerSource)
  | port (m : MerId) (p : Fin 16) | stuck (m : MerId) | log (m : MerId) | done (m : MerId) (e : EngId)
  | timer (m : MerId) (t : TimerId) | pwrState (m : MerId) | ledger (m : MerId) | epoch (m : MerId) | hatch (m : MerId)
  | twinLost (m : MerId) | dieLost (m : MerId) | inject (m : MerId) | wake (m : MerId)
deriving DecidableEq, Repr

def ChanSource.index : ChanSource → Nat
  | .visitPub => 0 | .chanEnd => 1 | .primeGap => 2 | .walkFault => 3 | .swapDone => 4 | .segLost => 5 | .relayShort => 6
  | .jmpTaken => 7 | .jmpLate => 8 | .jmpDegraded => 9 | .jmpDropped => 10 | .group => 11 | .lantSat => 12 | .rangeDone => 13
  | .lookFail => 14 | .cellSwap => 15 | .cellSwapDue => 16 | .cellExhausted => 17

def MerSource.index : MerSource → Nat
  | .lockLost => 0 | .refLost => 1 | .phaseBeyond => 2 | .stepped => 3 | .syncDone => 4 | .syncRefused => 5 | .failover => 6
  | .twinRange => 7 | .spareIn => 8

def StreamEvent.index : StreamEvent → Nat
  | .filled => 0 | .low => 1 | .resumed => 2 | .high => 3 | .underrun => 4 | .drained => 5 | .lost => 6 | .block => 7

/-- The global number of a source: the die's base and the local index (R239, R254). -/
def Source.num : Source → Nat
  | .chan c k => 96 * (c.val / 4) + 18 * (c.val % 4) + k.index
  | .darkN n => 96 * n.val + 72
  | .biasLine b => 96 * (b.val / 8) + 73 + b.val % 8
  | .biasDev n => 96 * n.val + 81
  | .selfFail n => 96 * n.val + 82
  | .hwl n d => 96 * n.val + 83 + d.val
  | .clkSwitch n => 96 * n.val + 85
  | .regVote n => 96 * n.val + 86
  | .regParity n => 96 * n.val + 87
  | .storeFault n => 96 * n.val + 88
  | .epochStale n => 96 * n.val + 89
  | .thermal n => 96 * n.val + 90
  | .stream st e => 384 + 80 * (st.val / 8) + 8 * (st.val % 8) + e.index
  | .keep k => 384 + 80 * (k.val / 2) + 64 + k.val % 2
  | .shadow d => 384 + 80 * d.val + 66
  | .memPort d p => 384 + 80 * d.val + 67 + p.val
  | .pbCollide d => 384 + 80 * d.val + 72
  | .pbEcc d => 384 + 80 * d.val + 73
  | .hwx d => 384 + 80 * d.val + 74
  | .peerLost d => 384 + 80 * d.val + 75
  | .pcie d => 384 + 80 * d.val + 76
  | .ring d => 384 + 80 * d.val + 77
  | .reg d => 384 + 80 * d.val + 78
  | .mer m k => 544 + 48 * m.val + k.index
  | .port m p => 544 + 48 * m.val + 9 + p.val
  | .stuck m => 544 + 48 * m.val + 25
  | .log m => 544 + 48 * m.val + 26
  | .done m e => 544 + 48 * m.val + 27 + e.val
  | .timer m t => 544 + 48 * m.val + 35 + t.val
  | .pwrState m => 544 + 48 * m.val + 39
  | .ledger m => 544 + 48 * m.val + 40
  | .epoch m => 544 + 48 * m.val + 41
  | .hatch m => 544 + 48 * m.val + 42
  | .twinLost m => 544 + 48 * m.val + 43
  | .dieLost m => 544 + 48 * m.val + 44
  | .inject m => 544 + 48 * m.val + 45
  | .wake m => 544 + 48 * m.val + 46

/-- The register of a source (R240). -/
def Source.reg' (src : Source) : Reg := .bcnSrc (Fin.ofNat 640 src.num)

/-- The field of the source's own block that names its channel, for the sources that have one (R240, R254): CH_OWNED. -/
def Source.owned : Source → Option (Reg × FieldSpec)
  | .chan c .jmpTaken => some (.jmpCtrl c, JMP_CTRL.EV_CH)
  | .chan c .jmpLate => some (.jmpCtrl c, JMP_CTRL.EV_CH)
  | .chan c .jmpDegraded => some (.jmpCtrl c, JMP_CTRL.EV_CH)
  | .chan c .jmpDropped => some (.jmpCtrl c, JMP_CTRL.EV_CH)
  | .chan c .lantSat => some (.lantCtrl c, LANT_CTRL.EV_CH)
  | .chan c .rangeDone => some (.outCtrl c, OUT_CTRL.EV_CH)
  | .chan c .lookFail => some (.lookCtrl (lampOf c), LOOK_CTRL.EV_CH)
  | .chan c .cellSwap => some (.lookCtrl (lampOf c), LOOK_CTRL.EV_CH)
  | .chan c .cellSwapDue => some (.lookCtrl (lampOf c), LOOK_CTRL.EV_CH)
  | .chan c .cellExhausted => some (.lookCtrl (lampOf c), LOOK_CTRL.EV_CH)
  | .darkN n => some (.outCtrl (chanOfLamp n 0), OUT_CTRL.EV_CH)
  | .biasLine b => some (.biasCommon (lampOfBias b), BIAS_COMMON.EV_CH)
  | .biasDev n => some (.lookCtrl n, LOOK_CTRL.EV_CH)
  | .selfFail n => some (.lookCtrl n, LOOK_CTRL.EV_CH)
  | .stream st _ => some (.tndCtrl st, TND_CTRL.EV_CH)
  | .mer m _ => some (.merCtrl m, MER_CTRL.EV_CH)
  | .port _ p => some (.trnPort p, TRN_PORTp.CH)
  | .stuck _ => some (.trnCtrl, TRN_CTRL.EV_CH)
  | .log _ => some (.trnCtrl, TRN_CTRL.EV_CH)
  | .done _ _ => some (.trnCtrl, TRN_CTRL.EV_CH)
  | .timer _ t => some (.bcnTmrCtrl t, BCN_TMRt_CTRL.CH)
  | .inject _ => some (.bcnInject, BCN_INJECT.CH)
  | _ => none

/-- The channel a source publishes on now (R240). VISIT_PUB is given its entry's PUB_CH where it publishes. -/
def Source.channel (src : Source) (s : State) : BeaconCh :=
  Fin.ofNat 256 (match src.owned with
    | some (r, f) => s.fld r f
    | none => s.fld src.reg' BCN_SRCs.CH)

/-! ### Deliveries (R242 to R245) -/

/-- The channel a task input subscribes to, when it does (R238, R245). -/
def State.consChannel (s : State) (i : ConsId) : Option BeaconCh :=
  let ch : BeaconCh := Fin.ofNat 256 (s.fld (.bcnCons i) BCN_CONSi.CH)
  if s.isSet (.bcnCons i) BCN_CONSi.EN ∧ ch ≠ 0 ∧ ¬ (205 ≤ i.val ∧ i.val ≤ 207) then some ch else none

/-- The task inputs subscribed to a channel (R245). -/
def State.subscribers (s : State) (ch : BeaconCh) : List Consumer :=
  ((List.finRange 16).filter (fun c => decide (ch ∈ s.chans[c].subs))).map .engine
  ++ ((List.finRange 212).filter (fun i => decide (s.consChannel i = some ch))).map .task

/-- The power domain of a task input (R245), by its place in `State.domains`. -/
def Consumer.domain (s : State) : Consumer → DomId
  | .engine c => domChan c
  | .task i =>
    if i.val < 64 then domDctl ⟨i.val / 32 % 2, by omega⟩
    else if h : i.val < 192 then domPcie (s.vectorRoute ⟨i.val - 64, by omega⟩)
    else if i.val < 208 then domAon s.leader
    else domDctl 0

/-- The delivery in flight on a channel. -/
def State.delivery (s : State) (ch : BeaconCh) : Option Delivery := s.fabric.inFlight.find? (fun d => d.ch == ch)

/-- The in-flight map of BCN_INFLIGHT with one channel's bit set or clear. -/
def State.setInFlight (s : State) (ch : BeaconCh) (b : Bool) : State :=
  s.setFlag (.bcnInflight ⟨ch.val / 32, by omega⟩) ⟨ch.val % 32, 1, .ro, false, 0⟩ b

/-- An event is dropped for a subscriber whose domain is OFF and counted (R24, R243). -/
def State.dropOff (s : State) (n : Nat) : State :=
  if n = 0 then s else (s.bumpBy .bcnDropOff BCN_DROP_OFF.COUNT n).raise .bcnStatus BCN_STATUS.DROP_OFF

/-- A publication joins the delivery in flight on its channel. The arbiter (R244): of two publications in one instant the one with the lower source number is delivered. Two between which the block's time stands still, and whose delivery no consumer has taken,
are in one instant (DESIGN CHOICE, log entry 107). -/
def State.arbitrate (s : State) (ch : BeaconCh) (p : Payload) : State :=
  { s with fabric := { s.fabric with inFlight := s.fabric.inFlight.map (fun d =>
      if d.ch = ch then
        { d with
          payload := if d.born = s.clock.now ∧ ¬ d.taken ∧ p.src < d.payload.src then p else d.payload
          sources := if p.src ∈ d.sources then d.sources else d.sources ++ [p.src] }
      else d) } }

/-- A publication on a channel: nothing on channel 0 (R238); merged into a delivery in flight (R244); else a new delivery to every
subscribed task input, those in an OFF domain acknowledged at once, dropped and counted (R242, R243). -/
def State.deliver (s : State) (ch : BeaconCh) (p : Payload) : State :=
  if ch = 0 then s
  else match s.delivery ch with
    | some _ => (((s.arbitrate ch p).bump (.bcnChOvr ch) BCN_CHc_OVR.COUNT)).raise .bcnStatus BCN_STATUS.CH_MERGE
    | none =>
      let subs := s.subscribers ch
      let live := subs.filter (fun x => s.domainOn (x.domain s))
      let s := s.dropOff (subs.length - live.length)
      let s := { s with fabric := { s.fabric with inFlight := s.fabric.inFlight ++ [Delivery.mk ch p s.clock.now live false [p.src]] } }
      s.setInFlight ch true

/-- Whether a publication merges: a delivery is in flight on the channel (R244). -/
def State.merges (s : State) (ch : BeaconCh) : Bool := (s.delivery ch).isSome

/-- A source publishes on a channel with an information word and, for a Transit port, a record: only while BCN_SRCs.EN is set, the channel is not
0 and the source's own domain takes part (R24, R238, R240, R241). -/
def State.publishOn (s : State) (src : Source) (ch : BeaconCh) (info : Nat) (stamp : Option StampRec) : State :=
  if s.isSet src.reg' BCN_SRCs.EN ∧ s.sourceAlive src.num then s.deliver ch (Payload.mk src.num (BitVec.ofNat 32 info) stamp) else s

/-- A source publishes on its channel (R240). -/
def State.publish (s : State) (src : Source) (info : Nat) : State := s.publishOn src (src.channel s) info none

/-- A source whose information word the source map leaves to a register it does not name publishes with a free value (R254). -/
def State.publishFree (s : State) (src : Source) : State :=
  let (v, s) := s.fresh
  s.publish src (v.toNat % 2 ^ 32)
/-- The word a power state or domain change publishes, and the end of an exit: PWR_STATE as it stands (R254). -/
def State.pwrWord (s : State) : Nat := (s.rd (.ext .pwrState)).toNat

/-! ### Power domains (R23 to R25, R413) -/

/-- A bias line at high impedance; when it drives again its first target is driven at once (R179, R180). -/
def BiasLine.highZ (x : BiasLine) : BiasLine := { x with drives := false, first := true, holding := false, synced := false }

/-- A domain holds nothing: OFF, for now or for good. -/
def DomState.gone (v : DomState) : Bool := v == .off || v == .retired
/-- The admission records once the domains have changed: that of a die of which a domain goes OFF is cleared (R410). -/
def State.recordsAfter (s : State) (doms : Vector DomState 76) : Vector Nat 8 :=
  Vector.ofFn (fun x => if (List.finRange 76).any (fun y => dieOfDom y == x && !s.domains[y].gone && doms[y].gone) then 0 else s.power.records[x])

/-- Domains change their state, except those retired, which stay OFF (R25); a change of any of them publishes PWR_STATE once. The lines of a BIAS domain that is not ON go to high impedance (R180). -/
def State.mapDoms (s : State) (f : DomId → DomState → DomState) : State :=
  let doms : Vector DomState 76 := Vector.ofFn (fun x => if s.domains[x] = .retired then .retired else f x s.domains[x])
  if doms = s.domains then s
  else { s with domains := doms, power := { s.power with records := s.recordsAfter doms }, bias := Vector.ofFn (fun b => if doms[domBias (lampOfBias b)] = DomState.on then s.bias[b] else s.bias[b].highZ) }.publish (.pwrState s.leader) s.pwrWord
/-- The domains of a list change to one state. -/
def State.setDoms (s : State) (xs : List DomId) (v : DomState) : State := s.mapDoms (fun x y => if x ∈ xs then v else y)

/-! ### Timers (R248) -/

/-- Grid instant `k` of a timer after its start, k × DELAY × 10 ns, and MINP, in q on the clock it counts on; DELAY 0 acts as 1. -/
def State.timerSpan (s : State) (t : TimerId) (k : Nat) : Nat := s.alwaysOn (k * max 1 (s.fld (.bcnTmrDelay t) BCN_TMRt_DELAY.DELAY) * q10)
def State.timerMinp (s : State) (t : TimerId) : Nat := s.alwaysOn (s.fld (.bcnTmrMinp t) BCN_TMRt_MINP.MINP * q10)

/-- The state with one timer changed. -/
def State.updTimer (s : State) (t : TimerId) (f : Timer → Timer) : State :=
  { s with fabric := { s.fabric with timers := s.fabric.timers.set t (f s.fabric.timers[t]) } }

/-- The consumer index of a timer's task input (R245). -/
def consOfTimer (t : TimerId) : ConsId := ⟨200 + t.val, by omega⟩

/-- A timer starts, or restarts with the schedule in progress dropped. -/
def State.timerStart (s : State) (t : TimerId) : State :=
  let s := s.updTimer t (fun x => { x with start := s.clock.now, ticks := 0, deferred := false })
  (s.raise (.bcnTmrCtrl t) BCN_TMRt_CTRL.RUNNING).raise (.bcnConsStat (consOfTimer t)) BCN_CONSi_STAT.BUSY

/-- A timer is no longer running, and its task input no longer busy. -/
def State.timerHalt (s : State) (t : TimerId) : State :=
  let s := s.updTimer t (fun x => { x with deferred := false })
  (s.setFld (.bcnTmrCtrl t) BCN_TMRt_CTRL.RUNNING 0).setFld (.bcnConsStat (consOfTimer t)) BCN_CONSi_STAT.BUSY 0

/-- A write of 1 to STOP: the timer stops and a pending activation of its input is discarded. -/
def State.timerStop (s : State) (t : TimerId) : State :=
  (s.timerHalt t).setFld (.bcnConsStat (consOfTimer t)) BCN_CONSi_STAT.PENDING 0

/-- A timer publishes now as TIMERt; in ONE_SHOT it then stops. -/
def State.timerPublish (s : State) (t : TimerId) : State :=
  let s := s.updTimer t (fun x => { x with lastPub := some s.clock.now, deferred := false })
  let s := s.publish (.timer s.leader t) 0
  if s.isSet (.bcnTmrCtrl t) BCN_TMRt_CTRL.MODE then s else s.timerHalt t

/-- A grid instant of a running timer: the publication, or its deferral under MINP. -/
def State.timerInstant (s : State) (t : TimerId) : State :=
  let x := s.fabric.timers[t]
  let due := x.start + s.timerSpan t (x.ticks + 1)
  let s := s.reachTime due
  let s := s.updTimer t (fun x => { x with ticks := x.ticks + 1 })
  match x.lastPub with
  | none => s.timerPublish t
  | some p => if due < p + s.timerMinp t then s.updTimer t (fun x => { x with deferred := true }) else s.timerPublish t

/-! ### Event outputs (R249) -/

/-- The state with one event output changed. -/
def State.updEvOut (s : State) (j : EvOutId) (f : EvOut → EvOut) : State :=
  { s with fabric := { s.fabric with evOut := s.fabric.evOut.set j (f s.fabric.evOut[j]) } }

/-- The consumer index of an event output (R245). -/
def consOfEvOut (j : EvOutId) : ConsId := ⟨192 + j.val, by omega⟩

/-- WIDTH in 2.5 ns steps: 0 encodes 1,024. -/
def State.evWidth (s : State) (j : EvOutId) : Nat :=
  let w := s.fld (.bcnEvout j) BCN_EVOUTj.WIDTH
  if w = 0 then 1024 else w

/-- An activation of an event output: a pulse in PULSE mode, timed by the clock of R246, during which its input is busy; an inversion in TOGGLE mode. -/
def State.evOutDrive (s : State) (j : EvOutId) : State :=
  if s.isSet (.bcnEvout j) BCN_EVOUTj.MODE then s.updEvOut j (fun x => { x with active := !x.active })
  else (s.updEvOut j (fun _ => ⟨true, some (s.clock.now + s.alwaysOn (s.evWidth j * q25))⟩)).raise (.bcnConsStat (consOfEvOut j)) BCN_CONSi_STAT.BUSY

/-- The end of a pulse: the output returns to its inactive level and its input is no longer busy. -/
def State.evOutEnd (s : State) (j : EvOutId) : State :=
  (s.updEvOut j (fun _ => ⟨false, none⟩)).setFld (.bcnConsStat (consOfEvOut j)) BCN_CONSi_STAT.BUSY 0

/-- The level at an EV_OUT ball: POL inverts the active level. -/
def State.evOutLevel (s : State) (j : EvOutId) : Bool := s.fabric.evOut[j].active != s.isSet (.bcnEvout j) BCN_EVOUTj.POL

/-! ### Arrival at a task input (R246, R247) -/

/-- A delivery without one of the task inputs it waits for. -/
def State.acknowledge (s : State) (ch : BeaconCh) (x : Consumer) : State :=
  { s with fabric := { s.fabric with inFlight := s.fabric.inFlight.map (fun d =>
      if d.ch = ch then { d with waiting := d.waiting.filter (· ≠ x), taken := true } else d) } }

/-- Events on one channel that reach a task input in one sampling cycle merge into one activation, which is counted (R246). -/
def State.mergeAt (s : State) (i : ConsId) (extra : Nat) : State :=
  if extra = 0 then s
  else ((s.bump (.bcnConsMerged i) BCN_CONSi_MERGED.COUNT).raise (.bcnConsStat i) BCN_CONSi_STAT.MERGED).raise .bcnStatus BCN_STATUS.CONS_MERGED

/-- A task input is busy (R245). -/
def State.inputBusy (s : State) (i : ConsId) : Bool := s.isSet (.bcnConsStat i) BCN_CONSi_STAT.BUSY
/-- A task input has an activation pending (R247). -/
def State.inputPending (s : State) (i : ConsId) : Bool := s.isSet (.bcnConsStat i) BCN_CONSi_STAT.PENDING

/-- An event received by a busy task input, or by one with an activation pending: counted, and one activation left pending (R247). -/
def State.overrun (s : State) (i : ConsId) : State :=
  (((s.bump (.bcnConsOvr i) BCN_CONSi_OVR.COUNT).raise (.bcnConsStat i) BCN_CONSi_STAT.OVERRUN).raise (.bcnConsStat i) BCN_CONSi_STAT.PENDING).raise
    .bcnStatus BCN_STATUS.CONS_OVR

/-- A delivery ends: its channel leaves in-flight (R242). -/
def State.endDelivery (s : State) (ch : BeaconCh) : State :=
  let s := { s with fabric := { s.fabric with inFlight := s.fabric.inFlight.filter (fun d => d.ch ≠ ch) } }
  s.setInFlight ch false

/-- The hub completes the legs that have not returned to zero, and counts each (R243). -/
def State.legTimeout (s : State) (ch : BeaconCh) (n : Nat) : State :=
  ((s.bumpBy .bcnLegTimeout BCN_LEG_TIMEOUT.COUNT n).raise .bcnStatus BCN_STATUS.LEG_TIMEOUT).endDelivery ch

end Sys2Proof.Machine
end

