-- ==== Sys2Proof/Machine/Rings.lean ====
section
/-! DEFINITION. Dispatch and report rings, the completion of a descriptor, reports, vectors and the closing of transactions (spec 13_host_rings.md). -/
namespace Sys2Proof.Machine
open Sys2Proof

/-! ### Reason codes (R361) -/

def Reason.ok : Nat := 0
def Reason.badOpcode : Nat := 0x0001
def Reason.badField : Nat := 0x0002
def Reason.noFeatures : Nat := 0x0003
def Reason.dmaFault : Nat := 0x0004
def Reason.aborted : Nat := 0x0005
def Reason.ringState : Nat := 0x0006
def Reason.linkLost : Nat := 0x0007
def Reason.imageBusy : Nat := 0x0008
def Reason.txnState : Nat := 0x0101
def Reason.txnFull : Nat := 0x0102
def Reason.txnConflict : Nat := 0x0103
def Reason.regAddress : Nat := 0x0104
def Reason.regLocked : Nat := 0x0105
def Reason.commitLate : Nat := 0x0106
def Reason.formChanged : Nat := 0x0107
def Reason.channelState : Nat := 0x0108
def Reason.rolledBack : Nat := 0x0109
def Reason.ugcReset : Nat := 0x010A
def Reason.activeTable : Nat := 0x0201
def Reason.pb1Full : Nat := 0x0202
def Reason.tableBusy : Nat := 0x0203
def Reason.charField : Nat := 0x0204
def Reason.charIndex : Nat := 0x0205
def Reason.charSegment : Nat := 0x0206
def Reason.markerRange : Nat := 0x0207
def Reason.frameDepth : Nat := 0x0208
def Reason.bandwidth : Nat := 0x0209
def Reason.mirrorDown : Nat := 0x020A
def Reason.readyFull : Nat := 0x0301
def Reason.readyStream : Nat := 0x0302
def Reason.jumpChannels : Nat := 0x0303
def Reason.timedSource : Nat := 0x0304
def Reason.jumpWindow : Nat := 0x0305
def Reason.groupClock : Nat := 0x0306
def Reason.lantInterp : Nat := 0x0401
def Reason.groupLatency : Nat := 0x0402
def Reason.pairSlave : Nat := 0x0403
def Reason.streamInterp : Nat := 0x0501
def Reason.streamBound : Nat := 0x0502
def Reason.tenderFallback : Nat := 0x0503
def Reason.tenderRegion : Nat := 0x0504
def Reason.tenderRate : Nat := 0x0505
def Reason.tenderGroup : Nat := 0x0506
def Reason.tenderUnfilled : Nat := 0x0507
def Reason.tenderBusy : Nat := 0x0508
def Reason.tenderWm : Nat := 0x0509
def Reason.tenderLimit : Nat := 0x050A
def Reason.memRate : Nat := 0x0601
def Reason.memBusy : Nat := 0x0602
def Reason.eventLoop : Nat := 0x0701
def Reason.signature : Nat := 0x0801
def Reason.noOwner : Nat := 0x0802
def Reason.imageField : Nat := 0x0803
def Reason.keyEnrolled : Nat := 0x0804
def Reason.fuseDone : Nat := 0x0805
def Reason.partLit : Nat := 0x0806

/-! ### Host memory and the doorbell page (R341) -/

/-- The state with the host interface changed. -/
def State.updHost (s : State) (f : HostIf → HostIf) : State := { s with host := f s.host }
/-- The state with one dispatch ring, report ring or transaction slot changed. -/
def State.updDring (s : State) (r : RingId) (f : DRing → DRing) : State := s.updHost (fun h => { h with drings := h.drings.set r (f h.drings[r]) })
def State.updRring (s : State) (r : RingId) (f : RRing → RRing) : State := s.updHost (fun h => { h with rrings := h.rrings.set r (f h.rrings[r]) })
def State.updTxn (s : State) (t : TxnId) (f : Txn → Txn) : State := s.updHost (fun h => { h with txns := h.txns.set t (f h.txns[t]) })
/-- The state with bytes of host memory written (R338). -/
def State.hostWrite (s : State) (a : Nat) (bs : List Byte) : State := s.updHost (fun h => { h with mem := Memory.write h.mem a bs })
/-- Bytes of host memory. -/
def State.hostRead (s : State) (a n : Nat) : List Byte := Memory.read s.host.mem a n

/-- The doorbell page address (R341, R388). -/
def State.doorbell (s : State) : Nat := s.fld (.glob .dbLo) DB_LO.ADDR_LO * 4096 + s.fld (.glob .dbHi) DB_HI.ADDR_HI * 2 ^ 32
/-- A doorbell slot: a little-endian count (R341). -/
def State.slotAt (s : State) (i : Nat) : Nat := Memory.readLE s.host.mem (s.doorbell + 8 * i) 8

/-- The distance from one index to another, modulo 2^64 (R341). -/
def indexGap (from_ to_ : Nat) : Nat := (to_ + 2 ^ 64 - from_ % 2 ^ 64) % 2 ^ 64

/-! ### Vectors (R352) -/

/-- The consumer index of a vector's task input (R245). -/
def consOfVector (v : Fin 128) : ConsId := ⟨64 + v.val, by omega⟩

/-- A vector is requested: busy until its message is sent; a request that finds it pending merges with it, with no count. -/
def State.requestVector (s : State) (v : Fin 128) : State := s.raise (.bcnConsStat (consOfVector v)) BCN_CONSi_STAT.BUSY

/-! ### Report rings (R343, R349, R350) -/

/-- Vector and coalescing of a report ring: ring 0's are those of its registers (R388). -/
def State.vectorOf (s : State) (r : RingId) : Fin 128 := if r = 0 then Fin.ofNat 128 (s.fld (.glob .rring0Cfg) RRING0_CFG.VECTOR) else s.host.rrings[r].vector
def State.coalCountOf (s : State) (r : RingId) : Nat := if r = 0 then s.fld (.glob .rring0Cfg) RRING0_CFG.COAL_COUNT else s.host.rrings[r].coalCount
def State.coalTimeOf (s : State) (r : RingId) : Nat := if r = 0 then s.fld (.glob .rring0Coal) RRING0_COAL.TIME else s.host.rrings[r].coalTime

/-- No entry of a report ring is free for one more report after those written and `n` more: its position does not lie below the consumer index plus the ring size (R350). A consumer index that is ahead
leaves the entry free. -/
def State.rringFull (s : State) (r : RingId) (n : Nat) : Bool :=
  let gap := indexGap (s.slotAt (64 + r.val)) (s.host.rrings[r].prod + n)
  decide (2 ^ s.host.rrings[r].log2 ≤ gap ∧ gap < 2 ^ 63)

/-- A report joins those a ring is to write. -/
def State.queueReport (s : State) (r : RingId) (rep : Report) : State :=
  if s.host.rrings[r].up then s.updRring r (fun x => { x with waiting := x.waiting ++ [rep] }) else s

/-- An ASYNC report: dropped and counted where its ring is full (R350, R351). -/
def State.asyncReport (s : State) (r : RingId) (code : Byte) (detail : Nat) : State :=
  let x := s.host.rrings[r]
  if ¬ x.up then s
  else if s.rringFull r x.waiting.length then (s.bump (.hstAsyncDrop x.func) HST_ASYNC_DROP.COUNT).raise (.hstStatus x.func) HST_STATUS.ASYNC_DROP
  else s.queueReport r ⟨code, true, x.func, 0, 0, 0, 0, 0, BitVec.ofNat 64 detail, false⟩

/-- The four words of a report as written at an index of its ring (R349): PHASE is 1 on the first pass and inverted on every pass. -/
def reportBytes (rep : Report) (phase : Bool) (stamp : Nat) : List Byte :=
  toBytes 8 (rep.code.toNat + (if phase then 2 ^ 8 else 0) + (if rep.async then 2 ^ 9 else 0) + rep.func.val * 2 ^ 10 + rep.status % 2 ^ 16 * 2 ^ 16 + rep.tag.toNat * 2 ^ 32)
  ++ toBytes 8 (rep.dring.val + rep.dindex % 2 ^ 16 * 2 ^ 16 + rep.dcons % 2 ^ 16 * 2 ^ 32)
  ++ toBytes 8 rep.detail.toNat
  ++ toBytes 8 stamp

/-- A ring requests its vector at its COAL_COUNTth report, or for a report with IRQ (R352). -/
def State.announce (s : State) (r : RingId) (irq : Bool) : State :=
  let x := s.host.rrings[r]
  if irq ∨ s.coalCountOf r ≤ x.since + 1 then (s.updRring r (fun x => { x with since := 0, first := none })).requestVector (s.vectorOf r)
  else s.updRring r (fun x => { x with since := x.since + 1, first := some (x.first.getD s.clock.now) })

/-- The next report of a ring is written into a free entry through the function that serves it (R338, R343, R350). -/
def State.postReport (s : State) (r : RingId) : State :=
  let x := s.host.rrings[r]
  match x.waiting with
  | [] => s
  | rep :: rest =>
    if ¬ x.up ∨ ¬ s.linkUp x.func ∨ s.rringFull r 0 then s
    else
      let size := 2 ^ x.log2
      let phase := (x.prod / size - x.start / size) % 2 == 0
      let s := s.hostWrite (x.base + x.prod % size * 32) (reportBytes rep phase s.coarse)
      (s.updRring r (fun x => { x with waiting := rest, prod := (x.prod + 1) % 2 ^ 64 })).announce r rep.irq

/-- Every report that can be written is written. -/
def State.postAll (s : State) : State := (List.finRange 64).foldl (fun s r => s.host.rrings[r].waiting.foldl (fun s _ => s.postReport r) s) s

/-! ### Dispatch rings (R343 to R345, R348) -/

/-- The report ring a descriptor's report goes to: the one it names, or its dispatch ring's default where that is not set up (R348). -/
def State.reportRingOf (s : State) (h : DescHdr) : RingId :=
  if s.host.rrings[h.reportRing].up then h.reportRing
  else if h.ring = 0 then Fin.ofNat 64 (s.fld (.glob .dring0Cfg) DRING0_CFG.DEF_RRING) else s.host.drings[h.ring].defReport

/-- A completion of a ring waits because its report ring is full (R350). -/
def State.ringStalled (s : State) (r : RingId) : Bool :=
  (List.finRange 64).any (fun q => s.rringFull q 0 && s.host.rrings[q].waiting.any (fun rep => !rep.async && rep.dring == r))

/-- The consumer index of a dispatch ring: it stands at a descriptor that waits for room in its report ring (R341, R350). -/
def State.consumerOf (s : State) (r : RingId) : Nat :=
  match (List.finRange 64).findSome? (fun q => if s.rringFull q 0 then s.host.rrings[q].waiting.find? (fun rep => !rep.async && rep.dring == r) else none) with
  | some rep => rep.dindex
  | none => s.host.drings[r].cons

/-- Every descriptor the function fetched before number `seq` has completed (R344). -/
def State.fencePassed (s : State) (f : Func) (r : RingId) (seq : Nat) : Bool :=
  (List.finRange 64).all (fun q => q == r || !(s.host.drings[q].up && s.host.drings[q].func == f)
    || (s.host.drings[q].began.isNone && !s.ringStalled q && s.host.drings[q].fetched.all (fun x => x.done || decide (seq ≤ x.seq))))

/-- ST-14 is complete and the part not halted: descriptors are served (R340, R398), outside LAID-UP (R407). -/
def State.serves (s : State) : Bool := decide (14 ≤ s.fld (.glob .gStart) START.STEP) && !s.isSet (.ext .pwrState) PWR_STATE.HALTED && decide (2 ≤ s.pwr)

/-- A descriptor can begin on its ring: the ring is set up and served over a link that is up, the descriptor before it has completed with its report written or writable,
and a FENCE has passed (R28, R344, R350). -/
def State.canBegin (s : State) (h : DescHdr) : Bool :=
  let x := s.host.drings[h.ring]
  x.up && s.linkUp x.func && s.serves && x.began.isNone && !s.ringStalled h.ring
  && (!h.fence || s.fencePassed x.func h.ring (match x.fetched with | y :: _ => y.seq | [] => s.host.seq))

/-- Descriptors that completed early are consumed with those before them (R344, R345). -/
def DRing.pass (x : DRing) : DRing :=
  if x.began.isSome then x
  else let n := (x.fetched.takeWhile (·.done)).length; { x with cons := (x.cons + n) % 2 ^ 64, fetched := x.fetched.drop n }

/-- A descriptor's report is queued where it asks for one or fails (R346, R348, R349); one that ends with RING_STATE is a ring error, which RING publishes (R367). -/
def State.finish (s : State) (ref : DescRef) (status detail : Nat) : State :=
  let s := if status = Reason.ringState then s.publishFree (.ring ref.func) else s
  if ref.hdr.report ∨ status ≠ 0 then
    s.queueReport (s.reportRingOf ref.hdr) ⟨ref.code, false, ref.func, status, ref.hdr.tag, ref.hdr.ring, ref.index, ref.index + 1, BitVec.ofNat 64 detail, ref.hdr.irq⟩
  else s

/-- A descriptor completes (R344, R348, R349): the ring's consumer index passes it, and its report is posted where it asks for one or fails. -/
def State.complete (s : State) (ref : DescRef) (status detail : Nat) : State :=
  (s.updDring ref.hdr.ring (fun x => { x with cons := (ref.index + 1) % 2 ^ 64, began := none }.pass)).finish ref status detail

/-- A descriptor begins and does `f`; where the report ring it names is not set up it is not executed and ends with RING_STATE (R348), unless it sets that ring up. -/
def State.descriptor (s : State) (h : DescHdr) (code : Nat) (setsUp : Bool) (f : DescRef → State → State) : State :=
  if s.canBegin h then
    let x := s.host.drings[h.ring]
    let ref : DescRef := ⟨x.func, BitVec.ofNat 8 code, h, x.cons⟩
    let s := s.updDring h.ring (fun x => { x with fetched := x.fetched.drop 1, began := some ref, prod := if x.prod = x.cons then (x.cons + 1) % 2 ^ 64 else x.prod })
    if s.host.rrings[h.reportRing].up ∨ setsUp then f ref s else s.complete ref Reason.ringState 0
  else s

/-- The Dome whose function carries a dispatch ring. -/
def State.ringDie (s : State) (h : DescHdr) : Die := Die.ofDome s.host.drings[h.ring].func

/-! ### Transactions (R355 to R359) -/

/-- The detail of a failed COMMIT: no entry, channel or stream (R349). -/
def noDetail : Nat := 0xFFFFFFFF

/-- A slot that closes no longer subscribes its task input (R245, R359). -/
def State.slotFreed (s : State) (t : TxnId) : State :=
  let i : ConsId := ⟨208 + t.val, by omega⟩
  (s.setFld (.bcnCons i) BCN_CONSi.EN 0).setFld (.bcnConsStat i) BCN_CONSi_STAT.BUSY 0

/-- An open or armed transaction rolls back with a reason: an armed COMMIT is reported, and the slot closes; nothing else changes (R357, R359). -/
def State.rollBack (s : State) (t : TxnId) (reason : Nat) : State :=
  let x := s.host.txns[t]
  let s := s.updTxn t (fun _ => Txn.reset)
  let s := match x.commit with
    | some ref => s.complete ref reason noDetail
    | none => s
  s.slotFreed t

/-- The part enters a degraded form of R31: a FORM report, and every armed commit rolls back with FORM_CHANGED (R31, R351, R359). -/
def State.enterForm (s : State) (form : Nat) : State :=
  let s := (List.finRange 4).foldl (fun s t =>
    match s.host.txns[t].phase with
    | .armed _ => s.rollBack t Reason.formChanged
    | _ => s) s
  s.asyncReport 0 0xF1 form

end Sys2Proof.Machine
end

