-- ==== Sys2Proof/Machine/Ledger.lean ====
section
/-! DEFINITION. The start ledger: log entries, start records and compaction (spec 15_start_and_states.md R401 to R405). -/
namespace Sys2Proof.Machine
open Sys2Proof

/-- The state with the ledger changed. -/
def State.updLedger (s : State) (f : Ledger → Ledger) : State := { s with ledger := f s.ledger }

/-- Entries of the repair and ageing log (R401). -/
def logSize : Nat := 7160

/-- An entry joins the log; while the ledger is compacted, up to 64 entries wait in the AON domain. A log with fewer than 64 free entries is compacted (R405). -/
def State.logLedger (s : State) (kind die a b : Nat) : State :=
  let e : LogEntry := ⟨kind, die, a, b⟩
  if s.ledger.compacting then s.updLedger (fun l => { l with waiting := if l.waiting.length < 64 then l.waiting ++ [e] else l.waiting })
  else
    let s := s.updLedger (fun l => { l with log := l.log ++ [e] })
    if logSize - s.ledger.log.length < 64 then s.updLedger (fun l => { l with compacting := true }) else s

/-- A domain is retired: held OFF from then on, at every later start too (R25, R404). -/
def State.retireDom (s : State) (x : DomId) : State := (s.setDoms [x] .retired).logLedger 6 (dieOfDom x).val x.val 0

/-- Two entries are for the same item: the later replaces the earlier (R404). -/
def LogEntry.same (x y : LogEntry) : Bool :=
  x.kind == y.kind && x.die == y.die && x.a == y.a
  && (if x.kind = 2 then x.b / 0x40 == y.b / 0x40 else if x.kind = 5 then x.b / 0x100 == y.b / 0x100 else true)

/-- One entry for each item still in force, in order of the last entry for it (R404, R405). -/
def inForce : List LogEntry → List LogEntry
  | [] => []
  | e :: rest => if rest.any e.same then inForce rest else e :: inForce rest

/-! ### The sector in the flash devices (R401, R402, R404) -/

/-- The exclusive or of bytes. -/
def xorBytes (b : List Byte) : Byte := b.foldl (fun x y => x ^^^ y) 0
/-- The eight bytes of a log entry: KIND, die, A, B and the check over them (R404). -/
def LogEntry.bytes (e : LogEntry) : List Byte :=
  let b := toBytes 1 e.kind ++ toBytes 1 e.die ++ toBytes 2 e.a ++ toBytes 3 e.b
  b ++ [xorBytes b]
/-- The 128 bytes of a start record (R402): an interrupted one has no CRC. -/
def StartRec.bytes (r : StartRec) : List Byte :=
  let b := toBytes 4 r.startNo.toNat ++ toBytes 8 r.steps.toNat ++ toBytes 2 r.reason ++ toBytes 2 r.alt ++ toBytes 2 r.exclCh ++ toBytes 1 r.exclDie ++ toBytes 1 r.lookOff ++ toBytes 2 r.links
    ++ toBytes 2 r.ports ++ toBytes 4 r.bootVer.toNat ++ toBytes 4 r.logCount ++ List.replicate 92 0
  b ++ toBytes 4 (if r.closed then (Config.crc32 b).toNat else 2 ^ 32 - 1)
/-- The 64 bytes of the header: magic, generation, serial number and CRC (R401). -/
def Ledger.header (l : Ledger) (serial : Nat) : List Byte :=
  let b := toBytes 4 0x4C444752 ++ toBytes 4 l.generation ++ toBytes 8 serial ++ List.replicate 44 0
  b ++ toBytes 4 (Config.crc32 b).toNat
/-- Bytes programmed into an erased area of `n` bytes. -/
def programmed (n : Nat) (b : List Byte) : List Byte := b ++ List.replicate (n - b.length) 0xFF
/-- What the sector of either flash device holds (R401). -/
def Ledger.sector (l : Ledger) (serial : Nat) : List Byte :=
  l.header serial ++ programmed (64 * 128) (l.records.flatMap StartRec.bytes) ++ programmed (7160 * 8) (l.log.flatMap LogEntry.bytes)

/-- The last `n` of a list. -/
def lastOf {α : Type} (n : Nat) (l : List α) : List α := l.drop (l.length - n)

/-- The compacted ledger (R405): the generation advanced, the last four start records, one entry for each item in force, and then the entries that waited. -/
def Ledger.compact (l : Ledger) : Ledger :=
  { l with generation := l.generation + 1, records := lastOf 4 l.records, log := inForce l.log ++ l.waiting, compacting := false, waiting := [] }

end Sys2Proof.Machine
end

