-- ==== Sys2Proof/Machine/Plate.lean ====
section
/-! DEFINITION. The plate banks: two ports, SECDED, the background test and row repair (spec 12_plate_banks.md R319 to R334). -/
namespace Sys2Proof.Machine
open Sys2Proof

/-- The state with one bank changed. -/
def State.updBank (s : State) (d : DomeId) (b : BankId) (f : Bank → Bank) : State :=
  { s with plate := s.plate.set d (s.plate[d].set b (f s.plate[d][b])) }

/-- Bytes of a bank (R319). -/
def bankBytes (b : BankId) : Nat := if b = 1 then 16 * 2 ^ 20 else if b = 3 ∨ b = 4 then 4 * 2 ^ 20 else 8 * 2 ^ 20
/-- Regions of 4 KB (R319). -/
def bankRegions (b : BankId) : Nat := bankBytes b / 4096
/-- Words of 8 bytes; the row and the region of a word (R319). -/
def bankWords (b : BankId) : Nat := bankBytes b / 8
def rowOfWord (w : Nat) : Nat := w / 256
def regionOfWord (w : Nat) : Nat := w / 512

/-- The stored word. -/
def State.plateWord (s : State) (d : DomeId) (b : BankId) (w : Nat) : QWord := BitVec.ofNat 64 (Memory.readLE s.plate[d][b].cells (8 * w) 8)

/-- A byte-masked write merged into a stored word (R321). -/
def mergeWord (old data : QWord) (mask : Byte) : QWord :=
  BitVec.ofNat 64 (((List.range 8).map (fun i => (bitsOf (if bitOf mask.toNat i then data.toNat else old.toNat) (8 * i) 8) * 2 ^ (8 * i))).sum)

/-- The word an access addresses, and the word it would store over an old one. -/
def accessWord : PlateAccess → Option Nat
  | .none => none
  | .read w => some w
  | .write w _ _ => some w
  | .add64 w _ => some w
def accessStores (old : QWord) : PlateAccess → Option QWord
  | .write _ v m => some (mergeWord old v m)
  | .add64 _ v => some (old + v)
  | _ => none
def accessReads : PlateAccess → Bool
  | .read _ => true
  | .add64 _ _ => true
  | _ => false

/-! ### Errors and repair (R324, R328 to R330) -/

/-- The record of a bank's last error or repair, and PB_ECC (R324, R329, R332, R333). -/
def State.eccRecord (s : State) (d : DomeId) (b : BankId) (kind row : Nat) (publish : Bool) : State :=
  let s := ((s.setFld (.pbbLast d b) PBb_LAST.ROW row).setFld (.pbbLast d b) PBb_LAST.KIND kind).raise (.pbbLast d b) PBb_LAST.VALID
  if publish then s.publish (.pbEcc d) (b.val + kind * 2 ^ 3 + row % 2 ^ 13 * 2 ^ 5) else s

/-- A row is repaired onto the bank's next unused spare; with no spare left, or AUTO_REPAIR clear, it stays in service and is only recorded (R329, R330). -/
def State.rowRepair (s : State) (d : DomeId) (b : BankId) (row : Nat) : State :=
  let used := s.fld (.pbbState d b) PBb_STATE.SPARES_USED
  if s.plate[d][b].copying.isSome then s
  else if ¬ s.isSet (.pbCtrl d) PB_CTRL.AUTO_REPAIR then s.eccRecord d b 2 row true
  else if used < s.fld (.pbbState d b) PBb_STATE.SPARES_TOTAL then s.updBank d b (fun x => { x with copying := some (row, used) })
  else (s.raise (.pbStatus d) PB_STATUS.SPARES_OUT).eccRecord d b 3 row true

/-- A single-bit error: corrected, written back and counted (R324). -/
def State.plateCorrected (s : State) (d : DomeId) (b : BankId) (w : Nat) : State :=
  let s := (s.bump (.pbbCorr d b) PBb_CORR.COUNT).raise (.pbStatus d) PB_STATUS.CORR
  let s := s.updBank d b (fun x => { x with single := x.single.filter (· ≠ w) })
  s.eccRecord d b 0 (rowOfWord w) (s.isSet (.pbCtrl d) PB_CTRL.CORR_EV)

/-- The background test corrects an error: a row with such errors in two passes in a row is repaired (R328, R329). -/
def State.testCorrected (s : State) (d : DomeId) (b : BankId) (w : Nat) : State :=
  let row := rowOfWord w
  let s := (s.plateCorrected d b w).updBank d b (fun x => { x with now := if row ∈ x.now then x.now else x.now ++ [row] })
  if row ∈ s.plate[d][b].before then s.rowRepair d b row else s

/-- A double-bit error: counted, published, and the row repaired; a log record of PB4 is lost (R324, R325, R329). -/
def State.plateUncorrectable (s : State) (d : DomeId) (b : BankId) (w : Nat) : State :=
  let row := rowOfWord w
  let s := (s.bump (.pbbUncorr d b) PBb_UNCORR.COUNT).raise (.pbStatus d) PB_STATUS.UNCORR
  let s := s.updBank d b (fun x => { x with double := if w ∈ x.double then x.double else x.double ++ [w] })
  let s := s.eccRecord d b 1 row true
  let s := if b = 4 then s.bump .trnLogDrop TRN_LOG_DROP.COUNT else s
  s.rowRepair d b row

/-- How a word reads: an error found now, or one left in it. -/
def State.wordEcc (s : State) (d : DomeId) (b : BankId) (w : Nat) (ecc : Ecc) : Ecc :=
  if w ∈ s.plate[d][b].double ∨ ecc = .double then .double else if w ∈ s.plate[d][b].single ∨ ecc = .single then .single else .clean

/-- A word passes through SECDED. -/
def State.plateCheck (s : State) (d : DomeId) (b : BankId) (w : Nat) (ecc : Ecc) : State :=
  match s.wordEcc d b w ecc with
  | .clean => s
  | .single => s.plateCorrected d b w
  | .double => s.plateUncorrectable d b w

/-- A word is stored, with new check bits. -/
def State.plateStore (s : State) (d : DomeId) (b : BankId) (w : Nat) (v : QWord) : State :=
  s.updBank d b (fun x => { x with cells := Memory.writeLE x.cells (8 * w) 8 v.toNat, single := x.single.filter (· ≠ w), double := x.double.filter (· ≠ w) })

/-! ### Two ports, one word (R322, R323) -/

/-- The number of a port-B master (R332). -/
def masterNum : PlateMaster → Nat
  | .hostDma => 0 | .keeper => 1 | .mirror => 2 | .image => 3 | .otherKeeper => 4

/-- Both ports would store different values in one word, or port B would add to it. -/
def collides (old : QWord) (a b : PlateAccess) : Bool :=
  match accessWord a, accessWord b, accessStores old a, accessStores old b with
  | some wa, some wb, some va, some vb => wa == wb && (va != vb || (match b with | .add64 _ _ => true | _ => false))
  | _, _, _, _ => false

/-- The bytes an access returns to its master: the word as it was before any write of the cycle; nothing for a word in error beyond correction (R322, R324). -/
def State.accessBytes (s : State) (d : DomeId) (b : BankId) (ecc : Ecc) (x : PlateAccess) : List Byte :=
  match x with
  | .read w => if s.wordEcc d b w ecc = .double then [] else toBytes 8 (s.plateWord d b w).toNat
  | _ => []

/-- The accesses of one cycle are carried out (R321 to R324): reads see the word as before; port A's write lands; port B's is discarded, counted, published and given retry status where
they collide. -/
def State.plateCycle (s : State) (d : DomeId) (b : BankId) (pa pb : PlateAccess) (master : PlateMaster) (ecc : Ecc) : State :=
  let old := fun (x : PlateAccess) => match accessWord x with | some w => s.plateWord d b w | none => 0
  let out := s.accessBytes d b ecc pa ++ s.accessBytes d b ecc pb
  let hit := collides (old pb) pa pb
  let storeOf := fun (x : PlateAccess) => match accessWord x, accessStores (old x) x with | some w, some v => some (w, v) | _, _ => none
  let s1 := match accessReads pa, accessWord pa with | true, some w => s.plateCheck d b w ecc | _, _ => s
  let s2 := match accessReads pb, accessWord pb with | true, some w => if accessReads pa ∧ accessWord pa = some w then s1 else s1.plateCheck d b w ecc | _, _ => s1
  let s3 := match (if hit then none else storeOf pb) with | some (w, v) => s2.plateStore d b w v | none => s2
  let s4 := match storeOf pa with | some (w, v) => s3.plateStore d b w v | none => s3
  let s5 := { s4 with resp := if hit then .retry else .bytes out }
  if hit then
    let s6 := ((s5.bump (.pbbCollide d b) PBb_COLLIDE.COUNT).raise (.pbStatus d) PB_STATUS.COLLIDE).updBank d b (fun x => { x with retries := x.retries ++ [(pb, master)] })
    s6.publish (.pbCollide d) (b.val + ((accessWord pb).getD 0) % 2 ^ 21 * 2 ^ 3 + masterNum master * 2 ^ 24)
  else s5

/-- An access touches the borrowed region, or the row being copied (R327, R329). -/
def State.borrowed (s : State) (d : DomeId) (b : BankId) (x : PlateAccess) : Bool :=
  match accessWord x with
  | some w => s.isSet (.pbbState d b) PBb_STATE.TESTING && regionOfWord w == s.fld (.pbbState d b) PBb_STATE.REGION
  | none => false
def State.copyingRow (s : State) (d : DomeId) (b : BankId) (x : PlateAccess) : Bool :=
  match accessWord x, s.plate[d][b].copying with
  | some w, some (row, _) => rowOfWord w == row
  | _, _ => false

/-- A test is broken off and its region restored (R327). -/
def State.forceRestore (s : State) (d : DomeId) (b : BankId) : State :=
  if s.plate[d][b].phase = some .forced then s
  else ((s.updBank d b (fun x => { x with phase := some .forced })).bump (.pbbRestores d b) PBb_RESTORES.COUNT).raise (.pbStatus d) PB_STATUS.RESTORE

/-- One cycle of accesses at a bank: it waits behind a forced restore or a row copy, or is carried out. -/
def State.plateAccess (s : State) (d : DomeId) (b : BankId) (pa pb : PlateAccess) (master : PlateMaster) (ecc : Ecc) : State :=
  let inside : PlateAccess → Bool := fun x => match accessWord x with | some w => decide (w < bankWords b) | none => true
  if ¬ (s.domainOn (domPlate d) ∧ inside pa ∧ inside pb) then { s with resp := .unsupported }
  else if s.borrowed d b pa ∨ s.borrowed d b pb then (s.forceRestore d b).updBank d b (fun x => { x with waiting := x.waiting ++ [(pa, pb, master, ecc)] })
  else if s.copyingRow d b pa ∨ s.copyingRow d b pb then s.updBank d b (fun x => { x with waiting := x.waiting ++ [(pa, pb, master, ecc)] })
  else s.plateCycle d b pa pb master ecc

/-- The accesses that waited are carried out in order. -/
def State.plateProceed (s : State) (d : DomeId) (b : BankId) : State :=
  let l := s.plate[d][b].waiting
  l.foldl (fun s x => s.plateCycle d b x.1 x.2.1 x.2.2.1 x.2.2.2) (s.updBank d b (fun x => { x with waiting := [] }))

/-- A write given retry status is issued again, as a new write (R323). -/
def State.plateRetry (s : State) (d : DomeId) (b : BankId) : State :=
  match s.plate[d][b].retries with
  | [] => s
  | (x, m) :: rest => (s.updBank d b (fun y => { y with retries := rest })).plateAccess d b .none x m .clean

/-! ### The background test (R326 to R328) -/

/-- A region is released; the next one in order is next to test, and after the last a pass is complete (R326). -/
def State.regionDone (s : State) (d : DomeId) (b : BankId) : State :=
  let r := s.fld (.pbbState d b) PBb_STATE.REGION
  let s := (s.updBank d b (fun x => { x with phase := none, broken := 0, failed := false })).setFld (.pbbState d b) PBb_STATE.TESTING 0
  if r + 1 < bankRegions b then s.setFld (.pbbState d b) PBb_STATE.REGION (r + 1)
  else
    let s := (s.setFld (.pbbState d b) PBb_STATE.REGION 0).bump (.pbbPasses d b) PBb_PASSES.COUNT
    s.updBank d b (fun x => { x with before := x.now, now := [] })

/-- A bank borrows its next region and starts SAVE (R326). -/
def State.testStart (s : State) (d : DomeId) (b : BankId) : State :=
  if s.isSet (.pbCtrl d) PB_CTRL.TEST_EN ∧ s.domainOn (domPlate d) ∧ s.plate[d][b].phase = none ∧ s.plate[d][b].copying = none then
    (s.updBank d b (fun x => { x with phase := some .save })).raise (.pbbState d b) PBb_STATE.TESTING
  else s

/-- A phase of the test ends (R326, R328): an error in SAVE, in the row `bad` names, is corrected and counted, or, beyond correction, ends the test of the region; a row that fails MARCH or VERIFY is
repaired before the region is released. -/
def State.testPhase (s : State) (d : DomeId) (b : BankId) (bad : Option (Fin 2)) (ecc : Ecc) : State :=
  let r := s.fld (.pbbState d b) PBb_STATE.REGION
  let w := 512 * r + 256 * (match bad with | some i => i.val | none => 0)
  let enter := fun (s : State) (p : TestPhase) => s.updBank d b (fun x => { x with phase := some p })
  let fail := fun (s : State) => match bad with
    | none => s
    | some i =>
      let s := (s.raise (.pbStatus d) PB_STATUS.TEST_FAIL).updBank d b (fun x => { x with failed := true })
      s.rowRepair d b (2 * r + i.val)
  match s.plate[d][b].phase with
  | some .save =>
    match ecc with
    | .clean => enter s .march
    | .single => enter (s.testCorrected d b w) .march
    | .double => s.regionDone d b
  | some .march => enter (fail s) .restore
  | some .restore => enter s .verify
  | some .verify =>
    let s := fail s
    if s.plate[d][b].failed ∧ s.plate[d][b].copying.isSome then s.updBank d b (fun x => { x with phase := none }) else s.regionDone d b
  | _ => s

/-- A forced restore completes (R327): the region is tested again at the next slot, or, broken off four times in a row, is passed over; the accesses that waited proceed. -/
def State.restoreDone (s : State) (d : DomeId) (b : BankId) : State :=
  if s.plate[d][b].phase = some .forced then
    let n := s.plate[d][b].broken + 1
    let s := if n < 4 then (s.updBank d b (fun x => { x with phase := none, broken := n })).setFld (.pbbState d b) PBb_STATE.TESTING 0
      else (s.bump (.pbbSkipped d b) PBb_SKIPPED.COUNT).regionDone d b
    s.plateProceed d b
  else s

/-- The copy of a row into its spare completes (R329): counted, published and recorded in the ledger; accesses to the row, and the region that was held for it, go on. -/
def State.rowCopied (s : State) (d : DomeId) (b : BankId) : State :=
  match s.plate[d][b].copying with
  | none => s
  | some (row, spare) =>
    let s := s.updBank d b (fun x => { x with copying := none, repairs := x.repairs ++ [(row, spare)], before := x.before.filter (· ≠ row), now := x.now.filter (· ≠ row) })
    let s := (s.setFld (.pbbState d b) PBb_STATE.SPARES_USED (spare + 1)).raise (.pbStatus d) PB_STATUS.REPAIR
    let s := (s.eccRecord d b 2 row true).logLedger 1 (2 + d.val) (b.val * 0x2000 + row) spare
    let s := if s.plate[d][b].failed ∧ s.plate[d][b].phase = none then s.regionDone d b else s
    s.plateProceed d b

/-- The bank's contents are lost with its domain (R331); its repair map is the ledger's. -/
def State.plateLost (s : State) (d : DomeId) (b : BankId) : State :=
  (s.updBank d b (fun x => { Bank.reset with repairs := x.repairs })).setFld (.pbbState d b) PBb_STATE.TESTING 0

/-! ### The meanings -/

def execPbAccess (d : DomeId) (b : BankId) (portA portB : PlateAccess) (master : PlateMaster) (ecc : Ecc) (s : State) : Host.Outcome State Fault Refusal :=
  s.act [Die.ofDome d] (·.plateAccess d b portA portB master ecc)
def execPbWriteRetry (d : DomeId) (b : BankId) (s : State) : Host.Outcome State Fault Refusal := s.act [Die.ofDome d] (·.plateRetry d b)
def execPbTestStart (d : DomeId) (b : BankId) (s : State) : Host.Outcome State Fault Refusal := s.act [Die.ofDome d] (·.testStart d b)
def execPbTestPhaseDone (d : DomeId) (b : BankId) (bad : Option (Fin 2)) (ecc : Ecc) (s : State) : Host.Outcome State Fault Refusal :=
  s.act [Die.ofDome d] (·.testPhase d b bad ecc)
def execPbRestoreDone (d : DomeId) (b : BankId) (s : State) : Host.Outcome State Fault Refusal := s.act [Die.ofDome d] (·.restoreDone d b)
def execPbRowCopyDone (d : DomeId) (b : BankId) (s : State) : Host.Outcome State Fault Refusal := s.act [Die.ofDome d] (·.rowCopied d b)

end Sys2Proof.Machine
end

