-- ==== Sys2Proof/Machine/Keepers.lean ====
section
/-! DEFINITION. Keeper inputs: activation, preemption and what a run leaves, and the request to recover a channel (spec 10_orrery.md R266, R267, R272, R278, R281). -/
namespace Sys2Proof.Machine
open Sys2Proof

/-- The state with one keeper changed. -/
def State.updKeeper (s : State) (k : KeeperId) (f : Keeper → Keeper) : State := { s with keepers := s.keepers.set k (f s.keepers[k]) }
/-- The task input of a keeper's input (R245). -/
def inputIx (k : KeeperId) (i : Fin 16) : ConsId := ⟨16 * k.val + i.val, by omega⟩
/-- The routine bound to an input (R266). -/
def State.boundRoutine (s : State) (k : KeeperId) (i : Fin 16) : Nat := s.fld (.kprBind k i) KPR_BINDi.ROUTINE
/-- A keeper runs an owner routine: 192 to 255 (R266). -/
def State.ownerRuns (s : State) : Bool := (List.finRange 4).any (fun k => match s.keepers[k].input with | some i => decide (192 ≤ s.boundRoutine k i) | none => false)
/-- A keeper's Dome serves it. -/
def State.keeperUp (s : State) (k : KeeperId) : Bool := s.dieUp (Die.ofDome (domeOfKeeper k))

/-- An entry of the routine table in force for a keeper (R272): the owner extension's from 192 up. -/
def State.routineOf (s : State) (k : KeeperId) (n : Nat) : RoutineEntry :=
  if 192 ≤ n then (match s.keepers[k].owner with | some x => x.routines[n]?.getD ⟨0, false, 0⟩ | none => ⟨0, false, 0⟩)
  else match s.keepers[k].vendor with
    | some x => x.routines[n]?.getD ⟨0, false, 0⟩
    | none => ⟨0, false, 0⟩

/-- An input's current run cannot be preempted: 16 abandonments in a row came before it (R267). -/
def State.protectedRun (s : State) (k : KeeperId) (i : Fin 16) : Bool := s.keepers[k].input == some i && decide (16 ≤ s.keepers[k].losses[i])

/-- A run is discarded: G registers, which hold free values from then on, call stack, release buffer, and what its units were doing (R267). -/
def State.discardRun (s : State) (k : KeeperId) : State :=
  let n := s.free
  { s with free := n + 16 }.updKeeper k (fun x =>
    { x with g := Vector.ofFn (fun j => Config.freeBits (n + j.val)), stack := [], committed := false, waitEnd := none, buffer := [], releasing := false, access := none
             regDone := false, regMatch := false, dmaDone := false, plateDone := false, txnPass := false })

/-- The running routine is abandoned for a higher-priority input: its own stays busy (R267). -/
def State.abandon (s : State) (k : KeeperId) (i : Fin 16) : State :=
  let s := (s.discardRun k).updKeeper k (fun x => { x with input := none, losses := x.losses.set i (x.losses[i] + 1) })
  (s.raise (.kprStatus k) KPR_STATUS.ABANDONED).bump (.kprAbandons k) KPR_ABANDONS.COUNT

/-- An input is bound to an owner routine while the owner image is replaced (R273). -/
def State.ownerHeld (s : State) (k : KeeperId) (i : Fin 16) : Bool := s.ownerNew.isSome && decide (192 ≤ s.boundRoutine k i)

/-- An activation is left pending at an input, with its payload. -/
def State.leavePending (s : State) (k : KeeperId) (i : Fin 16) (p : Option Payload) : State :=
  { s with fabric := { s.fabric with held := s.fabric.held.set (16 * k.val + i.val) p } }.raise (.bcnConsStat (inputIx k i)) BCN_CONSi_STAT.PENDING

/-- An idle input of a keeper is activated: it is busy until its routine completes; a lower-priority routine that runs, and neither releases nor is protected, is abandoned. An input not bound starts
nothing (R266, R267). While the owner image is replaced, an activation of an input bound to an owner routine is held pending, and the owner routine that runs is let complete (R273). -/
def State.activateKeeper (s : State) (k : KeeperId) (i : Fin 16) (p : Option Payload) : State :=
  if ¬ s.isSet (.kprBind k i) KPR_BINDi.EN then s
  else if s.ownerHeld k i then s.leavePending k i p
  else
    let s := { s with fabric := { s.fabric with payloads := s.fabric.payloads.set (16 * k.val + i.val) p } }
    let s := s.raise (.bcnConsStat (inputIx k i)) BCN_CONSi_STAT.BUSY
    match s.keepers[k].input with
    | some j => if i < j ∧ ¬ s.keepers[k].releasing ∧ ¬ s.protectedRun k j ∧ ¬ s.ownerHeld k j then s.abandon k j else s
    | none => s

/-- Keeper k shadows LAMPk; a keeper of a lost Dome is replaced by the one of the other Dome that takes over (R278). -/
def State.shadowsLamp (s : State) (k : KeeperId) (n : LampId) : Bool :=
  let other : Nat := (n.val + 2) % 4
  !s.dieLost[Die.ofDome (domeOfKeeper k)]
  && (k.val == n.val || (s.dieLost[Die.ofDome (domeOfKeeper ⟨n.val, n.isLt⟩)] && k.val == other))

/-- The keeper that shadows a channel. -/
def State.shadowOf (s : State) (c : ChanId) : Option KeeperId := (List.finRange 4).find? (fun k => s.shadowsLamp k (lampOf c))

/-- A channel has entered FAULT: the shadow thread asks for its recovery by activating input 0 of its keeper (R281). A loaded store of its engine is RELOADING until it is rewritten (R286). An input that is busy, or has an activation pending, is left with one pending: this is
no event, and counts no overrun (DESIGN CHOICE, log entry 108). -/
def State.askRecover (s : State) (c : ChanId) (cause shd : Nat) : State :=
  let s := (s.setFld (.oryFault c) ORY_FAULT.CAUSE cause).setFld (.oryFault c) ORY_FAULT.SHD_CAUSE shd
  let s := if s.fld (.oryState c) ORY_STATE.STORE = 2 then s.setFld (.oryState c) ORY_STATE.STORE 3 else s
  let s := { s with shadows := s.shadows.set c { s.shadows[c] with declared := some s.clock.now } }
  match s.shadowOf c with
  | some k => if s.inputBusy (inputIx k 0) ∨ s.inputPending (inputIx k 0) then s.leavePending k 0 none else s.activateKeeper k 0 none
  | none => s

end Sys2Proof.Machine
end

