-- ==== Sys2Proof/Machine/Tables.lean ====
section
/-! DEFINITION. Characteristic entries and what COMMIT checks in a table (spec 02_characteristics.md R41 to R47; 03 R87, R101; 04 R129). -/
namespace Sys2Proof.Machine
open Sys2Proof

/-! ### The fields of an entry (R41) -/

def EntryWords.segAddr (e : EntryWords) : Nat := bitsOf e.w0.toNat 0 40
def EntryWords.format (e : EntryWords) : Nat := bitsOf e.w0.toNat 40 6
def EntryWords.interp (e : EntryWords) : Nat := bitsOf e.w0.toNat 46 3
def EntryWords.home (e : EntryWords) : Nat := bitsOf e.w0.toNat 49 2
def EntryWords.pubCh (e : EntryWords) : BeaconCh := Fin.ofNat 256 (bitsOf e.w0.toNat 56 8)
/-- LEN_G: 0 encodes 2^32. -/
def EntryWords.lenG (e : EntryWords) : Nat := let v := bitsOf e.w1.toNat 0 32; if v = 0 then 2 ^ 32 else v
/-- REPEAT: 0 is forever. -/
def EntryWords.repeats (e : EntryWords) : Nat := bitsOf e.w1.toNat 32 24
def EntryWords.loopOp (e : EntryWords) : Nat := bitsOf e.w1.toNat 56 8
def EntryWords.next (e : EntryWords) : Nat := bitsOf e.w2.toNat 0 16
def EntryWords.loopTarget (e : EntryWords) : Nat := bitsOf e.w2.toNat 16 16
def EntryWords.loopCount (e : EntryWords) : Nat := bitsOf e.w2.toNat 32 32
/-- SLOT0 to SLOT3: the four 32-bit words of W3 and W4. -/
def EntryWords.slot (e : EntryWords) (k : Fin 4) : Nat :=
  bitsOf (if k.val < 2 then e.w3.toNat else e.w4.toNat) (32 * (k.val % 2)) 32
/-- MKA_PROG and MKB_PROG. -/
def EntryWords.marker (e : EntryWords) (k : Fin 2) : Nat := bitsOf e.w5.toNat (32 * k.val) 32
def EntryWords.ncoOp (e : EntryWords) : Nat := bitsOf e.w6.toNat 0 4
def EntryWords.sector (e : EntryWords) : Fin 8 := Fin.ofNat 8 (bitsOf e.w6.toNat 4 3)
def EntryWords.curve (e : EntryWords) : Fin 32 := Fin.ofNat 32 (bitsOf e.w6.toNat 7 5)
def EntryWords.ncoEach (e : EntryWords) : Bool := bitOf e.w6.toNat 15
def EntryWords.freq (e : EntryWords) : BitVec 48 := BitVec.ofNat 48 (bitsOf e.w6.toNat 16 48)
def EntryWords.chirpRate (e : EntryWords) : BitVec 40 := BitVec.ofNat 40 (bitsOf e.w7.toNat 0 40)
def EntryWords.gain (e : EntryWords) : Nat := bitsOf e.w7.toNat 40 18
def EntryWords.rangeAsk (e : EntryWords) : Nat := bitsOf e.w7.toNat 58 2
def EntryWords.readyHint (e : EntryWords) : Bool := bitOf e.w7.toNat 60
def EntryWords.isEnd (e : EntryWords) : Bool := bitOf e.w7.toNat 61
def EntryWords.pubStart (e : EntryWords) : Bool := bitOf e.w7.toNat 62
def EntryWords.pubEnd (e : EntryWords) : Bool := bitOf e.w7.toNat 63

/-! ### Jump slots (R45) and marker programs (R46) -/

def slotChannel (w : Nat) : BeaconCh := Fin.ofNat 256 (bitsOf w 0 8)
def slotTarget (w : Nat) : Nat := bitsOf w 8 16
def slotMode (w : Nat) : Nat := bitsOf w 24 2
def slotEnable (w : Nat) : Bool := bitOf w 26
def slotWindow (w : Nat) : Fin 32 := Fin.ofNat 32 (bitsOf w 27 5)
def mkMode (w : Nat) : Nat := bitsOf w 0 2
def mkStart (w : Nat) : Nat := bitsOf w 2 18
/-- WIDTH: 0 encodes 4,096. -/
def mkWidth (w : Nat) : Nat := let v := bitsOf w 20 12; if v = 0 then 4096 else v

/-! ### Formats (R42) -/

/-- A format that reads memory: S16, S12, S8, C16, C12. -/
def memFormat (f : Nat) : Bool := f == 0 || f == 1 || f == 2 || f == 0x10 || f == 0x11
/-- Stored bits per sample (R42). -/
def storedBits (f : Nat) : Nat :=
  if f = 0 then 16 else if f = 1 then 12 else if f = 2 then 8 else if f = 0x10 then 32 else if f = 0x11 then 24 else 0
/-- A format in which Q is stored: C16 and C12. -/
def complexFormat (f : Nat) : Bool := f == 0x10 || f == 0x11

/-- The stored bytes of one iteration, rounded up to whole 64 B units (R107, R108). -/
def segUnits (e : EntryWords) : Nat :=
  ceilDiv (e.lenG * 32 / 2 ^ e.interp * storedBits e.format / 8) 64

/-- The entry at an index of a table; an index not loaded holds zeros. -/
def Table.entry (t : Table) (i : Nat) : EntryWords :=
  match t.entries.lookup i with
  | some e => e
  | none => ⟨0, 0, 0, 0, 0, 0, 0, 0⟩

/-- Blocks of 256 entries a table takes in PB1 (R39). -/
def Table.blocks (t : Table) : Nat := ceilDiv t.len 256

/-! ### CHAR_FIELD (R41 to R46, R91) -/

/-- The fields of an enabled slot are sound: no reserved mode, and WINDOW 0 unless TIMED (R45, R91). -/
def slotFieldsOk (w : Nat) : Bool :=
  !slotEnable w || (slotMode w != 3 && (slotMode w == 2 || (slotWindow w).val == 0))

/-- Every encoding of an entry is defined and every reserved or unused field is zero (R41 to R46). -/
def EntryWords.fieldsOk (e : EntryWords) : Bool :=
  let memory := memFormat e.format
  let sourceless := e.format == 0x20 || e.format == 0x3F
  (memory || sourceless)
  && bitsOf e.w0.toNat 51 5 == 0
  && (if sourceless then e.segAddr == 0 && e.interp == 0 && e.home == 0 else decide (e.interp ≤ 4))
  && (e.home != 3 || bitsOf e.w0.toNat 4 36 == 0)
  && bitsOf e.w1.toNat 0 32 != 1
  && decide (e.loopOp ≤ 5)
  && (List.finRange 4).all (fun k => slotFieldsOk (e.slot k))
  && decide (e.ncoOp ≤ 7)
  && (e.ncoOp == 2 || e.ncoOp == 3 || e.sector.val == 0)
  && (e.ncoOp == 4 || e.ncoOp == 5 || e.curve.val == 0)
  && bitsOf e.w6.toNat 12 3 == 0
  && (e.ncoOp == 1 || e.ncoOp == 3 || e.ncoOp == 4 || e.freq == 0)
  && (e.ncoOp == 4 || e.ncoOp == 5 || e.chirpRate == 0)
  && e.rangeAsk != 3

/-- CHAR_INDEX of R47: NEXT of an entry without END, LOOP_TARGET of a CLOSE and TARGET of an enabled slot lie in the table. -/
def EntryWords.indexOk (len : Nat) (e : EntryWords) : Bool :=
  (e.isEnd || decide (e.next < len))
  && (e.loopOp != 2 || decide (e.loopTarget < len))
  && (List.finRange 4).all (fun k => !slotEnable (e.slot k) || decide (slotTarget (e.slot k) < len))

/-- MARKER_RANGE of R47: a PULSE mode has START below LEN_G × 32. -/
def EntryWords.markerOk (e : EntryWords) : Bool :=
  (List.finRange 2).all (fun k => decide (mkMode (e.marker k) < 2) || decide (mkStart (e.marker k) < e.lenG * 32))

/-! ### The frame-depth rule (R47) -/

/-- The depth an entry plays at when reached with depth `d`, its before-visit action applied unless reached by a loop-back. -/
def depthIn (e : EntryWords) (loopBack : Bool) (d : Nat) : Nat :=
  if loopBack then d
  else if e.loopOp = 1 ∨ e.loopOp = 3 then d + 1
  else if e.loopOp = 5 then 0
  else d

/-- The edges that leave an entry playing at depth `d`: the entry reached, whether by a loop-back, and the depth carried. -/
def depthEdges (t : Table) (i d : Nat) : List (Nat × Bool × Nat) :=
  let e := t.entry i
  let natural :=
    if e.isEnd then []
    else if e.loopOp = 2 then [(e.loopTarget, true, d), (e.next, false, d - 1)]
    else if e.loopOp = 3 then [(i, true, d), (e.next, false, d - 1)]
    else if e.loopOp = 4 then [(e.next, false, d - 1)]
    else [(e.next, false, d)]
  natural ++ (List.finRange 4).filterMap (fun k =>
    if slotEnable (e.slot k) then some (slotTarget (e.slot k), false, d) else none)

/-- Every entry with every depth it is reached with from the pending edges. A path on which the depth grows past the number of entries opens frames in a loop, and is followed no deeper. -/
def depthWalk (t : Table) : Nat → List (Nat × Bool × Nat) → List (Nat × Nat) → List (Nat × Nat)
  | 0, _, seen => seen
  | _ + 1, [], seen => seen
  | n + 1, (i, lb, d) :: rest, seen =>
    let di := min (depthIn (t.entry i) lb d) (t.len + 9)
    if (i, di) ∈ seen ∨ t.len ≤ i then depthWalk t n rest seen else depthWalk t n (depthEdges t i di ++ rest) ((i, di) :: seen)

/-- The entries reached from a start entry with the depths at which each plays. Six edges leave an entry at most. -/
def depthsFrom (t : Table) (start : Nat) : List (Nat × Nat) := depthWalk t (7 * t.len * (t.len + 10) + 1) [(start, false, 0)] []

/-- An entry fails the frame-depth rule (R47): a depth above 8, a CLOSE, OPEN_CLOSE or BREAK reached at depth 0, or a forbidden loop-back. -/
def depthEntryBad (t : Table) (i d : Nat) : Bool :=
  let e := t.entry i
  let target := (t.entry e.loopTarget).loopOp
  decide (d > 8)
  || (e.loopOp == 2 && (d == 0 || target == 5 || target == 3))
  || (e.loopOp == 3 && d == 0)
  || (e.loopOp == 4 && d == 0)

/-- The least of a list of numbers. -/
def leastOf : List Nat → Option Nat
  | [] => none
  | n :: rest => match leastOf rest with
    | some m => some (min n m)
    | none => some n

/-- The lowest-numbered entry that fails the frame-depth rule from a start entry (R47). -/
def depthFail (t : Table) (start : Nat) : Option Nat :=
  let seen := depthsFrom t start
  leastOf ((seen.filter (fun p => depthEntryBad t p.1 p.2 || seen.any (fun q => q.1 == p.1 && q.2 != p.2))).map (·.1))

/-! ### Checks that count over a table (R47, R87, R101) -/

/-- The first entry of a table at which a test fails. -/
def Table.firstBad (t : Table) (ok : EntryWords → Bool) : Option Nat :=
  (List.range t.len).find? (fun i => !ok (t.entry i))

/-- The entries that take a place of the ready list, in ascending order: READY_HINT and a memory format (R87). -/
def Table.readyEntries (t : Table) : List Nat :=
  (List.range t.len).filter (fun i => (t.entry i).readyHint && memFormat (t.entry i).format)

/-- The beacon channels named by the enabled slots of an entry, in slot order, channel 0 left out (R73). -/
def EntryWords.slotChannels (e : EntryWords) : List BeaconCh :=
  (List.finRange 4).filterMap (fun k =>
    if slotEnable (e.slot k) && slotChannel (e.slot k) != 0 then some (slotChannel (e.slot k)) else none)

/-- The distinct beacon channels a table's enabled slots name (R73). -/
def Table.channels (t : Table) : List BeaconCh :=
  (List.range t.len).foldl (fun acc i => (t.entry i).slotChannels.foldl (fun a ch => if ch ∈ a then a else a ++ [ch]) acc) []

/-- The entry whose slot names the seventeenth distinct channel (R47, R101): JUMP_CHANNELS. -/
def Table.channelsFail (t : Table) : Option Nat :=
  let step := fun (acc : List BeaconCh × Option Nat) (i : Nat) =>
    (t.entry i).slotChannels.foldl (fun (a : List BeaconCh × Option Nat) ch =>
      if ch ∈ a.1 then a
      else (a.1 ++ [ch], match a.2 with | some j => some j | none => if a.1.length = 16 then some i else none)) acc
  ((List.range t.len).foldl step ([], none)).2

end Sys2Proof.Machine
end

