-- ==== Sys2Proof/Machine/Lantern.lean ====
section
/-! DEFINITION. The Lantern pipeline: formats, interpolation, the NCO with its sectors and chirps, mixing and gain (spec 04_lantern_pipeline.md). -/
namespace Sys2Proof.Machine
open Sys2Proof

/-! ### The NCO (R115 to R122) -/

/-- `n` samples with no step of the curvature between them: A_k gains n F_k, the bound sector also n (n − 1) / 2 rates, and its word n rates (R115). -/
def Nco.segment (x : Nco) (n : Nat) : Nco :=
  let step := fun (k : Fin 8) (a : BitVec 48) => a + BitVec.ofNat 48 n * x.freq[k]
  match x.chirp with
  | none => { x with acc := Vector.ofFn (fun k => step k x.acc[k]), at_ := x.at_ + n }
  | some ch =>
    let r : BitVec 48 := x.rate.signExtend 48
    { x with
      acc := Vector.ofFn (fun k => if k = ch.sector then step k x.acc[k] + BitVec.ofNat 48 (n * (n - 1) / 2) * r else step k x.acc[k])
      freq := x.freq.set ch.sector (x.freq[ch.sector] + BitVec.ofNat 48 n * r)
      at_ := x.at_ + n }

/-- The chirp up to sample `t`, the curvature added to the rate after every 32nd sample counted from the chirp's start (R115, R120). -/
def Nco.chirpTo (t : Nat) : Nat → Nco → Nco
  | 0, x => x
  | fuel + 1, x =>
    match x.chirp with
    | none => x.segment (t - x.at_)
    | some ch =>
      let edge := ch.start + ((x.at_ - ch.start) / 32 + 1) * 32
      if t < edge then x.segment (t - x.at_)
      else
        let x := x.segment (edge - x.at_)
        Nco.chirpTo t fuel { x with rate := x.rate + BitVec.ofInt 40 ch.curv }

/-- The sectors up to sample `t`: they advance in every channel state except IDLE (R62, R115). -/
def Nco.advance (x : Nco) (t : Nat) : Nco :=
  if t ≤ x.at_ then x
  else if x.runs then Nco.chirpTo t ((t - x.at_) / 32 + 2) x
  else { x with at_ := t }

/-- Register writes, in the order of their samples, take effect at those before sample `t`; the others wait (R119). -/
def Nco.applyWrites (t : Nat) : List FreqWrite → Nco → Nco
  | [], x => { x with writes := [] }
  | w :: rest, x =>
    if w.sample < t then
      let x := x.advance w.sample
      Nco.applyWrites t rest { x with freq := x.freq.set w.sector w.word }
    else { x with writes := w :: rest }

/-- The NCO as it stands at sample `t`, the writes due before it in force, and one due at it not yet. -/
def Nco.before (x : Nco) (t : Nat) : Nco := (Nco.applyWrites t x.writes x).advance t
/-- The NCO as it stands at sample `t`, every write due by then in force. -/
def Nco.sync (x : Nco) (t : Nat) : Nco := (Nco.applyWrites (t + 1) x.writes x).advance t
/-- A write joins those that wait, in the order of their samples; one of the same sector and sample gives way to it. -/
def insertWrite (w : FreqWrite) : List FreqWrite → List FreqWrite
  | [] => [w]
  | v :: rest => if v.sector = w.sector ∧ v.sample = w.sample then w :: rest else if w.sample < v.sample then w :: v :: rest else v :: insertWrite w rest

/-- Whether an entry operation loads a frequency word, and into which sector (R44). -/
def ncoLoads (e : EntryWords) (inUse : Fin 8) : Option (Fin 8) :=
  if e.ncoOp = 1 ∨ e.ncoOp = 4 then some inUse else if e.ncoOp = 3 then some e.sector else none

/-- A register write and the entry operation load one word at one sample (R119). -/
def Nco.collides (x : Nco) (e : EntryWords) (t : Nat) : Bool :=
  match ncoLoads e x.sector with
  | none => false
  | some k => x.writes.any (fun w => w.sector == k && w.sample == t)

/-- The NCO operation of an entry at sample `t`, with the curvature `curv` of its CURVE (R44, R120, R121): where a register write meets it, the
entry's value stands. -/
def Nco.apply (x : Nco) (e : EntryWords) (curv : Int) (t : Nat) : Nco :=
  let x := x.sync t
  let startChirp := fun (y : Nco) => { y with chirp := some ⟨y.sector, e.curve.val, curv, t⟩, rate := e.chirpRate, curveNo := e.curve.val }
  match e.ncoOp with
  | 1 => { x with freq := x.freq.set x.sector e.freq }
  | 2 => { x with sector := e.sector }
  | 3 => { x with sector := e.sector, freq := x.freq.set e.sector e.freq }
  | 4 => startChirp { x with freq := x.freq.set x.sector e.freq }
  | 5 => startChirp x
  | 6 => { x with chirp := none, rate := 0 }
  | 7 => { x with acc := Vector.replicate 8 0 }
  | _ => x

/-- The channel whose settings drive the pair: CH(2k) for a channel in pair mode, else the channel itself (R63, R124). -/
def evenOf (c : ChanId) : ChanId := ⟨c.val / 2 * 2, by omega⟩
def oddOf (c : ChanId) : ChanId := ⟨c.val / 2 * 2 + 1, by omega⟩
/-- The channel is in pair mode (R124). -/
def State.paired (s : State) (c : ChanId) : Bool := s.isSet (.lantCtrl (evenOf c)) LANT_CTRL.PAIR
/-- The channel is CH(2k+1) of a pair. -/
def State.pairSlave (s : State) (c : ChanId) : Bool := s.paired c && c.val % 2 == 1

/-- The channel whose walk drives a channel: CH(2k) for CH(2k+1) of a pair (R63). -/
def State.walkerOf (s : State) (c : ChanId) : ChanId := if s.pairSlave c then evenOf c else c

/-- The Lantern latency Lg in gc (R105). -/
def lgOf (maxInterp : Nat) : Nat :=
  if maxInterp = 0 then 12 else if maxInterp = 1 then 14 else if maxInterp = 2 then 16 else if maxInterp = 3 then 19 else 23
/-- Lg of a channel; a pair shares that of CH(2k) (R124). -/
def State.lg (s : State) (c : ChanId) : Nat := lgOf (s.fld (.lantCtrl (if s.paired c then evenOf c else c)) LANT_CTRL.MAX_INTERP)

/-- The state with a channel's NCO changed. -/
def State.updNco (s : State) (c : ChanId) (f : Nco → Nco) : State := s.updChan c (fun x => { x with nco := f x.nco })

/-- The granule count of a channel's Lamp × 32: the sample that falls at the present granule edge. -/
def State.sampleNow (s : State) (c : ChanId) : Nat := 32 * s.granC c

/-- An entry's NCO operation acts on a channel at sample `t` of the unit's count; COLLIDE where a register write met it (R44, R119). -/
def State.ncoOpAt (s : State) (c : ChanId) (e : EntryWords) (t : Nat) : State :=
  let curv := toSigned 24 (s.fld (.lantCurve c e.curve) LANT_CURVEj.CURVE)
  let hit := (s.chans[c].nco.before t).collides e t
  let s := s.updNco c (fun x => (x.before t).apply e curv t)
  if hit then s.raise (.lantStatus c) LANT_STATUS.COLLIDE else s

/-- A write of FREQ_HI applies the pair at granule edge `g` (R119, R130). With no write of FREQ_LO since the last pair, its half is the FREQ_LO last written (DESIGN CHOICE, log entry 115: the spec says only
that a FREQ_LO write is held until FREQ_HI is written). The sector registers of CH(2k+1) of a pair are not used: a write there has no effect (DEDUCED, log entry 116). -/
def State.freqWrite (s : State) (c : ChanId) (k : Fin 8) (hi : Nat) (g : Nat) : State :=
  if s.pairSlave c then s
  else s.updNco c (fun x => { x with writes := insertWrite ⟨k, BitVec.ofNat 48 (x.loHeld[k].toNat + hi % 2 ^ 16 * 2 ^ 32), 32 * g⟩ x.writes })
/-- A write of FREQ_LO is held (R130). -/
def State.freqHold (s : State) (c : ChanId) (k : Fin 8) (lo : Word) : State :=
  if s.pairSlave c then s else s.updNco c (fun x => { x with loHeld := x.loHeld.set k lo })

/-- PAIR of CH(2k) has changed: a pair formed holds the sectors of CH(2k+1) as they stand, a pair undone lets them advance again, save in IDLE (R62, R130). -/
def State.pairChanged (s : State) (c : ChanId) (was : Bool) : State :=
  let o := oddOf c
  let now := s.paired c
  if now = was then s
  else s.updNco o (fun x => { x.sync (s.sampleNow o) with runs := !now && s.chans[o].st != .idle })

/-! ### Samples: expansion, interpolation, sine, mixing and gain (R104 to R127) -/

/-- The bits `[n + w - 1 : n]` of a byte stream, bit 0 of byte 0 first (R107). -/
def streamBits (byte : Nat → Byte) (n w : Nat) : Nat :=
  bitsOf (fromBytes ((List.range (w / 8 + 2)).map (fun i => byte (n / 8 + i)))) (n % 8) w

/-- Stored sample `j` of a segment, expanded to 16-bit I and Q (R107). -/
def expandSample (format : Nat) (byte : Nat → Byte) (j : Nat) : Int × Int :=
  if format = 0x00 then (toSigned 16 (streamBits byte (16 * j) 16), 0)
  else if format = 0x01 then (toSigned 12 (streamBits byte (12 * j) 12) * 16, 0)
  else if format = 0x02 then (toSigned 8 (streamBits byte (8 * j) 8) * 256, 0)
  else if format = 0x10 then (toSigned 16 (streamBits byte (32 * j) 16), toSigned 16 (streamBits byte (32 * j + 16) 16))
  else if format = 0x11 then (toSigned 12 (streamBits byte (24 * j) 12) * 16, toSigned 12 (streamBits byte (24 * j + 12) 12) * 16)
  else (0, 0)

/-- The half-band coefficient c_k, as LANT_HBk reports it (R110). -/
def hbCoef (k : Fin 11) : Int := toSigned 18 (hbWord k).toNat

/-- One half-band stage (R110): output 2n is the input sample n, output 2n + 1 the rounded sum of the eleven coefficient pairs. -/
def halfBand (x : Int → Int) (m : Int) : Int :=
  if m % 2 = 0 then x (m / 2)
  else
    let n := m / 2
    roundDiv ((List.finRange 11).foldl (fun acc k => acc + hbCoef k * (x (n - k.val) + x (n + 1 + k.val))) 0) (2 ^ 17)

/-- The chain of a factor 2^k: HBk first, HB1 last (R110). -/
def interpolate : Nat → (Int → Int) → Int → Int
  | 0, x => x
  | k + 1, x => halfBand (interpolate k x)

/-- The spread H of the chain in output samples each side (R111). -/
def spreadOf (k : Nat) : Nat := 21 * (2 ^ k - 1)

/-- π × 2^128, the constant from which the quarter-wave table is formed. -/
def piScaled : Nat := 0x3243F6A8885A308D313198A2E03707344

/-- Terms of the sine series in units of 2^−128, alternating in sign. -/
def sineSeries (x2 : Nat) : Nat → Nat → Int → Int → Int
  | 0, _, _, acc => acc
  | n + 1, k, term, acc => sineSeries x2 n (k + 2) (-(term * x2 / 2 ^ 128) / ((k + 1) * (k + 2))) (acc + term)

/-- T[i] = round((2^17 − 1) sin(π/2 × i / 4,096)); T[4,096] = 2^17 − 1 (R125). -/
def sineTable (i : Nat) : Int :=
  if 4096 ≤ i then 2 ^ 17 - 1
  else
    let x := piScaled * i / 8192
    roundDiv ((2 ^ 17 - 1) * sineSeries (x * x / 2 ^ 128) 30 1 x 0) (2 ^ 128)

/-- The sine of a 48-bit phase, 18-bit two's complement (R125). -/
def sineOf (theta : BitVec 48) : Int :=
  let q := bitsOf theta.toNat 46 2
  let x := bitsOf theta.toNat 18 28
  let x' := if q = 1 ∨ q = 3 then 2 ^ 28 - x else x
  let m : Int :=
    if x' = 2 ^ 28 then 2 ^ 17 - 1
    else
      let i := x' / 2 ^ 16
      let f : Int := x' % 2 ^ 16
      sineTable i + roundDiv (f * (sineTable (i + 1) - sineTable i)) (2 ^ 16)
  if q < 2 then m else -m

/-- The cosine of a phase: the sine a quarter turn later (R125). -/
def cosineOf (theta : BitVec 48) : Int := sineOf (theta + BitVec.ofNat 48 (2 ^ 46))

/-- The mixing phase θ = A + POFF × 2^32 (R118). -/
def mixPhase (a : BitVec 48) (poff : Nat) : BitVec 48 := a + BitVec.ofNat 48 (poff * 2 ^ 32)

/-- The mixer (R123): `slave` for CH(2k+1) of a pair. -/
def mix (real mixReal paired slave : Bool) (i q : Int) (theta : BitVec 48) : Int :=
  if paired then
    if slave then roundDiv (i * sineOf theta + q * cosineOf theta) (2 ^ 17) else roundDiv (i * cosineOf theta - q * sineOf theta) (2 ^ 17)
  else if real then (if mixReal then roundDiv (i * cosineOf theta) (2 ^ 17) else i)
  else roundDiv (i * cosineOf theta - q * sineOf theta) (2 ^ 17)

/-- The gain stage before saturation, and the saturation to 16 bits (R127). -/
def gainOf (y : Int) (gain trim : Nat) : Int := roundDiv (y * gain * trim) (2 ^ 34)
def saturate16 (z : Int) : Int := if z > 32767 then 32767 else if z < -32768 then -32768 else z

/-- The offset-binary code of a hand-off value (R158). -/
def dacCode (z : Int) : Nat := (z + 32768).toNat

end Sys2Proof.Machine
end

