-- ==== Sys2Proof/Machine/Path.lean ====
section
/-! DEFINITION. The natural path of a walk, a channel's tables and play position, its paths to the Domes, and the streams it plays
(spec 02_characteristics.md R36 to R58, 01_dies_and_links.md R12, R17, 05_tender_streams.md R134 to R146). -/
namespace Sys2Proof.Machine
open Sys2Proof

/-! ### The natural path (R48) -/

/-- A place on the path: the entry, the iterations completed in the visit and the frames open, innermost first. -/
structure WalkPos where
  entry  : Nat
  iter   : Nat
  frames : List Frame
deriving DecidableEq, Repr

/-- What follows an iteration on the natural path (R48). -/
inductive WalkNext where
  | again (w : WalkPos)
  | visit (entry : Nat) (loopBack : Bool) (frames : List Frame)
  | stop
  | underflow
deriving DecidableEq, Repr

/-- The natural successor of an iteration (R43, R48). -/
def walkNext (t : Table) (w : WalkPos) : WalkNext :=
  let e := t.entry w.entry
  if e.repeats = 0 ∨ w.iter + 1 < e.repeats then .again { w with iter := w.iter + 1 }
  else if e.isEnd then .stop
  else if e.loopOp = 2 ∨ e.loopOp = 3 then
    match w.frames with
    | [] => .underflow
    | f :: fs =>
      if f.forever ∨ f.remaining > 1 then
        .visit (if e.loopOp = 2 then e.loopTarget else w.entry) true ({ f with remaining := f.remaining - 1 } :: fs)
      else .visit e.next false fs
  else if e.loopOp = 4 then
    match w.frames with
    | [] => .underflow
    | _ :: fs => .visit e.next false fs
  else .visit e.next false w.frames

/-- The before-visit frame action of an entry: none where an OPEN meets depth 8 (R43, R52). -/
def enterFrames (e : EntryWords) (loopBack : Bool) (frames : List Frame) : Option (List Frame) :=
  if loopBack then some frames
  else if e.loopOp = 1 ∨ e.loopOp = 3 then
    if frames.length ≥ 8 then none else some (⟨e.loopCount, e.loopCount == 0⟩ :: frames)
  else if e.loopOp = 5 then some []
  else some frames

/-- The place on the natural path at which the next iteration begins: none after a stop or a fault. -/
def pathStep (t : Table) (w : WalkPos) : Option WalkPos :=
  match walkNext t w with
  | .again w' => some w'
  | .visit e lb fs => (enterFrames (t.entry e) lb fs).map (fun fs' => ⟨e, 0, fs'⟩)
  | _ => none

/-- Granules on the natural path from the start of an iteration, counted no further than `limit` (R55): the stop at END caps it. -/
def pathGranules (t : Table) (limit : Nat) : Nat → WalkPos → Nat → Nat
  | 0, _, acc => min limit acc
  | fuel + 1, w, acc =>
    if acc ≥ limit then limit
    else
      let acc := acc + (t.entry w.entry).lenG
      match pathStep t w with
      | some w' => pathGranules t limit fuel w' acc
      | none => min limit acc

/-- The iteration of the natural path that is left at sample `at_`, from the one at `w`, which begins at sample `p`. -/
def walkAt (t : Table) (at_ : Nat) : Nat → WalkPos → Nat → WalkPos
  | 0, w, _ => w
  | fuel + 1, w, p =>
    let b := p + 32 * (t.entry w.entry).lenG
    if at_ ≤ b then w
    else match pathStep t w with
      | some w' => walkAt t at_ fuel w' b
      | none => w

/-- The first iteration boundary of the natural path whose granule lies at least `gap` after granule `r`: `p` is the sample at which the
iteration at `w` began. None where the path stops first (R79). -/
def boundaryFrom (t : Table) (r gap : Nat) : Nat → WalkPos → Nat → Option Nat
  | 0, _, _ => none
  | fuel + 1, w, p =>
    let b := p + 32 * (t.entry w.entry).lenG
    if b / 32 ≥ r + gap then some b
    else match pathStep t w with
      | some w' => boundaryFrom t r gap fuel w' b
      | none => none

/-! ### A channel's tables and position -/

/-- The active table of a channel (R36). -/
def State.table (s : State) (c : ChanId) : Table := s.chans[c].slots[s.chans[c].activeSlot]
/-- The staged slot, and the staged table. -/
def State.stagedSlot (s : State) (c : ChanId) : Fin 2 := twin s.chans[c].activeSlot
def State.staged (s : State) (c : ChanId) : Table := s.chans[c].slots[s.stagedSlot c]
/-- The entry in play. -/
def State.entryOf (s : State) (c : ChanId) : EntryWords := (s.table c).entry s.chans[c].entry
/-- The place at which an entry is entered, its before-visit action applied: none where that overflows. -/
def enterAt (t : Table) (i : Nat) (frames : List Frame) : Option WalkPos := (enterFrames (t.entry i) false frames).map (fun fs => ⟨i, 0, fs⟩)
/-- The place of the play walker; of a channel that primes for a start, the start entry as it will be entered. -/
def State.walkPos (s : State) (c : ChanId) : WalkPos :=
  let x := s.chans[c]
  let here : WalkPos := ⟨x.entry, x.iter, x.frames⟩
  if x.st = .priming ∧ ¬ x.resume then (enterAt (s.table c) x.entry []).getD here else here

/-- The first sample after the iteration in play. -/
def State.iterEnd (s : State) (c : ChanId) : Nat := s.chans[c].iterStart + 32 * (s.entryOf c).lenG

/-- A pause of R151 holds the walk inside the iteration in play, from the sample given on. -/
def State.heldFrom (s : State) (c : ChanId) : Option Nat :=
  match s.chans[c].pauseFrom with
  | some q => if q < s.iterEnd c then some q else none
  | none => none

/-- The play position in samples of the channel's count (spec 03, preamble): it stands at the end of an iteration until the walk takes it, and
runs on through a pause of R151. -/
def State.playPos (s : State) (c : ChanId) : Nat :=
  let x := s.chans[c]
  match x.st with
  | .playing =>
    let t := 32 * (s.granC c - x.startGran)
    if (s.heldFrom c).isSome then max x.iterStart t else max x.iterStart (min t (s.iterEnd c))
  | _ => x.stopPos

/-- The sample of the iteration the walk stands at: the play position, or where a pause of R151 holds the walk. -/
def State.walkPlace (s : State) (c : ChanId) : Nat := match s.heldFrom c with | some q => min q (s.playPos c) | none => s.playPos c

/-- The granule of the play position: the channel's granule count (R74). -/
def State.playGran (s : State) (c : ChanId) : Nat := s.playPos c / 32

/-- Samples by which a pause of R151 has slid the rest of the iteration so far. -/
def State.pauseShift (s : State) (c : ChanId) : Nat := s.playPos c - s.walkPlace c

/-- The state in which the play position of a channel has reached the granule that holds sample `p`. -/
def State.reachPos (s : State) (c : ChanId) (p : Nat) : State := s.reachGranC c (s.chans[c].startGran + p / 32)

/-- Sample `p` of a channel on its Lamp's granule count × 32. -/
def State.unitSample (s : State) (c : ChanId) (p : Nat) : Nat := 32 * s.chans[c].startGran + p

/-- CHAR_POS.STATE (R71). -/
def ChanState.code : ChanState → Nat
  | .idle => 0 | .priming => 1 | .playing => 2 | .ended => 3 | .fault => 4

/-- PRIMING, PLAYING or FAULT: the states in which the LK fields of a channel are locked (R71, R103, R130, R187). -/
def ChanState.busy : ChanState → Bool
  | .priming => true | .playing => true | .fault => true | _ => false

/-- The lead (R55): granules whose samples are in the prefetch buffer or requested, beyond the play position. -/
def State.lead (s : State) (c : ChanId) : Nat := s.chans[c].reqTo - s.playGran c

/-- LEAD_MIN keeps the least lead in PLAYING since it was last read (R55). -/
def State.noteLead (s : State) (c : ChanId) : State :=
  if s.chans[c].st = .playing then
    s.setFld (.charLead c) CHAR_LEAD.LEAD_MIN (min (s.fld (.charLead c) CHAR_LEAD.LEAD_MIN) (s.lead c))
  else s

/-- A report joins those the engine sends its progress shadow (R54, R102). -/
def State.report (s : State) (c : ChanId) (r : ChanReport) : State := s.updChan c (fun x => { x with reports := x.reports ++ [⟨r, s.granC c⟩] })

/-- The state with one shadow changed. -/
def State.updShadow (s : State) (c : ChanId) (f : Shadow → Shadow) : State := { s with shadows := s.shadows.set c (f s.shadows[c]) }

/-- A pause of R151 begins at sample `q`, and ends at sample `p` where there is one; the shadow learns of both (DEDUCED, log entry 37). -/
def State.pauseBegins (s : State) (c : ChanId) (q : Nat) : State :=
  (s.updChan c (fun x => { x with pauseFrom := some q })).updShadow c (fun x => { x with pauses := x.pauses ++ [⟨q, none⟩] })
def State.pauseEnds (s : State) (c : ChanId) (p : Nat) : State :=
  (s.updChan c (fun x => { x with pauseFrom := none })).updShadow c (fun x => { x with pauses := x.pauses.map (fun y => { y with upto := some (y.upto.getD p) }) })

/-! ### Paths to the Domes (R12, R17) -/

/-- The hawser link of a Lamp die to a Dome (R12). -/
def linkOf (n : LampId) (d : DomeId) : LinkId := ⟨2 * n.val + d.val, by omega⟩
/-- The Dome–Dome link, the Meridian links and the Meridian–Meridian link (R12). -/
def linkDomes : LinkId := 8
def linkMeridDome (m : MerId) (d : DomeId) : LinkId := ⟨13 + 6 * m.val + d.val, by omega⟩
def linkMerids : LinkId := 21

/-- The preferred Dome of a channel's Lamp die (R17). -/
def preferredDome (c : ChanId) : DomeId := if (lampOf c).val < 2 then 0 else 1
/-- A Lamp die reaches a Dome over its own link. -/
def State.reaches (s : State) (n : LampId) (d : DomeId) : Bool := !s.links[linkOf n d].lost && !s.dieLost[Die.ofDome d]
/-- The preferred Dome, or the other one where it or its link is lost (R17). -/
def State.mirrorDome (s : State) (c : ChanId) : DomeId :=
  if s.reaches (lampOf c) (preferredDome c) then preferredDome c else twin (preferredDome c)
/-- The Dome an entry's samples are read from (R17). -/
def State.readDome (s : State) (c : ChanId) (e : EntryWords) : DomeId :=
  match e.home with
  | 0 => 0
  | 1 => 1
  | 3 => domeOfStream (Fin.ofNat 16 e.segAddr)
  | _ => s.mirrorDome c

/-- The Dome runs in HALF (R29). -/
def State.half (s : State) (d : DomeId) : Bool := s.isSet (.moorCfg d) MOOR_CFG.HALF

/-- Bytes of one component: 16, 24 or 32 Gbit (R287). -/
def State.capacity (s : State) (d : DomeId) : Nat :=
  match s.fld (.mpState d 0) MP_STATE.DENSITY with
  | 1 => 2 ^ 31
  | 2 => 3 * 2 ^ 30
  | 3 => 2 ^ 32
  | _ => 0

/-- Bytes of the data space: 3 C in FULL, C in HALF (R291, R292). -/
def State.dataBytes (s : State) (d : DomeId) : Nat := if s.half d then s.capacity d else 3 * s.capacity d

/-- Attached: any state but DETACHED (R143). -/
def State.attached (s : State) (st : StreamId) : Bool := s.streams[st].st != .detached

/-- The segment of an entry lies in the data space of its home, or its stream is attached with its format (R47). -/
def State.segmentOk (s : State) (e : EntryWords) : Bool :=
  if ¬ memFormat e.format then true
  else if e.home = 3 then
    let st : StreamId := Fin.ofNat 16 e.segAddr
    s.attached st && s.fld (.tndCtrl st) TND_CTRL.FORMAT == e.format
  else (List.finRange 2).all (fun d => (e.home != 2 && e.home != d.val) || (e.home == 2 && s.dieLost[Die.ofDome d]) || decide ((e.segAddr + segUnits e) * 64 ≤ s.dataBytes d))

/-- The home Dome of a single-homed segment is lost (R34). -/
def State.segLost (s : State) (e : EntryWords) : Bool :=
  memFormat e.format && ((e.home == 0 && s.dieLost[Die.domeA]) || (e.home == 1 && s.dieLost[Die.domeB]))

/-! ### Streams the walk plays (R134, R140, R141, R146) -/

/-- Slots of the region, S (R135). -/
def State.slotsOf (s : State) (st : StreamId) : Nat := 2 ^ (s.fld (.tndRegion st) TND_REGION.SIZE_LOG2) / 65536
/-- First byte of the region in its Dome's data space, and its size. -/
def State.regionBase (s : State) (st : StreamId) : Nat := s.fld (.tndRegion st) TND_REGION.BASE * 2 ^ 20
def State.regionSize (s : State) (st : StreamId) : Nat := 2 ^ (s.fld (.tndRegion st) TND_REGION.SIZE_LOG2)
/-- The stream an entry plays (R141). -/
def entryStream (e : EntryWords) : Option StreamId := if e.home = 3 ∧ memFormat e.format then some (Fin.ofNat 16 e.segAddr) else none

/-- Whether a granule of the stream is substituted now: under-run, drained or lost (R146, R153, R154). -/
def StreamState.substitutes : StreamState → Bool
  | .underrun => true | .drained => true | .lost => true | _ => false

/-- u, the bytes of an output granule, and Gb, the granules of a block (R134). -/
def granuleBytes (format interp : Nat) : Nat := 32 / 2 ^ interp * storedBits format / 8
def blockGranules (format interp : Nat) : Nat := 65536 / max 1 (granuleBytes format interp)
def State.gbOf (s : State) (st : StreamId) : Nat := blockGranules (s.fld (.tndCtrl st) TND_CTRL.FORMAT) (s.fld (.tndCtrl st) TND_CTRL.INTERP)

/-- The channel a stream is bound to: in pair mode CH(2k) (R132). -/
def State.chanOf (s : State) (st : StreamId) : ChanId := s.walkerOf (Fin.ofNat 16 (s.fld (.tndCtrl st) TND_CTRL.CHANNEL))
/-- TND_CTRL.POLICY is KEEP_POSITION (R151). -/
def State.keepsPosition (s : State) (st : StreamId) : Bool := s.isSet (.tndCtrl st) TND_CTRL.POLICY

/-- Granules of the stream entry in play up to sample `p` that are not yet accounted: those played from the region, those substituted, and the advance of P (R140, R146, R151). -/
def State.streamSpan (s : State) (st : StreamId) (p : Nat) : Nat × Nat × Nat :=
  let x := s.streams[st]
  let y := s.chans[s.chanOf st]
  let from_ := max x.at_ y.iterStart
  match (if x.st = .underrun ∧ s.keepsPosition st then s.heldFrom (s.chanOf st) else none) with
  | some q =>
    let n := (min p q - from_) / 32
    (n, (p - max from_ q) / 32, n)
  | none =>
    let n := (p - from_) / 32
    let played := if x.st.substitutes then min n (x.missing - x.pos) else n
    (played, n - played, n)

/-- P as TND_POS reports it (R140, R146). -/
def State.streamPos (s : State) (st : StreamId) : Nat :=
  let c := s.chanOf st
  if s.chans[c].st = .playing ∧ entryStream (s.entryOf c) = some st then s.streams[st].pos + (s.streamSpan st (s.playPos c)).2.2 else s.streams[st].pos

/-! ### Channels that follow a walk (R63) -/

/-- The channels whose pipeline and markers follow a walk: its own, and CH(2k+1) in pair mode. -/
def State.markerChans (s : State) (c : ChanId) : List ChanId := if s.paired c && c.val % 2 == 0 then [c, oddOf c] else [c]

end Sys2Proof.Machine
end

