-- ==== Sys2Proof/Machine/Samples.lean ====
section
/-! DEFINITION. The samples a channel plays: stored samples, the carried and the cut interpolation chain, mixing, gain and saturation, the hand-off and the code at the balls
(spec 04_lantern_pipeline.md R104 to R127, 06_outputs.md R158 to R162, 05_tender_streams.md R146, R147). -/
namespace Sys2Proof.Machine
open Sys2Proof

/-! ### Pieces of the path -/

/-- Where stored samples come from: an entry's own segment or constant, a fallback entry from its granule `gran` on (R147), each behind the bytes `head` of its held head (R88), a stream from its
granule `base` on (R141), or nowhere the spec names. -/
inductive Feed where
  | entry (e : EntryWords) (head : List Byte)
  | fill (e : EntryWords) (gran : Nat) (head : List Byte)
  | stream (st : StreamId) (base : Nat)
  | open_
deriving DecidableEq, Repr

/-- A stretch of the path from one source at one factor 2^`factor`, in samples of the channel's count: whether it plays dark, and the stream in whose gap it repeats the granule before the gap (R146). -/
structure Piece where
  start  : Nat
  stop   : Nat
  factor : Nat
  feed   : Feed
  dark   : Bool
  hold   : Option StreamId
deriving DecidableEq, Repr

/-- The held head of an entry in a ready list: no byte where its place is not held (R88). -/
def headIn (l : List ReadyPlace) (i : Nat) : List Byte := match l.find? (fun r => r.entry == i && r.held) with | some r => r.head | none => []
/-- The held head of an entry of the active table. -/
def State.headOf (s : State) (c : ChanId) (i : Nat) : List Byte := headIn s.chans[c].ready i

/-- The fallback entry of a stream (R147). -/
def State.fallbackOf (s : State) (st : StreamId) : EntryWords := (s.table (s.chanOf st)).entry (s.fld (.tndFallback st) TND_FALLBACK.ENTRY)

/-- A substituted stretch of a stream entry, from granule `gran` of its gap on (R146, R147). -/
def State.fillPiece (s : State) (st : StreamId) (start stop factor gran : Nat) : Piece :=
  match s.fld (.tndCtrl st) TND_CTRL.FILL_MODE with
  | 0 =>
    let e := s.fallbackOf st
    ⟨start, stop, if memFormat e.format then e.interp else factor, .fill e gran (s.headOf (s.chanOf st) (s.fld (.tndFallback st) TND_FALLBACK.ENTRY)), false, none⟩
  | 1 => ⟨start, stop, factor, .open_, true, none⟩
  | _ => ⟨start, stop, factor, .open_, false, some st⟩

/-- Stretches that hold a sample. -/
def keepPieces (l : List Piece) : List Piece := l.filter (fun p => decide (p.start < p.stop))

/-- The pieces of an iteration of an entry from `start` to `stop`, whose first granule is granule `base` of its stream. A stream that does not flow is substituted from its missing granule on, up to
its re-entry (R146, R150); a walk that KEEP_POSITION holds from `q` plays nothing else until the re-entry, and then the granules that are left (R151). -/
def State.iterPieces (s : State) (e : EntryWords) (head : List Byte) (start stop base factor : Nat) (held : Option Nat) (upto : Nat) : List Piece :=
  match entryStream e with
  | none => [⟨start, stop, factor, .entry e head, false, none⟩]
  | some st =>
    let x := s.streams[st]
    let play := fun (a b g : Nat) => (⟨a, b, factor, .stream st g, false, none⟩ : Piece)
    if ¬ x.st.substitutes then [play start stop base]
    else match held with
      | some q =>
        let r := if x.resumeAt.isSome then x.reenter else max stop upto
        keepPieces [play start q base, s.fillPiece st q r factor 0, play r (stop + (r - q)) (base + (q - start) / 32)]
      | none =>
        let lo := min stop (start + 32 * (x.missing - base))
        let hi := match x.resumeAt with
          | some g => min stop (start + 32 * (g - base))
          | none => stop
        keepPieces [play start lo base, s.fillPiece st lo hi factor (base + (lo - start) / 32 - x.missing), play hi stop (base + (hi - start) / 32)]

/-- The granules a group leader adds to its registration gc: 16, for its own requests (R98). -/
def State.groupLag (s : State) (c : ChanId) (ordered : Bool) : Nat := if s.isSet (.jmpGroup c) JMP_GROUP.GROUP_EN && !ordered then 16 else 0

/-- A pending jump is due at boundary `b`: a request that moves with its boundary, 40 gc or more after its registration; else a take point at that sample (R79, R95, R98). -/
def State.pendDue (s : State) (c : ChanId) (j : PendingJump) (b : Nat) : Bool :=
  if j.atBoundary then decide (j.regGc + s.groupLag c j.group + 40 ≤ ((b / 32 : Nat) : Int)) else decide (j.take = b)

/-- A committed swap falls due at boundary `b`, at which the iteration at `w` ends: AT_BOUNDARY, the first boundary 40 gc or more after u; AT_END, where the walk would stop (R40). -/
def swapDueAt (t : Table) (w : WalkPos) (x : PendingSwap) (b : Nat) : Bool := if x.atEnd then walkNext t w == .stop else decide (b / 32 ≥ x.effect + 40)

/-- The granule of each stream that the path plays next. -/
abbrev StreamBases := List (StreamId × Nat)
def StreamBases.at_ (l : StreamBases) (st : StreamId) : Nat := (l.lookup st).getD 0

/-- The path from the iteration at `w`, which begins at sample `start`, as far as the chain carries what it plays into the samples before `upto`: along the natural path, at a take point or a committed
swap over to its target, and no further than a TIMED splice or the walk's stop (R48, R113). -/
def State.pathPieces (s : State) (c : ChanId) (upto : Nat) :
    Nat → Table → WalkPos → List Byte → Nat → StreamBases → Option PendingJump → Option PendingSwap → Nat → Option Nat → List Piece
  | 0, _, _, _, _, _, _, _, _, _ => []
  | fuel + 1, t, w, head, start, bases, pend, swap, factor, held =>
    let e := t.entry w.entry
    let whole := start + 32 * e.lenG
    let inside : Bool := match pend with
      | some j => !j.atBoundary && decide (start < j.take) && (decide (j.take < whole) || held.isSome)
      | none => false
    let stop := match pend with
      | some j => if inside then j.take else whole
      | none => whole
    let k := if memFormat e.format then e.interp else factor
    let base := match entryStream e with | some st => bases.at_ st | none => 0
    let here := s.iterPieces e head start stop base k held upto
    let here := if inside then keepPieces (here.map (fun p => { p with stop := min p.stop stop })) else here
    let bases := match entryStream e with
      | some st => (st, base + (stop - start) / 32) :: bases
      | none => bases
    if upto ≤ stop ∨ (held.isSome ∧ ¬ inside) then here
    else
      let leaps : Bool := match pend with
        | some j => inside || s.pendDue c j stop
        | none => false
      let swaps : Bool := !inside && (match swap with
        | some x => swapDueAt t w x stop
        | none => false)
      if swaps then
        let i := match swap with | some x => x.entry | none => 0
        match enterAt (s.staged c) i [] with
        | some w' => here ++ s.pathPieces c upto fuel (s.staged c) w' (headIn (s.chans[c].readyNext.getD []) i) stop bases none none k none
        | none => here
      else match pend, leaps with
        | some j, true => if j.mode = .timed then here
          else match enterAt t j.target w.frames with
            | some w' => here ++ s.pathPieces c upto fuel t w' (s.headOf c j.target) stop bases none swap k none
            | none => here
        | _, _ =>
          match pathStep t w with
          | some w' => here ++ s.pathPieces c upto fuel t w' [] stop bases pend swap k none
          | none => here

/-- The granule of the stream an iteration plays that its first sample stands at (R140). -/
def State.iterBase (s : State) (c : ChanId) (st : StreamId) : Nat :=
  let x := s.streams[st]
  x.pos - (max x.at_ s.chans[c].iterStart - s.chans[c].iterStart) / 32

/-- The path from the iteration in play on, as far as samples before `upto` need it. -/
def State.pieces (s : State) (c : ChanId) (upto : Nat) : List Piece :=
  let x := s.chans[c]
  let bases := (List.finRange 16).map (fun st => (st, if entryStream (s.entryOf c) = some st then s.iterBase c st else s.streams[st].pos))
  let head := if x.headed ∧ x.iter = 0 then s.headOf c x.entry else []
  s.pathPieces c upto 64 (s.table c) (s.walkPos c) head x.iterStart bases x.pend x.swap x.factor (s.heldFrom c)

/-! ### Stored samples (R107 to R109) -/

/-- The settings a pipeline uses at a sample of the unit's granule count × 32 (R127). -/
def Pipe.setAt (x : Pipe) (u : Nat) : LantSet := x.waits.foldl (fun a w => if w.1 ≤ u then w.2 else a) x.inForce

/-- A byte of a Dome's data space, none in a poisoned unit (R310). -/
def State.sampleByte (s : State) (d : DomeId) (a : Nat) : Option Byte := if a / 64 * 64 ∈ s.moor[d].poison then none else some (Memory.get s.moor[d].data a)

/-- The bytes from `a` on that hold the bits of `n` stored samples of a format from sample `j`, none where one of them is poisoned. -/
def State.sampleOf (s : State) (d : DomeId) (a format j : Nat) : Option (Int × Int) :=
  let b := storedBits format
  if (List.range ((b * j + b - 1) / 8 - b * j / 8 + 1)).all (fun i => (s.sampleByte d (a + b * j / 8 + i)).isSome) then
    some (expandSample format (fun i => (s.sampleByte d (a + i)).getD 0) j)
  else none

/-- Stored sample `j` of an entry's segment: from its held head where that has it (R58, R88); else from the Dome its HOME names; a mirrored one from the other Dome where it is poisoned there (R17, R310);
none where no Dome holds it (R34). -/
def State.storedSample (s : State) (c : ChanId) (e : EntryWords) (head : List Byte) (j : Nat) : Option (Int × Int) :=
  if storedBits e.format * (j + 1) ≤ 8 * head.length then some (expandSample e.format (fun i => head.getD i 0) j)
  else if s.segLost e then none
  else
    let d := s.readDome c e
    match s.sampleOf d (e.segAddr * 64) e.format j with
    | some v => some v
    | none => if e.home = 2 ∧ ¬ s.dieLost[Die.ofDome (twin d)] then s.sampleOf (twin d) (e.segAddr * 64) e.format j else none

/-- Sample `n` of a stream's granule `g`, from its region (R134, R136). -/
def State.streamSample (s : State) (st : StreamId) (g n : Nat) : Option (Int × Int) :=
  let format := s.fld (.tndCtrl st) TND_CTRL.FORMAT
  let gb := max 1 (s.gbOf st)
  let a := s.regionBase st + g / gb % max 1 (s.slotsOf st) * 65536 + g % gb * granuleBytes format (s.fld (.tndCtrl st) TND_CTRL.INTERP)
  s.sampleOf (domeOfStream st) a format n

/-- What an entry feeds a pipeline at its stored sample `j` (R107, R109); `amp` is LANT_DDS_AMP. -/
def State.entrySample (s : State) (c : ChanId) (e : EntryWords) (head : List Byte) (amp j : Nat) : Option (Int × Int) :=
  if e.format = 0x20 then some (amp, 0)
  else if memFormat e.format then s.storedSample c e head j
  else some (0, 0)

/-- The walk of `c` has a granule of its own to play at sample `t`: not a prime gap, a late granule or a relay shortage (R32, R57, R59). -/
def State.arrives (s : State) (c : ChanId) (t : Nat) : Bool := !s.chans[c].relayDark && decide (s.chans[c].darkTo ≤ t / 32)

/-- The stored sample centred on sample `t` of a piece, for the pipeline of channel `x` on the walk of `c`; none where its granule is not there (R112). -/
def State.pieceSample (s : State) (c x : ChanId) (p : Piece) (t : Nat) : Option (Int × Int) :=
  let f := 2 ^ p.factor
  let amp := (s.chans[x].pipe.setAt (s.unitSample c t)).amp
  match p.feed with
  | .entry e head => if memFormat e.format ∧ ¬ s.arrives c t then none else s.entrySample c e head amp ((t - p.start) / f)
  | .fill e g head => s.entrySample c e head amp (((g + (t - p.start) / 32) % e.lenG * 32 + (t - p.start) % 32) / f)
  | .stream st g => if s.arrives c t then s.streamSample st (g + (t - p.start) / 32) ((t - p.start) % 32 / f) else none
  | .open_ => none

/-- The stored sample fed at sample `t` (R110): a free one where the spec names none. -/
def State.fed (s : State) (c x : ChanId) (p : Piece) (t : Nat) : Int × Int :=
  match s.pieceSample c x p t with
  | some v => v
  | none =>
    let v := (Config.lostSample x (s.unitSample c t)).toNat
    (toSigned 16 (v % 2 ^ 16), toSigned 16 (v / 2 ^ 16 % 2 ^ 16))

/-! ### The chain (R110 to R113) -/

/-- Pieces in a row that one chain carries: each begins where the one before ends, at the same factor. -/
def runsOf (ps : List Piece) : List (List Piece) := ps.splitBy (fun a b => a.stop == b.start && a.factor == b.factor)

/-- The input of the chain at a sample of its grid, over the pieces one chain carries; `old` are the stored samples centred before sample `done`, newest first. Where it holds none, the stream is zero. -/
def State.chainInput (s : State) (c x : ChanId) (run : List Piece) (old : List (Int × Int)) (done f : Nat) (u : Int) : Int × Int :=
  let back := (done : Int) - u
  if 0 < back then old.getD (ceilDiv back.toNat f - 1) (0, 0)
  else match run.find? (fun p => decide ((p.start : Int) ≤ u ∧ u < p.stop)) with
    | some p => s.fed c x p u.toNat
    | none => (0, 0)

/-- Samples a chain holds on each side: the reach of its stages in stored samples (R111). -/
def chainHolds : Nat := 21
/-- Hand-off values on their way to the balls: those of the largest Lg (R105), and the granule before them, whose last sample the lookout's model takes too (R182). -/
def lineHolds : Nat := 32 * 24

/-! ### Mixing, gain and hand-off (R114, R118, R123 to R127) -/

/-- A piece plays a real format (R123); where the spec names no source, that of the entry in play. -/
def State.pieceReal (s : State) (c : ChanId) (p : Piece) : Bool :=
  let real := fun f => memFormat f && !complexFormat f
  match p.feed with
  | .entry e _ => real e.format
  | .fill e _ _ => real e.format
  | .stream st _ => real (s.fld (.tndCtrl st) TND_CTRL.FORMAT)
  | .open_ => real (s.entryOf c).format

/-- What the gain stage of channel `x` forms for sample `t` of a piece, before saturation: the chain's output, mixed at the phase of the walk's sector in use, times GAIN of the visit and LANT_TRIM. -/
def State.gainStage (s : State) (c x : ChanId) (p : Piece) (input : Int → Int × Int) (nco : Nco) (t : Nat) : Int :=
  let set := s.chans[x].pipe.setAt (s.unitSample c t)
  let f : Int := 2 ^ p.factor
  let n : Int := (t : Int) - p.start
  let i := interpolate p.factor (fun m => (input (p.start + m * f)).1) n
  let q := interpolate p.factor (fun m => (input (p.start + m * f)).2) n
  gainOf (mix (s.pieceReal c p) set.mixReal (s.paired x) (s.pairSlave x) i q (mixPhase nco.acc[nco.sector] set.poff)) (s.entryOf c).gain set.trim

/-- A granule of a piece plays dark (R34, R57, R59, R146, R310): DARK fill, the walk's segment dark, or a stored sample of it not there; a HOLD fill repeats what came before it. -/
def State.granuleMissing (s : State) (c x : ChanId) (p : Piece) (t : Nat) : Bool :=
  let g := p.start + (t - p.start) / 32 * 32
  let f := 2 ^ p.factor
  p.dark || s.chans[c].segDark || (p.hold.isNone && (List.range (32 / f)).any (fun i => (s.pieceSample c x p (g + i * f)).isNone))

/-- A range change of a channel holds a sample of the unit's granule count × 32 dark (R166). -/
def Chan.changeDark (x : Chan) (u : Nat) : Bool := x.changes.any (fun r => decide (r.first ≤ u ∧ u < r.first + 64 * r.nh))

/-- The samples of a stretch as they pass the gain stage: the NCO, the hand-off values so far, the granule last looked at and whether it plays dark, saturated samples, the granules of the unit's
count that hold one, newest first, and what HOLD fills repeat. -/
structure Pass where
  nco   : Nco
  line  : List (Option Int)
  look  : Option (Nat × Bool)
  count : Nat
  grans : List Nat
  held  : List (StreamId × List (Option Int))
deriving DecidableEq, Repr

/-- Sample `t` passes the gain stage (R104, R127): z is saturated, counted, and handed off; a HOLD fill hands off the values of the granule before the gap (R146). -/
def State.passSample (s : State) (c x : ChanId) (runs : List (List Piece × List (Int × Int))) (done : Nat) (a : Pass) (t : Nat) : Pass :=
  let u := s.unitSample c t
  let nco := a.nco.sync u
  let covers := fun (p : Piece) => decide (p.start ≤ t ∧ t < p.stop)
  match runs.find? (fun r => r.1.any covers) with
  | none => { a with nco := nco, line := (none :: a.line).take lineHolds }
  | some (run, old) =>
    match run.find? covers with
    | none => { a with nco := nco, line := (none :: a.line).take lineHolds }
    | some p =>
      let z := s.gainStage c x p (s.chainInput c x run old done (2 ^ p.factor)) nco t
      let g := p.start + (t - p.start) / 32 * 32
      let dark : Bool := match a.look with
        | some (g', b) => if g' = g then b else s.granuleMissing c x p t
        | none => s.granuleMissing c x p t
      let held := match p.hold with
        | some st => if (a.held.lookup st).isSome then a.held else (st, a.line.take 32) :: a.held
        | none => a.held
      let out := if dark || s.chans[x].changeDark u then none
        else match p.hold with
          | some st => (((held.lookup st).getD [])[31 - (t - p.start) % 32]?).join
          | none => some (saturate16 z)
      let sat := saturate16 z != z
      { nco := nco
        line := (out :: a.line).take lineHolds
        look := some (g, dark)
        count := if sat then a.count + 1 else a.count
        grans := if sat && a.grans.head? != some (u / 32) then u / 32 :: a.grans else a.grans
        held := held }

/-- The state with a channel's pipeline changed. -/
def State.updPipe (s : State) (x : ChanId) (f : Pipe → Pipe) : State := s.updChan x (fun y => { y with pipe := f y.pipe })

/-- Saturated samples are counted and flagged; with SAT_EV, one event for each granule that holds one (R127). -/
def State.saturated (s : State) (x : ChanId) (count : Nat) (grans : List Nat) : State :=
  if count = 0 then s
  else
    let s := (s.bumpBy (.lantSat x) LANT_SAT.COUNT count).raise (.lantStatus x) LANT_STATUS.SAT
    let new := grans.reverse.filter (fun g => s.chans[x].pipe.satGran != some g)
    let s := s.updPipe x (fun y => { y with satGran := match grans.head? with | some g => some g | none => y.satGran })
    if s.isSet (.lantCtrl x) LANT_CTRL.SAT_EV then new.foldl (fun s _ => s.publish (.chan x .lantSat) 0) s else s

/-- The samples of channel `x` before sample `b` of the iteration in play of `c`, not yet passed, pass its pipeline (R104). A chain cut within them sets CUT (R113, R147). -/
def State.passTo (s : State) (c x : ChanId) (b : Nat) : State :=
  let y := s.chans[x].pipe
  if b ≤ y.done then s
  else
    let runs := (runsOf (s.pieces c (b + 32 * 12))).zipIdx.map (fun r => (r.1, if r.2 = 0 ∧ r.1.all (fun p => p.factor == y.factor) then y.tail else []))
    let here := runs.filter (fun r => r.1.any (fun p => decide (p.start < b ∧ y.done < p.stop)))
    let a := (List.range (b - y.done)).foldl (fun a i => s.passSample c x runs y.done a (y.done + i)) (⟨s.chans[c].nco, y.line, none, 0, [], y.held⟩ : Pass)
    let u := s.unitSample c b
    let last := here.getLast?.bind (fun r => (r.1.find? (fun p => decide (p.start < b ∧ b ≤ p.stop))).map (fun p => (r, p)))
    let (tail, factor) := match last with
      | some (r, p) =>
        let f := 2 ^ p.factor
        let newest := p.start + (b - 1 - p.start) / f * f
        ((List.range chainHolds).map (fun i => s.chainInput c x r.1 r.2 y.done f ((newest : Int) - (i * f : Nat))), p.factor)
      | none => ([], y.factor)
    let cut := decide (1 < here.length) || here.any (fun r => r.1.any (fun p => decide (p.start ≤ y.done ∧ y.done < p.stop) && p.factor != y.factor))
    let s := s.updPipe x (fun y => { y with done := b, tail := tail, factor := factor, line := a.line, held := a.held, inForce := y.setAt u, waits := y.waits.filter (fun w => decide (u < w.1)) })
    (if cut then s.raise (.lantStatus x) LANT_STATUS.CUT else s).saturated x a.count a.grans

/-- The pipelines that follow a walk have passed the samples before `p`. -/
def State.pipeTo (s : State) (c : ChanId) (p : Nat) : State := (s.markerChans c).foldl (fun s x => s.passTo c x p) s

/-- The pipelines on the walk of a playing channel have passed the samples up to its play position. -/
def State.pipeNow (s : State) (c : ChanId) : State := if s.chans[c].st = .playing then s.pipeTo c (s.playPos c) else s

/-- The pipelines of every playing channel. -/
def State.pipesNow (s : State) : State := (List.finRange 16).foldl State.pipeNow s

/-- The chains on a walk hold nothing from here on, at a new factor (R113). -/
def State.emptyChain (s : State) (c : ChanId) (factor : Nat) : State :=
  (s.markerChans c).foldl (fun s x => s.updPipe x (fun y => { y with tail := [], factor := factor })) s

/-- A change of path cuts the chains on a walk (R113). -/
def State.cutChain (s : State) (c : ChanId) (factor : Nat) : State :=
  (s.markerChans c).foldl (fun s x => s.raise (.lantStatus x) LANT_STATUS.CUT) (s.emptyChain c factor)

/-- The pipelines on a walk start at sample `p` with zero history (R113). -/
def State.startPipes (s : State) (c : ChanId) (p : Nat) : State :=
  (s.markerChans c).foldl (fun s x => s.updPipe x (fun y => { y with done := p, tail := [], line := [], satGran := none, held := [] })) s

/-- A gap of a stream ends: what its HOLD fill repeats is of no more use (R146, R148). -/
def State.dropHeld (s : State) (st : StreamId) : State :=
  (s.markerChans (s.chanOf st)).foldl (fun s x => s.updPipe x (fun y => { y with held := y.held.filter (fun p => p.1 ≠ st) })) s

/-- The hand-off values on their way to the balls are cut off at the DAC stage (R164). -/
def State.cutLines (s : State) (c : ChanId) : State := (s.markerChans c).foldl (fun s x => s.updPipe x (fun y => { y with line := [] })) s

/-- LANT_TRIM, LANT_POFF, LANT_DDS_AMP and MIX_REAL as the registers hold them. -/
def State.lantRegs (s : State) (x : ChanId) : LantSet :=
  ⟨s.fld (.lantTrim x) LANT_TRIM.TRIM, s.fld (.lantPoff x) LANT_POFF.POFF, s.fld (.lantDdsAmp x) LANT_DDS_AMP.AMP, s.isSet (.lantCtrl x) LANT_CTRL.MIX_REAL⟩

/-- A write of one of them reaches the die: the new settings take effect at granule edge `g` of the unit's count (R127). The spec gives the edge for LANT_TRIM alone; the others take effect in the same way
(DESIGN CHOICE, log entry 25). -/
def State.lantWritten (s : State) (x : ChanId) (g : Nat) : State :=
  let w := s.walkerOf x
  let s := s.pipeNow w
  let now := if s.chans[w].st = .playing then s.unitSample w s.chans[x].pipe.done else s.sampleNow x
  let s := s.updPipe x (fun y => { y with inForce := y.setAt now, waits := y.waits.filter (fun v => decide (now < v.1)) })
  let new := s.lantRegs x
  let y := s.chans[x].pipe
  if new = ((y.waits.getLast?).map (·.2)).getD y.inForce then s else s.updPipe x (fun y => { y with waits := y.waits ++ [(32 * g, new)] })

end Sys2Proof.Machine
end

