-- ==== Sys2Proof/Machine/Walk.lean ====
section
/-! DEFINITION. The walk of a characteristic: visits, iterations, frames, prefetch, range asks, publications and stops
(spec 02_characteristics.md R36 to R71, 06_outputs.md R158 to R172). -/
namespace Sys2Proof.Machine
open Sys2Proof

/-! ### Range changes (R61, R166, R167) -/

/-- t_settle in ns, clamped (R166): a pair changes range together, by the setting of CH(2k) (R159). -/
def State.settleNs (s : State) (c : ChanId) : Nat := min 10000 (max 50 (s.fld (.outCtrl (s.walkerOf c)) OUT_CTRL.SETTLE))

/-- Nh = ceil(t_settle / gc) (R166). -/
def State.nhOf (s : State) (c : ChanId) : Nat := ceilDiv (s.settleNs c * qNs * s.gcDen) (s.gcNum (lampOf c))

/-- A range is asked for from sample `t` of the unit's count: nothing where it is the range last asked for; else a change from `t`, or from the
resume sample of the change that still runs (R61, R168). -/
def State.askRange (s : State) (c : ChanId) (r : Bool) (t : Nat) (atStart : Bool) : State :=
  let x := s.chans[c]
  if r = x.rangeAsked then s
  else
    let first := match x.changes.getLast? with
      | some ch => max t (ch.first + 64 * ch.nh)
      | none => t
    s.updChan c (fun x => { x with rangeAsked := r, changes := x.changes ++ [⟨r, first, s.nhOf c, false, atStart⟩] })

/-- A visit asks for its RANGE; in pair mode CH(2k) asks for both channels (R61, R124, R159). -/
def State.visitRange (s : State) (c : ChanId) (e : EntryWords) (t : Nat) : State :=
  if e.rangeAsk = 1 ∨ e.rangeAsk = 2 then
    let s := s.askRange c (e.rangeAsk == 2) t false
    if s.paired c then s.askRange (oddOf c) (e.rangeAsk == 2) t false else s
  else s

/-! ### Publications and the boundary strobe (R68, R69) -/

/-- VISIT_PUB on an entry's PUB_CH, which BCN_SRCs.CH then shows (R68, R240, R254, R255). -/
def State.visitPub (s : State) (c : ChanId) (e : EntryWords) (i : Nat) (isEnd : Bool) : State :=
  let src := Source.chan c .visitPub
  let s := if s.isSet src.reg' BCN_SRCs.EN ∧ s.sourceAlive src.num then s.setFld src.reg' BCN_SRCs.CH e.pubCh.val else s
  s.publishOn src e.pubCh (i % 2 ^ 14 + (if isEnd then 2 ^ 14 else 0)) none

/-- The Transit taps of a channel's markers, and of its strobe (R224). -/
def markerTap (c : ChanId) (mk : Fin 2) : TrnIn := ⟨8 + 2 * c.val + mk.val, by omega⟩
def strobeTap (c : ChanId) : TrnIn := ⟨40 + c.val, by omega⟩

/-- The time in q at which sample `u` of a Lamp's granule count × 32 leaves the CHn balls, `ps` ps later (R105, R206). -/
def State.leaveTime (s : State) (c : ChanId) (u ps : Nat) : Nat :=
  let first : Int := (u : Int) + 32 * (s.lg c : Int) - 32 * (s.clock.ugcBase[lampOf c] : Int)
  let late : Int := 192 * (s.fld (.merBall s.leader c) MER_BALLc.B : Int) + 768 * (ps : Int)
  ((s.clock.tSync : Int) + (first * s.gcNum (lampOf c) * 125 + late * 32 * s.gcDen) / (4000 * (s.gcDen : Int))).toNat

/-- An edge is on its way to an internal tap, where that input is enabled (R224). -/
def State.tapEdge (s : State) (i : TrnIn) (fall : Bool) (t : Nat) : State :=
  if s.isSet (.trnInCtrl i) TRN_INk_CTRL.EN then { s with taps := s.taps ++ [⟨i, fall, t⟩] } else s

/-- The boundary strobe marks sample `p` at the time it leaves the DAC: every visit, every iteration, or visits with PUB_START (R69). -/
def State.strobe (s : State) (c : ChanId) (e : EntryWords) (newVisit : Bool) (p : Nat) : State :=
  let sel := s.fld (.charCtrl c) CHAR_CTRL.STROBE_SEL
  if (sel = 0 ∧ newVisit) ∨ sel = 1 ∨ (sel = 2 ∧ newVisit ∧ e.pubStart) then s.tapEdge (strobeTap c) false (s.leaveTime c (s.unitSample c p) 0) else s

/-! ### Markers as the walk drives them (R64 to R67, R170, R172) -/

/-- What the walk asks of a marker at sample `p`: its program is HIGH, or a pulse runs. -/
def State.markerWalk (s : State) (x : ChanId) (mk : Fin 2) (p : Nat) : MarkerWalk :=
  let w := s.walkerOf x
  let runs := match s.chans[x].markers[mk].pulseEnd with | some e => decide (p < e) | none => false
  let plays := s.chans[w].st == .playing
  ⟨runs || (plays && mkMode ((s.entryOf w).marker mk) == 1), runs || plays⟩

/-- The level a source makes of it (R169): PROGRAM, INACTIVE or ACTIVE; the reserved source 3 is inactive. -/
def MarkerWalk.level (x : MarkerWalk) (src : Nat) : Bool := if src = 0 then x.prog else if src = 2 then x.on else false

/-- What the walk asks of a marker last. -/
def Marker.last (m : Marker) : MarkerWalk := (m.moves.getLast?.map (·.2)).getD m.base
/-- What of it has come to the balls at sample `u` of the Lamp's granule count × 32. -/
def Marker.at_ (m : Marker) (u : Nat) : MarkerWalk := m.moves.foldl (fun a v => if v.1 ≤ u then v.2 else a) m.base

/-- What the walk asks of a marker changes at sample `u`: an edge goes to its tap, after the fine delay. -/
def State.markerMove (s : State) (x : ChanId) (mk : Fin 2) (new : MarkerWalk) (u : Nat) : State :=
  let m := s.chans[x].markers[mk]
  if new = m.last then s
  else
    let now := s.sampleNow x - 32 * s.lg x
    let m' := { m with base := m.at_ now, moves := m.moves.filter (fun v => decide (now < v.1)) ++ [(u, new)] }
    let s := s.updChan x (fun y => { y with markers := y.markers.set mk m' })
    let was := m.last.level m.inForce.src
    if was = new.level m.inForce.src then s else s.tapEdge (markerTap x mk) was (s.leaveTime x u m.inForce.delay)

/-- The markers on a walk follow it at sample `p`. -/
def State.markersMove (s : State) (c : ChanId) (p : Nat) : State :=
  (s.markerChans c).foldl (fun s x => (List.finRange 2).foldl (fun s mk => s.markerMove x mk (s.markerWalk x mk p) (s.unitSample c p)) s) s

/-! ### Leaving PLAYING (R40, R95, R148) -/

/-- The information word of a jump in the layout of JMP_PEND (R103, R254). -/
def jumpWord (j : PendingJump) (carried : Bool) : Nat :=
  1 + j.slot.val * 2 + (match j.mode with | .boundary => 0 | .granule => 1 | .timed => 2) * 2 ^ 3 + (if carried then 2 ^ 5 else 0)
    + (if j.group then 2 ^ 6 else 0) + (if j.late then 2 ^ 7 else 0) + j.target % 2 ^ 14 * 2 ^ 12 + j.take % 32 * 2 ^ 26
    + (if j.degraded then 2 ^ 31 else 0)

/-- A request is dropped: counted, flagged and, with DROP_EV, published (R93, R95). -/
def State.dropJump (s : State) (c : ChanId) (j : PendingJump) : State :=
  let s := (s.bump (.jmpDropped c) JMP_DROPPED.COUNT).raise (.jmpStatus c) JMP_STATUS.DROPPED
  if s.isSet (.jmpCtrl c) JMP_CTRL.DROP_EV then s.publish (.chan c .jmpDropped) j.target else s

/-- The pending jump is discarded without being taken (R95). -/
def State.discardJump (s : State) (c : ChanId) : State :=
  match s.chans[c].pend with
  | none => s
  | some j => (s.updChan c (fun x => { x with pend := none })).dropJump c j

/-- A transaction is committed and has not taken effect. -/
def TxnPhase.committed : TxnPhase → Bool
  | .closed => false | .open_ => false | _ => true
/-- A transaction holds a committed SWAP item of a channel; and it without that item. -/
def Txn.holdsSwap (x : Txn) (c : ChanId) : Bool := x.phase.committed && x.swaps.any (fun p => p.1 == c)
def Txn.dropSwap (x : Txn) (c : ChanId) : Txn := if x.phase.committed then { x with swaps := x.swaps.filter (fun p => p.1 ≠ c) } else x

/-- The staged table is busy: a swap is committed and not yet taken (R40). -/
def State.stagedBusy (s : State) (c : ChanId) : Bool :=
  s.chans[c].swap.isSome || s.host.singles.any (fun x => x.holdsSwap c) || s.host.txns.toList.any (fun x => x.holdsSwap c)

/-- A committed swap that has not been taken is cancelled, whether or not its effect time has come; the staged table stays loaded (R40). -/
def State.cancelSwap (s : State) (c : ChanId) : State :=
  if s.stagedBusy c then
    let h := { s.host with txns := s.host.txns.map (fun x => x.dropSwap c), singles := s.host.singles.map (fun x => x.dropSwap c) }
    (({ s with host := h } : State).updChan c (fun x => { x with swap := none, readyNext := none })).raise (.charStatus c) CHAR_STATUS.SWAP_CANCELLED
  else s

/-- A gap of a channel's streams ends without a re-entry: the stream returns to FLOWING and P stays (R148). -/
def State.endGaps (s : State) (c : ChanId) : State :=
  (List.finRange 16).foldl (fun s st =>
    if s.streams[st].st = .underrun ∧ s.chanOf st = c then (s.dropHeld st).updStream st (fun x => { x with st := .flowing, resumeAt := none })
    else s) s

/-- A stream is accounted up to sample `p`: P advances, blocks are marked played, and substituted granules are counted in samples (R140, R149). -/
def State.streamSync (s : State) (st : StreamId) (p : Nat) : State :=
  let (played, filled, adv) := s.streamSpan st p
  let gb := max 1 (s.gbOf st)
  let s := if filled = 0 then s
    else (s.bumpBy (.tndGapLast st) TND_GAP_LAST.SAMPLES (32 * filled)).bumpBy (.tndGapTotal st) TND_GAP_TOTAL.SAMPLES (32 * filled)
  s.updStream st (fun x =>
    let blocks := if played = 0 then [] else (List.range ((x.pos + played - 1) / gb + 1 - x.pos / gb)).map (· + x.pos / gb)
    { x with pos := x.pos + adv, at_ := max x.at_ p, played := x.played ++ blocks.filter (fun b => b ∉ x.played ∧ x.consumed ≤ b) })

/-- The granules of the iteration in play up to sample `p` are accounted: their samples pass the pipeline; stream position, and dark granules of a segment homed on a lost Dome (R34, R104, R140). -/
def State.playedTo (s : State) (c : ChanId) (p : Nat) : State :=
  let s := s.pipeTo c p
  let x := s.chans[c]
  let s := if x.segDark then s.bumpBy (.charSegLost c) CHAR_SEG_LOST.GRANULES ((p - x.iterStart) / 32) else s
  match entryStream (s.entryOf c) with
  | some st => s.streamSync st p
  | none => s

/-- The walk stands at sample `p`, up to which the granules before it are accounted. -/
def State.walkTo (s : State) (c : ChanId) (p : Nat) : State := ((s.reachPos c p).noteLead c).playedTo c p

/-- The walk leaves the visit in play at sample `p`: PUB_END is published in the granule before that of `p`, or for a TIMED splice in that granule (R58, R84, R86). -/
def State.leaveVisit (s : State) (c : ChanId) (p : Nat) (timed : Bool) : State :=
  let e := s.entryOf c
  let q := if timed then p else p - 32
  let s := if e.pubEnd then (((s.reachPos c q).noteLead c).pipeTo c q).visitPub c e s.chans[c].entry true else s
  s.walkTo c p

/-- The stretches of the visit in play up to sample `p` (R75, R91): a pause of R151 makes its last iteration one of its own. -/
def Chan.spans (x : Chan) (iterS p : Nat) : List VisitSpan :=
  if p ≤ x.iterFirst + iterS then [⟨x.entry, x.spanStart, p, iterS⟩]
  else [⟨x.entry, x.spanStart, x.iterFirst, iterS⟩, ⟨x.entry, x.iterFirst, p, p - x.iterFirst⟩]
/-- The channel keeps the stretches that an edge can still lie in. -/
def Chan.keepSpans (x : Chan) (iterS p : Nat) : Chan := { x with history := x.history.filter (fun v => p ≤ v.stop + 32 * 4096) ++ x.spans iterS p }

/-- A visit has ended at sample `p`: the report to the shadow (R48, R54). -/
def State.visitEnd (s : State) (c : ChanId) (iters p : Nat) : State :=
  let x := s.chans[c]
  let s := s.report c (.visit x.entry iters ((p - x.visitStart) / 32))
  s.updChan c (fun x => x.keepSpans (32 * (s.entryOf c).lenG) p)

/-- The channel leaves PRIMING or PLAYING at play position `p`, for a state in which it shows the dark code: the pending jump is discarded, a
committed swap cancelled, gaps end (R40, R95, R148). The sectors advance on in every state but IDLE, in which they hold (R62, R117). -/
def State.leavePlay (s : State) (c : ChanId) (st : ChanState) (p : Nat) : State :=
  let s := ((s.discardJump c).cancelSwap c).endGaps c
  let s := s.updNco c (fun x => { x.sync (s.sampleNow c) with runs := st != .idle })
  let s := (s.pauseEnds c p).updChan c (fun x => { x with st := st, stopPos := p, batch := none, startAt := none, startWith := [], relayDark := false, segDark := false })
  s.markersMove c p

/-- A channel goes to IDLE, as a STOP item takes it there (R50, R360); nothing where it is IDLE. A running pulse ends with the walk (R67). -/
def State.toIdle (s : State) (c : ChanId) : State :=
  if s.chans[c].st = .idle then s
  else
    let p := s.playPos c
    let s := if s.chans[c].st = .playing then s.playedTo c p else s
    s.leavePlay c .idle p

/-- The running pulses on a walk are cut short (R67, R164). -/
def State.cutPulses (s : State) (c : ChanId) : State :=
  (s.markerChans c).foldl (fun s x => s.updChan x (fun y => { y with markers := y.markers.map (fun m => { m with pulseEnd := none }) })) s
/-- Both markers of the channels on a walk are forced inactive, from the sample at the play position on (R67, R164). -/
def State.cutMarkers (s : State) (c : ChanId) : State := (s.cutPulses c).markersMove c (s.playPos c)
/-- They are forced inactive at the balls at once, with what is on its way to them (R164). -/
def State.dropMarkers (s : State) (c : ChanId) : State :=
  let s := s.cutPulses c
  (s.markerChans c).foldl (fun s x => (List.finRange 2).foldl (fun s mk =>
    let m := s.chans[x].markers[mk]
    let was := (m.at_ (s.sampleNow x - 32 * s.lg x)).level m.inForce.src
    let s : State := { s with taps := s.taps.filter (fun e => e.input ≠ markerTap x mk ∨ e.time ≤ s.clock.now) }
    let s := s.updChan x (fun y => { y with markers := y.markers.set mk { m with pulseEnd := none, base := ⟨false, false⟩, moves := [] } })
    if was then s.tapEdge (markerTap x mk) true s.clock.now else s) s) s

/-- The walk of a channel as it stands, before its first visit where it primes for a start (R282). -/
def State.keptWalk (s : State) (c : ChanId) : KeptWalk :=
  let x := s.chans[c]
  let w := s.walkPos c
  ⟨w.entry, w.iter, w.frames, x.iterStart + s.pauseShift c, s.playPos c, x.visit, x.visitStart, x.spanStart, x.pend⟩

/-- A channel enters FAULT: dark code from the next granule, markers inactive; its walk is kept for a recovery, with what a recovery under way had kept, and the shadow's copy stops (R52, R277, R281,
R282). -/
def State.enterFault (s : State) (c : ChanId) : State :=
  let x := s.chans[c]
  if x.st = .fault then s
  else
    let p := s.playPos c
    let k := if x.resume then (x.kept, x.missed, x.was) else (some (s.keptWalk c), [], x.st)
    let s := if x.st = .playing then s.playedTo c p else s
    let s := (s.leavePlay c .fault p).updChan c (fun y => { y with kept := k.1, missed := k.2.1, was := k.2.2, startAt := x.startAt, reports := [] })
    (s.updShadow c (fun y => { y with walks := false })).cutMarkers c

/-- A walking fault at entry `i` with a code of CHAR_FAULT: FAULT, the event, and the request to recover the channel (R52, R164, R281). -/
def State.walkFault (s : State) (c : ChanId) (i code : Nat) : State :=
  let s := (s.setFld (.charFault c) CHAR_FAULT.FAULT_ENTRY i).setFld (.charFault c) CHAR_FAULT.FAULT_CODE code
  let s := (s.raise (.charStatus c) CHAR_STATUS.WALK_FAULT).enterFault c
  (s.publish (.chan c .walkFault) (s.rd (.charFault c)).toNat).askRecover c 3 0

/-! ### Entering an entry (R48, R60, R61, R109, R113) -/

/-- Why the interpolation chain is or is not cut on a change of path (R113). -/
inductive PathChange where
  | start | natural | splice
deriving DecidableEq, Repr

/-- The factor in force after an entry is entered, and the cut of the chain (R109, R113). -/
def State.enterFactor (s : State) (c : ChanId) (e : EntryWords) (why : PathChange) : State :=
  let old := s.chans[c].factor
  let new := if memFormat e.format then e.interp else if why = .start then 0 else old
  let s := s.updChan c (fun x => { x with factor := new })
  if why = .start then s.emptyChain c new
  else if why = .splice ∨ new ≠ old then s.cutChain c new
  else s

/-- The first sample of an iteration: NCO_OP where it acts, and the strobe (R44, R69). -/
def State.firstSample (s : State) (c : ChanId) (e : EntryWords) (newVisit : Bool) (p : Nat) : State :=
  let s := if newVisit ∨ e.ncoEach then s.ncoOpAt c e (s.unitSample c p) else s
  s.strobe c e newVisit p

/-- An entry read back passes the checks of R47; a segment homed on a lost Dome is the matter of R34. -/
def State.entrySound (s : State) (t : Table) (e : EntryWords) : Bool := e.fieldsOk && e.indexOk t.len && e.markerOk && (s.segLost e || s.segmentOk e)

/-- A visit to entry `i` begins at sample `p` (R48): the before-visit frame action, RANGE, GAIN and NCO_OP at the first sample, PUB_START, the
strobe; a walking fault where the frame stack overflows or the entry fails R47 (R52). -/
def State.visitStart (s : State) (c : ChanId) (i : Nat) (loopBack : Bool) (why : PathChange) (p : Nat) : State :=
  let t := s.table c
  let e := t.entry i
  let enter := fun (frames : List Frame) (dark : Bool) =>
    s.updChan c (fun x => { x with entry := i, visit := x.visit + 1, visitStart := p, iter := 0, iterStart := p, iterFirst := p, spanStart := p, frames := frames, segDark := dark })
  if ¬ (i < t.len ∧ s.entrySound t e) then (enter s.chans[c].frames false).walkFault c i 4
  else match enterFrames e loopBack s.chans[c].frames with
    | none => (enter s.chans[c].frames false).walkFault c i 1
    | some frames =>
      let lost := s.segLost e
      let s := enter frames lost
      let s := s.visitRange c e (s.unitSample c p)
      let s := s.enterFactor c e why
      let s := (s.firstSample c e true p).markersMove c p
      let s := if e.pubStart then s.visitPub c e i false else s
      if lost then (s.raise (.charStatus c) CHAR_STATUS.SEG_LOST).publish (.chan c .segLost) i else s

/-! ### Ready lists (R87 to R89) -/

/-- The ready list of a table, no head read yet (R87). -/
def readyOf (t : Table) : List ReadyPlace := (t.readyEntries.take 8).map (fun i => ⟨i, false, []⟩)

/-- A target is held: DDS and ZERO need no samples; else its place of the ready list is complete (R81, R87). -/
def State.heldTarget (s : State) (c : ChanId) (i : Nat) : Bool :=
  !memFormat ((s.table c).entry i).format || s.chans[c].ready.any (fun r => r.entry == i && r.held)

/-- The held head of an entry in granules (R88). -/
def heldGranules (e : EntryWords) : Nat := min 64 e.lenG

/-- The lookahead stands at a jump or swap target entered at granule `g` (R58): a held head counts, and plays; beyond it only what was requested for a jump's target since its registration. -/
def State.restartAhead (s : State) (c : ChanId) (i g : Nat) (jump : Bool) : State :=
  let held := s.heldTarget c i
  let h := if held then heldGranules ((s.table c).entry i) else 0
  s.updChan c (fun x =>
    let x := { x with headed := held }
    if jump then { x with reqTo := max x.reqTo (g + h), arrTo := max x.arrTo (g + h) } else { x with reqTo := g + h, arrTo := g + h })

/-! ### Swaps (R40) -/

/-- The swap is taken at sample `p`: the visit ends, the frame stack is emptied, pending requests are discarded, the old table is released and
SWAP_ENTRY of the new table is entered. -/
def State.takeSwap (s : State) (c : ChanId) (iters p : Nat) (jumpDue : Bool) : State :=
  let s := s.visitEnd c iters p
  let s := if jumpDue then s.raise (.charStatus c) CHAR_STATUS.SWAP_JUMP_DROP else s
  let s := (s.discardJump c).endGaps c
  let new := s.stagedSlot c
  let i := match s.chans[c].swap with | some x => x.entry | none => 0
  let s := s.updChan c (fun x =>
    { x with
      slots := x.slots.set x.activeSlot ⟨0, []⟩
      activeSlot := new
      startEntry := i
      swap := none
      frames := []
      history := []
      ready := x.readyNext.getD []
      readyNext := none })
  let s := (s.pauseEnds c p).updChan c (fun x => { x with subs := (s.table c).channels })
  let s := (s.raise (.charStatus c) CHAR_STATUS.SWAP_DONE).publish (.chan c .swapDone) i
  let s := s.report c (.swap i p (s.table c))
  (s.restartAhead c i (ceilDiv p 32) false).visitStart c i false .natural p

/-! ### Jumps taken (R78, R86, R95) -/

/-- The mode code of JMP_LAST. -/
def JumpMode.code : JumpMode → Nat
  | .boundary => 0 | .granule => 1 | .timed => 2

/-- The pending jump is taken at sample `p`: the visit ends there, the target is entered, and JMP_LAST describes the jump (R78 to R86, R95, R103). -/
def State.takeJump (s : State) (c : ChanId) (j : PendingJump) (iters p : Nat) : State :=
  let x := s.chans[c]
  let carried := decide (x.visit ≠ j.regVisit)
  let s := s.visitEnd c iters p
  let j := { j with take := p }
  let s := s.wr (.jmpLast c) (BitVec.ofNat 32 (jumpWord j carried))
  let s := (s.setFld (.jmpLastSrc c) JMP_LAST_SRC.SOURCE j.source).setFld (.jmpLastSrc c) JMP_LAST_SRC.CHANNEL j.channel.val
  let s := (s.wr (.jmpLastReg c) (BitVec.ofInt 32 j.seenGc)).wr (.jmpLastGc c) (BitVec.ofNat 32 (p / 32))
  let s := (s.bump (.jmpTaken c) JMP_TAKEN.COUNT).raise (.jmpStatus c) JMP_STATUS.TAKEN
  let s := if carried then s.raise (.jmpStatus c) JMP_STATUS.CARRIED else s
  let s := ((s.updChan c (fun x => { x with pend := none })).pauseEnds c p).endGaps c
  let s := s.report c (.jump j.slot j.mode j.seenGc.toNat p j.target)
  let s := s.restartAhead c j.target (ceilDiv p 32) true
  let s := s.visitStart c j.target false (if j.mode = .timed then .splice else .natural) p
  if s.isSet (.jmpCtrl c) JMP_CTRL.TAKEN_EV then s.publish (.chan c .jmpTaken) (s.rd (.jmpLast c)).toNat else s

/-! ### The end of an iteration (R48, R51) -/

/-- The channel stops at END at sample `p`: dark code from it, END_REACHED, the event (R51). -/
def State.stopAtEnd (s : State) (c : ChanId) (iters p : Nat) : State :=
  let i := s.chans[c].entry
  let s := (s.visitEnd c iters p).leavePlay c .ended p
  let s := s.report c (.stop (p / 32))
  (s.raise (.charStatus c) CHAR_STATUS.END_REACHED).publish (.chan c .chanEnd) i

/-- The committed swap falls due at boundary `b`, at which the iteration in play ends (R40). -/
def State.swapDue (s : State) (c : ChanId) (b : Nat) : Bool :=
  match s.chans[c].swap with
  | none => false
  | some x => swapDueAt (s.table c) (s.walkPos c) x b

/-- The iteration in play is the last of its visit: a swap or a jump is due at its boundary `b`, or it does not repeat. -/
def State.visitEndsAt (s : State) (c : ChanId) (b : Nat) : Bool :=
  s.swapDue c b || (match s.chans[c].pend with | some j => s.pendDue c j b | none => false) || (match walkNext (s.table c) (s.walkPos c) with | .again _ => false | _ => true)

/-- The pending jump is due at boundary `b` (R79). -/
def State.jumpDueAt (s : State) (c : ChanId) (b : Nat) : Bool :=
  match s.chans[c].pend with
  | none => false
  | some j => s.pendDue c j b

/-- An iteration of the entry in play completes at its boundary: a swap or a jump due there is taken; else the walk repeats, loops back,
breaks, moves to NEXT or stops at END (R40, R48). -/
def State.iterationEnds (s : State) (c : ChanId) : State :=
  let b := s.iterEnd c
  let timed := !s.swapDue c b && s.jumpDueAt c b && (match s.chans[c].pend with | some j => j.mode == .timed | none => false)
  let s := if s.visitEndsAt c b then s.leaveVisit c b timed else s.walkTo c b
  let iters := s.chans[c].iter + 1
  if s.swapDue c b then s.takeSwap c iters b (s.jumpDueAt c b)
  else match s.chans[c].pend, s.jumpDueAt c b with
    | some j, true => s.takeJump c j iters b
    | _, _ =>
      match walkNext (s.table c) (s.walkPos c) with
      | .again w =>
        let s := s.updChan c (fun x =>
          let x := if b ≤ x.iterFirst + 32 * (s.entryOf c).lenG then x else { x.keepSpans (32 * (s.entryOf c).lenG) b with spanStart := b }
          { x with iter := w.iter, iterStart := b, iterFirst := b })
        let s := if ¬ s.chans[c].segDark ∧ s.segLost (s.entryOf c) then
            ((s.updChan c (fun x => { x with segDark := true })).raise (.charStatus c) CHAR_STATUS.SEG_LOST).publish (.chan c .segLost) s.chans[c].entry
          else s
        s.firstSample c (s.entryOf c) false b
      | .visit i lb frames =>
        let s := (s.visitEnd c iters b).updChan c (fun x => { x with frames := frames, headed := false })
        s.visitStart c i lb .natural b
      | .stop => s.stopAtEnd c iters b
      | .underflow => ((s.visitEnd c iters b).updChan c (fun x => { x with iterStart := b, iterFirst := b })).walkFault c s.chans[c].entry 2

/-! ### Starting (R40, R59, R117, R167) -/

/-- A starting commit at granule edge `g` moves the channel to PRIMING at its start entry: the staged table, where there is one, becomes active;
sector 0 is in use and any chirp stopped; the range goes to START_RANGE (R40, R59, R117, R167, R360). -/
def State.beginPriming (s : State) (c : ChanId) (entry : Nat) (startAt : Option Nat) (withs : List ChanId) (f : Func) (g : Nat) : State :=
  let s := if (s.staged c).len = 0 then s
    else s.updChan c (fun x => { x with slots := x.slots.set x.activeSlot ⟨0, []⟩, activeSlot := twin x.activeSlot, hasActive := true })
  let t := s.table c
  let s := s.updNco c (fun x => { x.sync (32 * g) with runs := true, sector := 0, chirp := none, rate := 0 })
  let s := s.updChan c (fun x =>
    { x with
      st := .priming, owner := f, startEntry := entry, startAt := startAt, startWith := withs, entry := entry, iter := 0, frames := [], visit := 0, visitStart := 0
      iterStart := 0, iterFirst := 0, spanStart := 0, resumed := 0, headed := false, stopPos := 0, reqTo := 0, arrTo := 0, primed := false, pend := none, batch := none
      subs := t.channels, ready := readyOf t, readyNext := none, history := [], pauseFrom := none, resume := false, kept := none, missed := [], reports := [] })
  let s := (s.updShadow c (fun x => { x with walks := false, slid := 0, pauses := [], seen := [] })).report c (.start entry g t)
  let s := s.askRange c (s.isSet (.outCtrl c) OUT_CTRL.START_RANGE) (32 * g) true
  if s.paired c then s.askRange (oddOf c) (s.isSet (.outCtrl c) OUT_CTRL.START_RANGE) (32 * g) true else s

/-- The start instant at granule edge `g` (R59, R117): PLAYING at the start entry; the accumulators zero at the first sample with ZERO_AT_START;
`dark` granules that reach their play time unarrived play dark and are counted. A resuming start takes up the walk where it stands (R282). -/
def State.startInstantAt (s : State) (c : ChanId) (g dark : Nat) : State :=
  let s := s.reachGranC c g
  let s := if dark = 0 ∨ s.chans[c].primed then s
    else
      let s := (s.raise (.charStatus c) CHAR_STATUS.PRIME_GAP).bumpBy (.charPrimeGap c) CHAR_PRIME_GAP.GRANULES dark
      if s.isSet (.charCtrl c) CHAR_CTRL.PRIME_GAP_EV then s.publish (.chan c .primeGap) dark else s
  let s := s.updNco c (fun x =>
    let x := x.before (32 * g)
    if s.isSet (.lantCtrl c) LANT_CTRL.ZERO_AT_START ∧ ¬ s.chans[c].resume then { x with acc := Vector.replicate 8 0 } else x)
  let s := s.setFld (.charLead c) CHAR_LEAD.LEAD_MIN (min (s.fld (.charLead c) CHAR_LEAD.LEAD_MIN) (s.lead c))
  let s := (List.finRange 16).foldl (fun s st => if s.chanOf st = c then s.updStream st (fun x => { x with at_ := s.chans[c].stopPos }) else s) s
  let at_ := s.chans[c].stopPos / 32
  let s := s.updChan c (fun x =>
    { x with st := .playing, startGran := g - at_, startAt := none, startWith := [], arrTo := max x.arrTo (at_ + dark), darkTo := at_ + dark, lastReport := g })
  let s := (s.updShadow c (fun x => { x with startGran := g - at_, last := g })).startPipes c s.chans[c].stopPos
  if s.chans[c].resume then (s.updChan c (fun x => { x with resume := false, kept := none })).enterFactor c (s.entryOf c) .start
  else s.visitStart c s.chans[c].startEntry false .start 0

end Sys2Proof.Machine
end

