-- ==== Sys2Proof/Machine/Jumps.lean ====
section
/-! DEFINITION. Jump requests: registration, candidates, take points, coherence groups and the ready list (spec 03_jumps_and_cutoffs.md R72 to R100). -/
namespace Sys2Proof.Machine
open Sys2Proof

/-! ### The edge of a stamp on a channel's count (R83, R206, R225) -/

/-- Ceiling of a quotient of integers by a positive number. -/
def ceilDivInt (a : Int) (b : Nat) : Int := -((-a) / (b : Int))

/-- s_edge: the first output sample of the channel that leaves the CHn balls at or after the edge, by the mapping of R206; the stamp is referred to its ball by its input's offset. -/
def State.edgeSample (s : State) (c : ChanId) (r : StampRec) : Int :=
  let m : MerId := if r.twin then 1 else 0
  let off := toSigned 32 (s.rd (.trnInOff m r.input)).toNat
  let ball : Int := s.fld (.merBall s.leader c) MER_BALLc.B
  let t : Int := 125 * ((r.stamp.toNat : Int) + s.clock.epochAt - off - s.clock.tSync) - 192 * ball
  let first : Int := 32 * ((s.chans[c].startGran : Int) - s.clock.ugcBase[lampOf c] + s.lg c)
  ceilDivInt (t * 32 * s.gcDen) (125 * s.gcNum (lampOf c)) - first

/-- The visit of the active table that holds a sample, with the sample's offset in its iteration (R77, R91); none before the table's first sample. -/
def Chan.visitAt (x : Chan) (iterS : Nat) (n : Int) : Option (Nat × Nat) :=
  if n < 0 then none
  else
    let n := n.toNat
    if x.iterFirst ≤ n then some (x.entry, n - x.iterFirst)
    else if x.spanStart ≤ n then some (x.entry, (n - x.spanStart) % max 1 iterS)
    else (x.history.find? (fun v => decide (v.start ≤ n ∧ n < v.stop))).map (fun v => (v.entry, (n - v.start) % max 1 v.iterS))

/-! ### Candidates (R75, R91) -/

/-- A candidate slot: its number, the entry it was drawn from, its word, and for a TIMED slot the offset of the edge in its iteration. -/
structure Candidate where
  slot   : Fin 4
  source : Nat
  word   : Nat
  offset : Nat
deriving DecidableEq, Repr

/-- The candidates in slot order, that of the entry in play first. -/
def State.candidates (s : State) (c : ChanId) (ch : BeaconCh) (edge : Option (Nat × Nat)) : List Candidate :=
  let names : Nat → Bool := fun w => slotEnable w && slotChannel w == ch && ch != 0
  (List.finRange 4).flatMap (fun k =>
    let here := (s.entryOf c).slot k
    let first := if names here && slotMode here != 2 then [Candidate.mk k s.chans[c].entry here 0] else []
    let second := match edge with
      | some (i, off) =>
        let w := ((s.table c).entry i).slot k
        if names w && slotMode w == 2 then [Candidate.mk k i w off] else []
      | none => []
    first ++ second)

/-- The window test of a TIMED slot (R91, R92); the other modes always pass. -/
def State.passes (s : State) (c : ChanId) (x : Candidate) : Bool :=
  if slotMode x.word = 2 then
    let w := slotWindow x.word
    let close := s.fld (.winClose c w) WINk_CLOSE.CLOSE
    decide (s.fld (.winOpen c w) WINk_OPEN.OPEN ≤ x.offset) && (close == 0 || decide (x.offset < close))
  else true

/-! ### Take points (R79 to R85, R98) -/

/-- The boundary of R79 for a request registered at granule `r`, as it now stands under a pause (R151): none where the path stops first. -/
def State.boundaryTake (s : State) (c : ChanId) (r : Int) : Option Nat :=
  boundaryFrom (s.table c) r.toNat 40 128 (s.walkPos c) (s.chans[c].iterStart + s.pauseShift c)

/-- The take point of the pending jump, a request that moves with its boundary taking that of the path as it now stands (R79, R93). -/
def State.pendTake (s : State) (c : ChanId) (j : PendingJump) : Option Nat :=
  if j.atBoundary then s.boundaryTake c (j.regGc + s.groupLag c j.group) else some j.take

/-- The granules the lookahead can reach from the play position, counted no further than 4,096: along the natural path, or up to a pending take point and on from its target, with the frames of the walk
there (R55, R58). -/
def State.leadTarget (s : State) (c : ChanId) : Nat :=
  let t := s.table c
  let x := s.chans[c]
  let done := (s.walkPlace c - x.iterStart) / 32
  let natural := pathGranules t (4096 + done) 4096 (s.walkPos c) 0 - done
  match x.pend.bind (fun j => (s.pendTake c j).map (fun p => (p, j.target))) with
  | none => natural
  | some (p, target) =>
    let gap := ceilDiv (p - s.playPos c) 32
    if 4096 ≤ gap then natural
    else match enterAt t target (walkAt t p 4096 (s.walkPos c) (x.iterStart + s.pauseShift c)).frames with
      | some w => pathGranules t 4096 4096 w gap
      | none => gap

/-- A request for the boundary of R79. Where the path stops before any such boundary its take point lies beyond the stop, at a sample that no rule gives: a free value. -/
def State.asBoundary (s : State) (c : ChanId) (j : PendingJump) : PendingJump × State :=
  match s.boundaryTake c (j.regGc + s.groupLag c j.group) with
  | some b => ({ j with mode := .boundary, atBoundary := true, take := b }, s)
  | none =>
    let (v, s) := s.fresh
    ({ j with mode := .boundary, atBoundary := true, take := s.playPos c + 1 + v.toNat }, s)

/-- The request of a slot registered at granule `r`, with what its making sets, counts and publishes (R79, R82, R85). -/
def State.makeRequest (s : State) (c : ChanId) (ch : BeaconCh) (r : Nat) (x : Candidate) (edge : Int) : PendingJump × State :=
  let target := slotTarget x.word
  let rg := r + s.groupLag c false
  let base : PendingJump :=
    { slot := x.slot, mode := .boundary, target := target, take := 0, atBoundary := true, regGc := r, seenGc := r, regVisit := s.chans[c].visit, source := x.source, channel := ch
      group := false, late := false, degraded := false }
  if slotMode x.word = 0 then s.asBoundary c base
  else if slotMode x.word = 2 then
    let splice := (edge + s.fld (.winDelay c (slotWindow x.word)) WINk_DELAY.DELAY).toNat
    let g := splice / 32
    if rg + (if s.heldTarget c target then 16 else 96) ≤ g then ({ base with mode := .timed, atBoundary := false, take := splice }, s)
    else
      let (j, s) := s.asBoundary c { base with late := true }
      let s := (s.bump (.jmpLate c) JMP_LATE.COUNT).raise (.jmpStatus c) JMP_STATUS.LATE_ACCEPT
      (j, if s.isSet (.jmpCtrl c) JMP_CTRL.LATE_EV then s.publish (.chan c .jmpLate) (jumpWord j false) else s)
  else if s.heldTarget c target then ({ base with mode := .granule, atBoundary := false, take := 32 * (rg + 48) }, s)
  else
    let (j, s) := s.asBoundary c { base with degraded := true }
    let s := (s.bump (.jmpDegraded c) JMP_DEGRADED.COUNT).raise (.jmpStatus c) JMP_STATUS.DEGRADED
    (j, if s.isSet (.jmpCtrl c) JMP_CTRL.DEGRADE_EV then s.publish (.chan c .jmpDegraded) (jumpWord j false) else s)

/-! ### When requests meet (R93, R94) -/

/-- The order of two take points: one beyond the stop of the path lies later than any before it. -/
def takeBefore : Option Nat → Option Nat → Bool
  | some a, some b => decide (a < b)
  | some _, none => true
  | none, _ => false

/-- The new request stands against the pending one: an earlier take point, or at the same one a lower slot (R93). Two requests that wait for a boundary beyond the stop of the path, which neither will
reach, are taken as meeting at one point (DESIGN CHOICE, log entry 109). -/
def State.standsOver (s : State) (c : ChanId) (new old : PendingJump) : Bool :=
  let a := s.pendTake c new
  let b := s.pendTake c old
  takeBefore a b || (!takeBefore b a && decide (new.slot < old.slot))

/-- A request meets the pending one: the request that stands, and whether it is the new one (R93). -/
def State.resolveJump (s : State) (c : ChanId) (j : PendingJump) : State × Bool :=
  match s.chans[c].pend with
  | none => (s.updChan c (fun x => { x with pend := some j }), true)
  | some old =>
    if s.standsOver c j old then ((s.updChan c (fun x => { x with pend := some j })).dropJump c old, true)
    else (s.dropJump c j, false)

/-- The channel an entry restarts its lookahead at when a request becomes pending: nothing beyond the take point stays requested (R58). -/
def State.cutAhead (s : State) (c : ChanId) (j : PendingJump) : State :=
  match s.pendTake c j with
  | some t => s.updChan c (fun x => { x with reqTo := min x.reqTo (ceilDiv t 32), arrTo := min x.arrTo (ceilDiv t 32) })
  | none => s

/-! ### Coherence groups (R97 to R100) -/

/-- The group a channel is a member of; in pair mode CH(2k) is the member (R97). -/
def State.groupOf (s : State) (c : ChanId) : Option Nat :=
  if s.isSet (.jmpGroup c) JMP_GROUP.GROUP_EN && !s.pairSlave c then some (s.fld (.jmpGroup c) JMP_GROUP.GROUP) else none

/-- The leader of a group: its lowest-numbered member whose Lamp die is in service. -/
def State.groupLeader (s : State) (k : Nat) : Option ChanId :=
  (List.finRange 16).find? (fun c => s.groupOf c == some k && s.dieUp (Die.ofLamp (lampOf c)))

/-- A channel leads its group (JMP_GROUP.LEADER). -/
def State.leads (s : State) (c : ChanId) : Bool :=
  match s.groupOf c with
  | some k => s.groupLeader k == some c
  | none => false

/-- The granule of a channel's start, counted from UGC 0 of its Lamp. -/
def State.startUgc (s : State) (c : ChanId) : Int := (s.chans[c].startGran : Int) - s.clock.ugcBase[lampOf c]

/-- The order of a request of the leader: the channel, the take point from UGC 0, r_g, and how the leader takes it (R98). -/
def State.orderOf (s : State) (c : ChanId) (j : PendingJump) : GroupOrder := ⟨j.channel, 32 * s.startUgc c + j.take, s.startUgc c + j.regGc + 16, j.mode, j.late, j.degraded⟩

/-- The requests of one gc in slot order (R94): a later one of a slot stands behind the earlier. -/
def insertMade (j : PendingJump) : List PendingJump → List PendingJump
  | [] => [j]
  | k :: rest => if j.slot < k.slot then j :: k :: rest else k :: insertMade j rest

/-- Those of the requests of one gc that become pending, as they are resolved in slot order (R93, R94). -/
def State.becomePending (s : State) (c : ChanId) : Option PendingJump → List PendingJump → List PendingJump
  | _, [] => []
  | before, j :: rest =>
    if (match before with | some old => s.standsOver c j old | none => true) then j :: s.becomePending c (some j) rest else s.becomePending c before rest

/-- The requests a channel has registered in gc `r`, none where it has registered none yet. -/
def Chan.batchAt (x : Chan) (r : Nat) : JumpBatch := match x.batch with | some b => if b.gran = r then b else ⟨r, x.pend, []⟩ | none => ⟨r, x.pend, []⟩

/-- A request of the leader is one of those of its gc: the orders of that gc are those of the requests that become pending in slot order (R94, R98); an order that has reached a member is not called
back. -/
def State.sendOrders (s : State) (c : ChanId) (old new : JumpBatch) : State :=
  match s.groupOf c with
  | none => s
  | some k =>
    let sent := (s.becomePending c old.before old.made).map (s.orderOf c)
    let now := (s.becomePending c new.before new.made).map (s.orderOf c)
    (List.finRange 16).foldl (fun s m =>
      if m ≠ c ∧ s.groupOf m = some k then
        s.updChan m (fun x => { x with orders := x.orders.filter (fun o => o ∉ sent) ++ now.filter (fun o => o ∉ sent || x.orders.contains o) })
      else s) s

/-! ### Registration (R74 to R77) -/

/-- An event registered in PLAYING at a channel that makes requests (R75 to R77): the first candidate that passes makes the one request. -/
def State.registerEvent (s : State) (c : ChanId) (ch : BeaconCh) (stamp : Option StampRec) : State :=
  let r := s.playGran c
  let x := s.chans[c]
  let edge := stamp.map (s.edgeSample c)
  let visit := edge.bind (x.visitAt (32 * (s.entryOf c).lenG))
  let all := s.candidates c ch visit
  match all.find? (s.passes c) with
  | some cand =>
    let (j, s) := s.makeRequest c ch r cand (edge.getD 0)
    let old := s.chans[c].batchAt r
    let new := { old with made := insertMade j old.made }
    let s := if s.leads c then s.sendOrders c old new else s
    let (s, stands) := (s.updChan c (fun x => { x with batch := some new })).resolveJump c j
    if stands then s.cutAhead c j else s
  | none =>
    let s := s.bump (.jmpUnmatched c) JMP_UNMATCHED.COUNT
    let timed := (List.range (s.table c).len).any (fun i => (List.finRange 4).any (fun k =>
      let w := ((s.table c).entry i).slot k
      slotEnable w && slotChannel w == ch && slotMode w == 2))
    if all ≠ [] then s.raise (.jmpStatus c) JMP_STATUS.WINDOW_REJECT
    else if edge.isSome ∧ visit.isNone ∧ timed then s.raise (.jmpStatus c) JMP_STATUS.EDGE_EARLY
    else s.raise (.jmpStatus c) JMP_STATUS.UNMATCHED

/-- A delivery on a channel reaches a channel engine: the leg is acknowledged, events of one cycle merge, and the event registers. A group member that does not lead ignores it (R98). -/
def State.jumpEvent (s : State) (c : ChanId) (ch : BeaconCh) (merged : Nat) : State :=
  match s.delivery ch with
  | none => s
  | some d =>
    if Consumer.engine c ∉ d.waiting then s
    else
      let s := s.acknowledge ch (.engine c)
      let s := if merged = 0 then s else (s.bump (.bcnEngMerged c) BCN_ENGc_MERGED.COUNT).raise .bcnStatus BCN_STATUS.CONS_MERGED
      if (s.groupOf c).isSome ∧ ¬ s.leads c then s
      else if s.chans[c].st ≠ .playing then (s.bump (.jmpIgnored c) JMP_IGNORED.COUNT).raise (.jmpStatus c) JMP_STATUS.IGNORED
      else s.registerEvent c ch d.payload.stamp

/-- The lowest armed slot of an entry that names a channel. -/
def EntryWords.armedSlot (e : EntryWords) (ch : BeaconCh) : Option (Fin 4) := (List.finRange 4).find? (fun k => slotEnable (e.slot k) && slotChannel (e.slot k) == ch)

/-- The member's request on an order that comes as its walk plays entry `i` at sample `p` (R99): the slot's target at the order's take point where that is still ahead and the target can be there (the
answer's second part), else at a boundary of its own, 40 gc after r_g, or after the arrival of an order that comes late. The jump is the leader's: it is shown with the mode, LATE and DEGRADED of the
leader's request (DEDUCED, log entry 99). -/
def State.memberJump (s : State) (c : ChanId) (o : GroupOrder) (k : Fin 4) (i visit p : Nat) : PendingJump × Bool :=
  let target := slotTarget (((s.table c).entry i).slot k)
  let take := o.take - 32 * s.startUgc c
  let rg := o.rg - s.startUgc c
  let late := decide (take ≤ p)
  ({ slot := k, mode := o.mode, target := target, take := take.toNat, atBoundary := false, regGc := if late then (p / 32 : Nat) else rg, seenGc := rg - 16
     regVisit := visit, source := i, channel := o.channel, group := true, late := o.late, degraded := o.degraded },
   !late && (s.heldTarget c target || decide (rg + 96 ≤ take / 32)))

/-- A group order reaches a member (R99). One with no matching armed slot, as in every state but PLAYING, does not jump; while the channel recovers the order is kept for the walk it takes up again
(R282; DEDUCED, log entry 118). GROUP_SPLIT is set as the order is received, whether or not the request is taken then (DESIGN CHOICE, log entry 112). -/
def State.groupOrder (s : State) (c : ChanId) : State :=
  match s.chans[c].orders with
  | [] => s
  | o :: rest =>
    let x := s.chans[c]
    let s := s.updChan c (fun x => { x with orders := rest })
    let k := if x.st = .playing then (s.entryOf c).armedSlot o.channel else none
    match k with
    | none =>
      let s := if x.st = .fault ∨ x.resume then s.updChan c (fun x => { x with missed := x.missed ++ [⟨o, s.granC c⟩] }) else s
      (s.raise (.jmpStatus c) JMP_STATUS.GROUP_MISS).publish (.chan c .group) 1
    | some k =>
      let (base, exact) := s.memberJump c o k x.entry x.visit (s.playPos c)
      let (j, s) := if exact then (base, s) else s.asBoundary c base
      let s := if exact then s else (s.raise (.jmpStatus c) JMP_STATUS.GROUP_SPLIT).publish (.chan c .group) 2
      let (s, stands) := s.resolveJump c j
      if stands then s.cutAhead c j else s

/-- The take point of the pending jump is reached (R78, R80, R95): a jump inside an iteration is taken there; one at an iteration boundary is taken as that iteration ends. -/
def State.jumpReached (s : State) (c : ChanId) : State :=
  let x := s.chans[c]
  match x.st, x.pend with
  | .playing, some j =>
    if j.atBoundary then (if s.jumpDueAt c (s.iterEnd c) ∧ (s.heldFrom c).isNone then s.iterationEnds c else s)
    else if j.take = s.iterEnd c ∧ (s.heldFrom c).isNone then s.iterationEnds c
    else if x.iterStart < j.take ∧ (j.take < s.iterEnd c ∨ (s.heldFrom c).isSome) then
      (s.leaveVisit c j.take (j.mode == .timed)).takeJump c j (x.iter + 1) j.take
    else s
  | _, _ => s

/-! ### The ready list (R87 to R90) -/

/-- The ready list that JMP_READYk describes: that of the staged table from the commit of a swap on (R103). -/
def Chan.readyNow (x : Chan) : List ReadyPlace := x.readyNext.getD x.ready

/-- A list with the element at a place changed. -/
def setAt {α : Type} (l : List α) (i : Nat) (f : α → α) : List α := l.mapIdx (fun j a => if j = i then f a else a)

/-- The stored bytes of an entry's held head, from the Dome it is read from or its mirror copy (R53, R88, R89): none where a byte of it is not to be read. -/
def State.headBytes (s : State) (c : ChanId) (e : EntryWords) : Option (List Byte) :=
  let n := ceilDiv (heldGranules e * 32 / 2 ^ e.interp * storedBits e.format) 8
  let d := s.readDome c e
  let from_ := fun (d : DomeId) => (List.range n).mapM (fun i => s.sampleByte d (e.segAddr * 64 + i))
  if s.segLost e then none
  else match from_ d with
    | some l => some l
    | none => if e.home = 2 ∧ ¬ s.dieLost[Die.ofDome (twin d)] then from_ (twin d) else none

/-- The list whose place `k` a head read concerns: the active table's while that place is not held, else the staged table's, whose heads are read from the commit of a swap on; an answer about a head
that both hold is one about the active table's (DESIGN CHOICE, log entry 111). -/
def Chan.readsNext (x : Chan) (k : Nat) : Bool :=
  let open_ := fun (l : List ReadyPlace) => match l[k]? with | some r => !r.held | none => false
  !open_ x.ready && (match x.readyNext with | some l => open_ l || (x.ready[k]?).isNone | none => false)

/-- A head read ends (R89): the place is held, with the head's bytes; or the head is read again, with HEAD_LOST. A head homed on a lost Dome stays not held (R34). -/
def State.headRead (s : State) (c : ChanId) (place : Fin 8) (ok : Bool) : State :=
  let x := s.chans[c]
  let next := x.readsNext place.val
  let l := if next then x.readyNext.getD [] else x.ready
  match l[place.val]? with
  | none => s
  | some r =>
    let e := (if next then s.staged c else s.table c).entry r.entry
    let head := if ok then s.headBytes c e else none
    let l := setAt l place.val (fun y => { y with held := head.isSome, head := head.getD [] })
    let s := s.updChan c (fun x => if next then { x with readyNext := some l } else { x with ready := l })
    if head.isSome ∨ (ok ∧ s.segLost e) then s else s.raise (.jmpStatus c) JMP_STATUS.HEAD_LOST

/-! ### The commands -/

def execJumpEventRegister (c : ChanId) (ch : BeaconCh) (merged : Nat) (s : State) : Host.Outcome State Fault Refusal :=
  s.act [Die.ofLamp (lampOf c)] (·.jumpEvent c ch merged)
def execHeadReadDone (c : ChanId) (place : Fin 8) (ok : Bool) (s : State) : Host.Outcome State Fault Refusal := s.act [Die.ofLamp (lampOf c)] (·.headRead c place ok)
def execGroupOrderReceive (c : ChanId) (s : State) : Host.Outcome State Fault Refusal := s.act [Die.ofLamp (lampOf c)] (·.groupOrder c)

end Sys2Proof.Machine
end

