-- ==== Sys2Proof/Machine/Resume.lean ====
section
/-! DEFINITION. The unbroken walk that a channel takes up again after a recovery (spec 10_orrery.md R282). -/
namespace Sys2Proof.Machine
open Sys2Proof

/-! ### The walk as it would have gone on (R48, R78, R99) -/

/-- An iteration of the unbroken walk: its place, its first sample, and whether a visit begins with it. -/
structure PathPiece where
  pos   : WalkPos
  start : Nat
  visit : Bool
deriving DecidableEq, Repr

/-- The unbroken walk: the iteration it stands in, the visit's number, the pending request, and the iterations passed, latest first. -/
structure Unbroken where
  piece  : PathPiece
  visit  : Nat
  pend   : Option PendingJump
  passed : List PathPiece
deriving DecidableEq, Repr

/-- How the unbroken walk stands at the start instant. -/
inductive PathEnd where
  | plays | ended | faulted
deriving DecidableEq, Repr

/-- The sample after the iteration an unbroken walk stands in. -/
def Unbroken.iterEnd (u : Unbroken) (t : Table) : Nat := u.piece.start + 32 * (t.entry u.piece.pos.entry).lenG

/-- The walk goes over to an iteration. -/
def Unbroken.next (u : Unbroken) (p : PathPiece) : Unbroken := { u with piece := p, visit := if p.visit then u.visit + 1 else u.visit, passed := u.piece :: u.passed }

/-- What follows the iteration on the natural path. -/
def Unbroken.natural (u : Unbroken) (t : Table) : Option PathPiece :=
  (pathStep t u.piece.pos).map (fun w => ⟨w, u.iterEnd t, match walkNext t u.piece.pos with | .again _ => false | _ => true⟩)

/-- The take point of a request as an unbroken walk stands (R79). -/
def State.unbrokenTake (s : State) (c : ChanId) (u : Unbroken) (j : PendingJump) : Option Nat :=
  if j.atBoundary then boundaryFrom (s.table c) (j.regGc + s.groupLag c j.group).toNat 40 128 u.piece.pos u.piece.start else some j.take

/-- The pending request is taken in the iteration an unbroken walk stands in, or as it ends: the sample. -/
def State.unbrokenJump (s : State) (c : ChanId) (u : Unbroken) : Option (Nat × PendingJump) :=
  u.pend.bind (fun j =>
    let b := u.iterEnd (s.table c)
    if s.pendDue c j b then some (b, j) else if !j.atBoundary && decide (u.piece.start < j.take ∧ j.take < b) then some (j.take, j) else none)

/-- A group order that came at sample `p` meets the pending request of an unbroken walk, as it would have at the member (R93, R99). -/
def State.unbrokenOrder (s : State) (c : ChanId) (o : GroupOrder) (p : Nat) (u : Unbroken) : Unbroken :=
  match ((s.table c).entry u.piece.pos.entry).armedSlot o.channel with
  | none => u
  | some k =>
    let (base, exact) := s.memberJump c o k u.piece.pos.entry u.visit p
    let j := if exact then base else { base with mode := .boundary, atBoundary := true }
    match u.pend with
    | none => { u with pend := some j }
    | some old =>
      let a := s.unbrokenTake c u j
      let b := s.unbrokenTake c u old
      if takeBefore a b || (!takeBefore b a && decide (j.slot < old.slot)) then { u with pend := some j } else u

/-- What an unbroken walk does next: an order comes, or an iteration ends. -/
inductive UnbrokenStep where
  | goes (orders : List (GroupOrder × Nat)) (u : Unbroken)
  | stands (how : PathEnd)
deriving DecidableEq, Repr

/-- The iteration ends, in a jump or on the natural path. -/
def State.unbrokenEnd (s : State) (c : ChanId) (orders : List (GroupOrder × Nat)) (u : Unbroken) (jump : Option (Nat × PendingJump)) : UnbrokenStep :=
  let t := s.table c
  match jump with
  | some (p, j) => match enterAt t j.target u.piece.pos.frames with
    | some w => .goes orders { u.next ⟨w, p, true⟩ with pend := none }
    | none => .stands .faulted
  | none => match u.natural t with
    | some q => .goes orders (u.next q)
    | none => .stands (if (t.entry u.piece.pos.entry).isEnd then .ended else .faulted)

/-- The next thing that happens to an unbroken walk no later than sample `till`. -/
def State.unbrokenStep (s : State) (c : ChanId) (till : Nat) (orders : List (GroupOrder × Nat)) (u : Unbroken) : UnbrokenStep :=
  let jump := s.unbrokenJump c u
  let due := match jump with | some (p, _) => p | none => u.iterEnd (s.table c)
  match orders with
  | (o, p) :: rest => if p < due ∧ p ≤ till then .goes rest (s.unbrokenOrder c o p u) else if till < due then .stands .plays else s.unbrokenEnd c orders u jump
  | [] => if till < due then .stands .plays else s.unbrokenEnd c orders u jump

/-- The unbroken walk as it stands at sample `till`, with the group orders that came meanwhile, each at its sample. -/
def State.unbroken (s : State) (c : ChanId) (till : Nat) : Nat → List (GroupOrder × Nat) → Unbroken → Unbroken × PathEnd
  | 0, _, u => (u, .plays)
  | fuel + 1, orders, u => match s.unbrokenStep c till orders u with
    | .goes orders u => s.unbroken c till fuel orders u
    | .stands how => (u, how)

/-! ### Taking it up (R150, R282) -/

/-- The unbroken walk of a channel as it stands at granule edge `g` of the unit's count, from the walk kept at the fault. -/
def State.unbrokenAt (s : State) (c : ChanId) (k : KeptWalk) (g : Nat) : Unbroken × PathEnd :=
  let x := s.chans[c]
  let fresh := x.was == .priming
  let till := 32 * (g - x.startGran)
  let orders := (x.missed.filter (fun m => decide (x.startGran ≤ m.gran))).map (fun m => (m.order, 32 * (m.gran - x.startGran)))
  s.unbroken c till ((till - k.start) / 32 + orders.length + 2) orders ⟨⟨⟨k.entry, k.iter, k.frames⟩, k.start, fresh⟩, if fresh then k.visit + 1 else k.visit, k.pend, []⟩

/-- The sample at which an unbroken walk stands at granule edge `g`: that edge, or its stop. -/
def State.unbrokenStop (s : State) (c : ChanId) (r : Unbroken × PathEnd) (g : Nat) : Nat :=
  match r.2 with | .plays => 32 * (g - s.chans[c].startGran) | _ => r.1.iterEnd (s.table c)

/-- The first sample of the visit an unbroken walk stands in. -/
def Unbroken.visitStart (u : Unbroken) (k : KeptWalk) : Nat := (((u.piece :: u.passed).find? (·.visit)).map (·.start)).getD k.visitStart

/-- The channel stands, as it primes, at the place an unbroken walk would hold at granule edge `g`. The stretches an edge can still lie in are the iterations passed. -/
def State.standAt (s : State) (c : ChanId) (k : KeptWalk) (r : Unbroken × PathEnd) (g : Nat) : State :=
  let u := r.1
  let pos := s.unbrokenStop c r g
  let t := s.table c
  let spans := (u.passed.reverse.zip (u.passed.reverse.drop 1 ++ [u.piece])).map (fun p => (⟨p.1.pos.entry, p.1.start, p.2.start, 32 * (t.entry p.1.pos.entry).lenG⟩ : VisitSpan))
  s.updChan c (fun y =>
    { y with
      entry := u.piece.pos.entry, iter := u.piece.pos.iter, frames := u.piece.pos.frames, visit := u.visit, visitStart := u.visitStart k, iterStart := u.piece.start, iterFirst := u.piece.start
      spanStart := u.piece.start, resumed := pos, headed := false, stopPos := pos, history := spans.filter (fun v => decide (pos ≤ v.stop + 32 * 4096)) })

/-- A resuming start (R282): the channel primes at the place an unbroken walk would hold at granule edge `g`. -/
def State.resumeAt (s : State) (c : ChanId) (k : KeptWalk) (g : Nat) : State :=
  let r := s.unbrokenAt c k g
  let pos := s.unbrokenStop c r g / 32
  (s.standAt c k r g).updChan c (fun y =>
    { y with st := .priming, startAt := some g, resume := true, reqTo := pos, arrTo := pos, darkTo := pos, primed := false, pend := none, batch := none })

/-- The range and NCO operations of an iteration passed in the dark (R282). -/
def State.passPiece (s : State) (c : ChanId) (p : PathPiece) : State :=
  let e := (s.table c).entry p.pos.entry
  let s := if p.visit then s.visitRange c e (s.unitSample c p.start) else s
  if p.visit ∨ e.ncoEach then s.ncoOpAt c e (s.unitSample c p.start) else s

/-- Granules of a stream entry passed in the dark advance its stream, and are counted (R150, R282). -/
def State.skipStream (s : State) (c : ChanId) (e : EntryWords) (granules : Nat) : State :=
  match entryStream e with
  | some st =>
    if s.chanOf st = c then (s.updStream st (fun x => { x with pos := x.pos + granules })).bumpBy (.tndSkipped st) TND_SKIPPED.GRANULES granules else s
  | none => s

/-- What an unbroken walk passed from the fault to sample `pos` has its effect on the range, the NCO and the streams. The iteration the fault found in play had taken its own. -/
def State.passDark (s : State) (c : ChanId) (k : KeptWalk) (u : Unbroken) (pos : Nat) : State :=
  let all := (u.piece :: u.passed).reverse
  let new := if s.chans[c].was = .priming then all else all.drop 1
  let s := new.foldl (fun (s : State) (p : PathPiece) => s.passPiece c p) s
  (all.zip ((all.drop 1).map (·.start) ++ [pos])).foldl (fun (s : State) (p : PathPiece × Nat) =>
    s.skipStream c ((s.table c).entry p.1.pos.entry) ((p.2 - max k.stop p.1.start) / 32)) s

/-- The start instant of a resuming start at granule edge `g` (R282): the channel takes up the unbroken walk as it stands now, with the orders that came while it primed; one that has stopped at END leaves it
ENDED. -/
def State.takeUpWalk (s : State) (c : ChanId) (g : Nat) : State :=
  match s.chans[c].resume, s.chans[c].kept with
  | true, some k =>
    let r := s.unbrokenAt c k g
    let pos := s.unbrokenStop c r g
    let s := ((s.passDark c k r.1 pos).standAt c k r g).updChan c (fun y => { y with pend := r.1.pend, missed := [] })
    match r.2 with
    | .ended => (s.discardJump c).updChan c (fun y => { y with st := .ended, startAt := none, resume := false, kept := none })
    | _ => s.updShadow c (fun y =>
      { y with
        walks := true, table := s.table c, entry := r.1.piece.pos.entry, frames := r.1.piece.pos.frames, iter := r.1.piece.pos.iter, iterAt := r.1.piece.start, visitAt := r.1.visitStart k, slid := 0
        pauses := [], seen := [], ended := false })
  | _, _ => s

end Sys2Proof.Machine
end

