-- ==== Sys2Proof/Machine/Mooring.lean ====
section
/-! DEFINITION. The Mooring controllers: stripe mapping, requests and their order, refresh, errors, retirement, migration, self-refresh and frequency change
(spec 11_mooring.md R287 to R318). -/
namespace Sys2Proof.Machine
open Sys2Proof

/-! ### The protected space and its mapping (R291 to R293) -/

/-- The state with a Dome's memory changed. -/
def State.updMoor (s : State) (d : DomeId) (f : Mooring → Mooring) : State := { s with moor := s.moor.set d (f s.moor[d]) }
def State.updPort (s : State) (d : DomeId) (p : PortId) (f : MemPort → MemPort) : State := s.updMoor d (fun m => { m with ports := m.ports.set p (f m.ports[p]) })
def State.updSub (s : State) (d : DomeId) (p : PortId) (sc : Fin 4) (f : SubChannel → SubChannel) : State :=
  s.updPort d p (fun x => { x with subs := x.subs.set sc (f x.subs[sc]) })

/-- Stripes of the set, of 256 port bytes. -/
def State.stripes (s : State) (d : DomeId) : Nat := s.capacity d / 256

/-- Where a data address lies: its stripe, its data position, the parity position and its port address (R291); in HALF both copies at the same address (R292). -/
structure Place where
  stripe : Nat
  data   : Fin 4
  parity : Fin 4
  port   : Nat
deriving DecidableEq, Repr

def placeOf (half : Bool) (a : Nat) : Place :=
  if half then ⟨a / 256, 0, 1, a⟩
  else
    let st := a / 768
    let o := a % 768
    ⟨st, Fin.ofNat 4 (st % 4 + 1 + o / 256), Fin.ofNat 4 st, st * 256 + o % 256⟩

/-- The data address whose unit a position holds at a port address: none where it holds the parity unit of the stripe; in HALF both copies hold the unit (R291, R292). -/
def dataAddr (half : Bool) (i : Fin 4) (port : Nat) : Option Nat :=
  let st := port / 256
  if half then some port
  else if i.val = st % 4 then none
  else some (768 * st + 256 * ((i.val + 3 - st % 4) % 4) + port % 256)

/-- Sub-channel, column, bank and row of a port address (R293). -/
def subOf (a : Nat) : Fin 4 := Fin.ofNat 4 (a / 64)
def columnOf (a : Nat) : Fin 32 := Fin.ofNat 32 (a / 2 ^ 8)
def bankOf (a : Nat) : Fin 16 := Fin.ofNat 16 (Nat.xor (a / 2 ^ 13 % 16) (a / 2 ^ 17 % 16))
def rowOf (a : Nat) : Nat := a / 2 ^ 17

/-- The field of MOOR_MAP that maps a logical position. -/
def mapField (i : Fin 4) : FieldSpec := if i = 0 then MOOR_MAP.L0 else if i = 1 then MOOR_MAP.L1 else if i = 2 then MOOR_MAP.L2 else MOOR_MAP.L3

/-- The port of a logical position (R290); 7 is none. -/
def State.portAt (s : State) (d : DomeId) (i : Fin 4) : Option PortId :=
  let v := s.fld (.moorMap d) (mapField i)
  if h : v < 5 then some ⟨v, h⟩ else none

/-- The logical position of a port. -/
def State.positionOf (s : State) (d : DomeId) (p : PortId) : Option (Fin 4) := (List.finRange 4).find? (fun i => s.portAt d i == some p)

/-- The role of a port: 0 ACTIVE, 1 SPARE, 2 RETIRED, 3 UNUSED, 4 MIGRATION_TARGET (R318). -/
def State.role (s : State) (d : DomeId) (p : PortId) : Nat := s.fld (.mpState d p) MP_STATE.ROLE
def State.setRole (s : State) (d : DomeId) (p : PortId) (r : Nat) : State := s.setFld (.mpState d p) MP_STATE.ROLE r

/-- State of the set: 0 PROTECTED, 1 DEGRADED, 2 MIGRATING, 3 UNPROTECTED, 4 FAILED (R311). -/
def State.setState (s : State) (d : DomeId) : Nat := s.fld (.moorCfg d) MOOR_CFG.SET_STATE
def State.toSetState (s : State) (d : DomeId) (v : Nat) : State := s.setFld (.moorCfg d) MOOR_CFG.SET_STATE v

/-- The stripes rebuilt onto MP4 (R309). -/
def State.watermark (s : State) (d : DomeId) : Nat := s.fld (.moorMigWm d) MOOR_MIG_WM.W

/-- A position serves a stripe: it is not lost, or the stripe is rebuilt onto MP4 (R308, R309). -/
def State.servesStripe (s : State) (d : DomeId) (i : Fin 4) (stripe : Nat) : Bool :=
  i ∉ s.moor[d].lost || (s.setState d == 2 && decide (stripe < s.watermark d))

/-- The positions a stripe row lies on. -/
def State.positions (s : State) (d : DomeId) : List (Fin 4) := if s.half d then [0, 1] else [0, 1, 2, 3]

/-- A unit can be read: at most one unit of its stripe row, or one copy, is lost (R310), and it is not poisoned. -/
def State.readable (s : State) (d : DomeId) (a : Nat) : Bool :=
  let w := placeOf (s.half d) a
  let gone := (s.positions d).filter (fun i => !s.servesStripe d i w.stripe)
  decide (a / 64 * 64 ∉ s.moor[d].poison)
  && (if s.half d then decide (gone.length < 2) else decide (w.data ∉ gone) || decide (gone.length ≤ 1))

/-! ### Events (R316) -/

/-- The information word of a port event. -/
def portInfo (code : Nat) (sc : Nat) (pos : Nat) (detail : Nat) : Nat := code + sc % 4 * 2 ^ 4 + pos % 4 * 2 ^ 6 + detail % 2 ^ 24 * 2 ^ 8

/-- A port publishes an event. -/
def State.portEvent (s : State) (d : DomeId) (p : PortId) (code sc detail : Nat) : State :=
  s.publish (.memPort d p) (portInfo code sc (((s.positionOf d p).map Fin.val).getD 0) detail)

/-- A set-level event publishes from the port at L0. -/
def State.setEvent (s : State) (d : DomeId) (code detail : Nat) : State :=
  match s.portAt d 0 with
  | some p => s.publish (.memPort d p) (portInfo code 0 0 detail)
  | none => s

/-! ### Requests (R295, R299, R313) -/

/-- The number of a class (R295). -/
def memClassNum : MemClass → Fin 5
  | .play => 0 | .stream => 1 | .host => 2 | .migrate => 3 | .scrub => 4

/-- The class target in q. -/
def State.memTarget (s : State) (d : DomeId) (c : MemClass) : Nat := min 1000000 (max 16 (s.fld (.moorQos d (memClassNum c)) MOOR_QOSc.TARGET)) * qNs

/-- The urgency of a request in percent of its class target (R296). -/
def State.urgency (s : State) (d : DomeId) (c : MemClass) (arrival : Nat) : Nat := (s.clock.now - arrival) * 100 / s.memTarget d c

/-- Two writes change one 64 B row of one stripe. -/
def MemWrite.sameRow (w x : MemWrite) : Bool := w.addr / 64 == x.addr / 64

/-- In FULL, all three data units of the write's row are in the queues (R294). -/
def State.rowWhole (s : State) (d : DomeId) (w : MemWrite) : Bool :=
  !s.half d && (((s.moor[d].writes.filter w.sameRow).map (fun x => (placeOf false x.req.addr).data)).eraseDups.length == 3)

/-- Units the parity engine has still to read before a write's units can be written: none where the row is written whole, and in HALF; the old data and the old parity otherwise; for a unit
of a lost position the other data units of the row, since it is recorded in the new parity only; none where the parity position is lost (R294, R309). -/
def State.mustRead (s : State) (d : DomeId) (w : MemWrite) : List (Fin 4) :=
  let x := placeOf (s.half d) w.req.addr
  let need :=
    if s.half d || w.whole || s.rowWhole d w || !s.servesStripe d x.parity x.stripe then []
    else if s.servesStripe d x.data x.stripe then [x.data, x.parity]
    else [0, 1, 2, 3].filter (fun i => i ≠ x.data ∧ i ≠ x.parity)
  need.filter (fun i => i ∉ w.old)

/-- Units still to be written on a position: the positions in service that the write changes (R294, R309). -/
def State.mustWrite (s : State) (d : DomeId) (w : MemWrite) : List (Fin 4) :=
  let x := placeOf (s.half d) w.req.addr
  let all := if s.half d then [0, 1] else [x.data, x.parity]
  all.filter (fun i => s.servesStripe d i x.stripe && decide (i ∉ w.written))

/-- Entries of a port's write queue: data units and mirror copies still to be written, and the parity units formed, one for a row (R294). -/
def State.writeFill (s : State) (d : DomeId) (p : PortId) : Nat :=
  match s.positionOf d p with
  | none => 0
  | some i =>
    let here := s.moor[d].writes.filter (fun w => decide (i ∈ s.mustWrite d w))
    let parity := fun (w : MemWrite) => !s.half d && (placeOf false w.req.addr).parity == i
    (here.filter (fun w => !parity w)).length + ((here.filter (fun w => parity w && (s.mustRead d w).isEmpty)).map (fun w => w.addr / 64)).eraseDups.length

/-- The port a read goes to: the data position, or, where it does not serve the stripe, the first position that does (R300, R309). -/
def State.readPort (s : State) (d : DomeId) (w : Place) : Option PortId :=
  if s.servesStripe d w.data w.stripe then s.portAt d w.data
  else ((s.positions d).find? (fun i => s.servesStripe d i w.stripe)).bind (s.portAt d)

/-- The 64 bytes of a unit. -/
def State.unitBytes (s : State) (d : DomeId) (a : Nat) : Vector Byte 64 := Vector.ofFn (fun i => Memory.get s.moor[d].data (a / 64 * 64 + i.val))

/-- The XOR of units, byte by byte. -/
def xorUnits (us : List (Vector Byte 64)) : Vector Byte 64 := us.foldl (fun x y => Vector.ofFn (fun i : Fin 64 => x[i] ^^^ y[i])) (Vector.replicate 64 0)

/-- A unit as the writes accepted so far leave it: the data of the newest queued write to it in FULL, else what the components hold (R299). -/
def State.unitNow (s : State) (d : DomeId) (a : Nat) : Vector Byte 64 :=
  match ((if s.half d then [] else s.moor[d].writes.filter (fun x => x.req.addr / 64 = a / 64)).getLast?).bind (·.req.write) with
  | some v => v
  | none => s.unitBytes d a

/-- The unit of a position at a port address: a data unit or copy; on the parity position the XOR of the three data units (R291, R292, R299). -/
def State.unitAt (s : State) (d : DomeId) (i : Fin 4) (port : Nat) : Vector Byte 64 :=
  match dataAddr (s.half d) i port with
  | some a => s.unitNow d a
  | none => xorUnits (((List.finRange 4).filterMap (fun j => dataAddr false j port)).map (s.unitNow d))

/-- A unit rebuilt from the same port address on the other positions, or read from the other copy (R300). -/
def State.rebuilt (s : State) (d : DomeId) (i : Fin 4) (port : Nat) : Vector Byte 64 :=
  if s.half d then s.unitAt d (if i = 0 then 1 else 0) port
  else xorUnits (((List.finRange 4).filter (· ≠ i)).map (fun j => s.unitAt d j port))

/-- The unit a read returns: what the components hold where the data position serves the stripe, else the rebuilt unit (R300, R309). -/
def State.unitRead (s : State) (d : DomeId) (a : Nat) : Vector Byte 64 :=
  let w := placeOf (s.half d) a
  if s.servesStripe d w.data w.stripe then s.unitBytes d a else s.rebuilt d w.data w.port

/-- A poisoned unit is counted and published with its stripe (R310). -/
def State.poisonRead (s : State) (d : DomeId) (stripe : Nat) : State :=
  ((s.bump (.moorPoison d) MOOR_POISON.COUNT).raise (.moorStatus d) MOOR_STATUS.POISON).setEvent d 11 stripe

/-- A read is answered with its unit, or as poisoned. -/
def State.answerRead (s : State) (d : DomeId) (req : MemReq) (unit : Vector Byte 64) : State :=
  if s.readable d req.addr then s.updMoor d (fun m => { m with answers := m.answers ++ [(req.id, unit, false)] })
  else (s.updMoor d (fun m => { m with answers := m.answers ++ [(req.id, Vector.replicate 64 0, true)] })).poisonRead d (placeOf (s.half d) req.addr).stripe

/-- A self-refresh entry is aborted before its commit point (R313). -/
def State.srAbort (s : State) (d : DomeId) : State :=
  ((s.setFld (.moorSr d) MOOR_SR.STATE 0).bump (.moorSrAborts d) MOOR_SR_ABORTS.COUNT).raise (.moorStatus d) MOOR_STATUS.SR_ABORT

/-- A bank is under refresh now (R300). -/
def State.bankClosed (s : State) (d : DomeId) (p : PortId) (sc : Fin 4) (b : Fin 16) : Bool :=
  match s.moor[d].ports[p].subs[sc].refreshing with
  | some (x, stop) => decide (s.clock.now < stop) && (x == 16 || x == b.val)
  | none => false

/-- A port has urgent refreshes still to issue (R303). -/
def State.bursting (s : State) (d : DomeId) (p : PortId) : Bool := (List.finRange 4).any (fun sc => decide (0 < s.moor[d].ports[p].subs[sc].urgent))

/-- PLAY and STREAM reads that meet a refresh on this port are read around: never while a position is lost, nor while this port and another of the set are both in urgent bursts (R300, R303). -/
def State.readsAround (s : State) (d : DomeId) (p : PortId) (c : MemClass) : Bool :=
  (c == .play || c == .stream) && s.moor[d].lost.isEmpty
    && !(s.bursting d p && (List.finRange 5).any (fun q => q != p && (s.positionOf d q).isSome && s.bursting d q))

/-- A request arrives: given retry status in a LAID-UP entry or a frequency change where it comes from the host side, or beyond the depth of its queue; a near deadline aborts a self-refresh
entry; a read of a unit with a write queued is answered from the queue in FULL; a read that meets its bank under refresh is read around; every other request joins its queue (R295, R299,
R300, R313). -/
def State.memArrive (s : State) (d : DomeId) (req : MemReq) : State :=
  let s := { s with resp := .none }
  if s.dataBytes d ≤ req.addr then s
  else
    let sr := s.fld (.moorSr d) MOOR_SR.STATE
    let hostSide := req.cls == .host || req.cls == .stream
    let w := placeOf (s.half d) req.addr
    if hostSide ∧ (s.moor[d].sr = some .laidUp ∨ s.moor[d].sr = some .freq) then { s with resp := .retry }
    else
      let exitQ := min 16383 (max 1000 (s.fld (.moorSr d) MOOR_SR.EXIT)) * qNs
      let s := if sr = 1 ∧ s.memTarget d req.cls < exitQ then (s.srAbort d).updMoor d (fun m => { m with sr := none }) else s
      let s := s.updMoor d (fun m => { m with lastReq := s.clock.now })
      match req.write with
      | some _ =>
        let new : MemWrite := ⟨req, w.port, s.clock.now, [], [], false⟩
        let full := fun (i : Fin 4) => match s.portAt d i with | some p => decide (128 ≤ s.writeFill d p) | none => false
        if (s.mustWrite d new).any full then { s with resp := .retry }
        else s.updMoor d (fun m => { m with writes := m.writes ++ [new] })
      | none =>
        if !s.half d && s.moor[d].writes.any (fun x => x.req.addr / 64 == req.addr / 64) then
          s.updMoor d (fun m => { m with answers := m.answers ++ [(req.id, s.unitNow d req.addr, false)] })
        else
          match s.readPort d w with
          | none => s.answerRead d req (s.unitRead d req.addr)
          | some p =>
            if s.readsAround d p req.cls && s.bankClosed d p (subOf w.port) (bankOf w.port) then s.answerRead d req (s.rebuilt d w.data w.port)
            else if 64 ≤ ((List.finRange 4).map (fun sc => s.moor[d].ports[p].subs[sc].reads.length)).sum then { s with resp := .retry }
            else s.updSub d p (subOf w.port) (fun u => { u with reads := u.reads ++ [⟨req, w.port, s.clock.now⟩] })

/-! ### Refresh (R300 to R304) -/

def owedField (sc : Fin 4) : FieldSpec := if sc = 0 then MP_OWED.SC0 else if sc = 1 then MP_OWED.SC1 else if sc = 2 then MP_OWED.SC2 else MP_OWED.SC3
/-- Refreshes owed, urgent ones left out (R302). -/
def State.owed (s : State) (d : DomeId) (p : PortId) (sc : Fin 4) : Nat := s.fld (.mpOwed d p) (owedField sc)
def State.setOwed (s : State) (d : DomeId) (p : PortId) (sc : Fin 4) (n : Nat) : State := s.setFld (.mpOwed d p) (owedField sc) n

/-- One MCLK cycle in q: MCLK is 12 GHz over the divider in force (R288, R317). -/
def State.mclkQ (s : State) (d : DomeId) : Nat := 512 * s.fld (.moorCfg d) MOOR_CFG.DIV
/-- The timing set in force: 0 A, 1 B (R314). -/
def State.timingSet (s : State) (d : DomeId) : Fin 2 := if s.isSet (.moorCfg d) MOOR_CFG.TIMING_SET then 1 else 0

/-- The command joins the retry buffer, which keeps the last 32 (R306). -/
def State.issueCmd (s : State) (d : DomeId) (p : PortId) (sc : Fin 4) (k : MemCmdKind) : State :=
  s.updPort d p (fun x => { x with retry := lastOf 32 (x.retry ++ [⟨x.seq, sc, k, 0, 1⟩]), seq := x.seq + 1 })

/-- The commands of the retry buffer from a number on are issued again, in order; a replayed write stores the same data, and the data of a replayed read is used once (R306). -/
def State.reissue (s : State) (d : DomeId) (p : PortId) (oldest : Nat) : State :=
  s.updPort d p (fun x => { x with retry := x.retry.map (fun y => if oldest ≤ y.seq then { y with issued := y.issued + 1 } else y) })

/-- The memory clock has switched to the twin: each port issues again the commands that have not completed, the newest ones; how many they are is a matter of timing and a free value (R211, R306). -/
def State.clockReplay (s : State) (d : DomeId) : State :=
  (List.finRange 5).foldl (fun (s : State) (p : PortId) =>
    let x := s.moor[d].ports[p]
    let (v, s) := s.fresh
    s.reissue d p (x.seq - v.toNat % (x.retry.length + 1))) s

/-- The memory clock of a Dome switches to the twin Meridian: commands are held (R211, R306). -/
def State.clockHolds (s : State) (d : DomeId) : Bool := s.clock.switching[(⟨4 + d.val, by omega⟩ : Fin 10)]

/-- The reads waiting on a sub-channel whose bank a refresh closes are read around: rebuilt from the other positions, or read from the other copy (R300). -/
def State.readAround (s : State) (d : DomeId) (p : PortId) (sc : Fin 4) : State :=
  let hit := fun (r : MemRead) => s.readsAround d p r.req.cls && s.bankClosed d p sc (bankOf r.addr)
  let reads := s.moor[d].ports[p].subs[sc].reads
  let around := fun (s : State) (r : MemRead) => s.answerRead d r.req (s.rebuilt d (placeOf (s.half d) r.req.addr).data r.addr)
  (reads.filter hit).foldl around (s.updSub d p sc (fun u => { u with reads := reads.filter (fun r => !hit r) }))

/-- An all-bank refresh: every row of the sub-channel closes (R297, R302). -/
def State.refreshAll (s : State) (d : DomeId) (p : PortId) (sc : Fin 4) : State :=
  let stop := s.clock.now + s.fld (.mpTs4 d p (s.timingSet d)) MP_TSx_4.TRFCAB * s.mclkQ d
  let s := s.updSub d p sc (fun u => { u with openRow := Vector.replicate 16 none, refreshing := some (16, stop) })
  (s.issueCmd d p sc .refreshAll).readAround d p sc

/-- A per-bank refresh of the next bank in rotation; sixteen of them repay one refresh owed (R300, R302). -/
def State.refreshBank (s : State) (d : DomeId) (p : PortId) (sc : Fin 4) : State :=
  let u := s.moor[d].ports[p].subs[sc]
  let b := u.nextBank
  let stop := s.clock.now + s.fld (.mpTs4 d p (s.timingSet d)) MP_TSx_4.TRFCPB * s.mclkQ d
  let s := s.updSub d p sc (fun u => { u with openRow := u.openRow.set b none, refreshing := some (b.val, stop), nextBank := b + 1, steps := (u.steps + 1) % 16 })
  let s := if u.steps = 15 then s.setOwed d p sc (s.owed d p sc - 1) else s
  (s.issueCmd d p sc (.refreshBank b)).readAround d p sc

/-- A refresh interval elapses: one more refresh is owed; where eight are, one is issued at once at order 1 (R302). -/
def State.refreshDue (s : State) (d : DomeId) (p : PortId) (sc : Fin 4) : State :=
  if s.owed d p sc + 1 < 8 then s.setOwed d p sc (s.owed d p sc + 1) else s.refreshAll d p sc

/-- The temperature crosses above the threshold: double rate, the owed counts double, and refreshes owed beyond 8 are urgent (R301, R303). -/
def State.doubleBegins (s : State) (d : DomeId) (p : PortId) (celsius : Nat) : State :=
  let s := ((s.raise (.mpState d p) MP_STATE.DOUBLE).raise (.mpStatus d p) MP_STATUS.TEMP_HIGH).portEvent d p 7 0 celsius
  (List.finRange 4).foldl (fun s sc =>
    let n := 2 * (s.owed d p sc + s.moor[d].ports[p].subs[sc].urgent)
    let s := s.setOwed d p sc (min 8 n)
    if n ≤ 8 then s
    else
      let s := s.updSub d p sc (fun u => { u with urgent := n - 8 })
      ((s.bumpBy (.mpUrgent d p) MP_URGENT.COUNT (n - 8)).raise (.moorStatus d) MOOR_STATUS.URGENT).portEvent d p 9 sc.val (n - 8)) s

/-- Double rate ends: each owed count halves, rounded up (R303). -/
def State.doubleEnds (s : State) (d : DomeId) (p : PortId) (celsius : Nat) : State :=
  let s := (s.setFld (.mpState d p) MP_STATE.DOUBLE 0).portEvent d p 8 0 celsius
  (List.finRange 4).foldl (fun s sc => s.setOwed d p sc ((s.owed d p sc + 1) / 2)) s

/-- A temperature reading (R301): double rate begins above the threshold, and ends with two readings below it in a row. -/
def State.temperature (s : State) (d : DomeId) (p : PortId) (celsius : BitVec 8) (above : Bool) : State :=
  let s := s.setFld (.mpState d p) MP_STATE.TEMP celsius.toNat
  let double := s.isSet (.mpState d p) MP_STATE.DOUBLE
  if above then
    let s := s.updPort d p (fun x => { x with below := 0 })
    if double then s else s.doubleBegins d p celsius.toNat
  else if double then
    if s.moor[d].ports[p].below = 0 then s.updPort d p (fun x => { x with below := 1 })
    else (s.updPort d p (fun x => { x with below := 0 })).doubleEnds d p celsius.toNat
  else s

/-! ### The order of issue (R296, R297, R299, R304) -/

/-- A request that waits at a sub-channel. -/
inductive Waiting where
  | read (r : MemRead)
  | write (w : MemWrite)
deriving DecidableEq, Repr

def Waiting.arrival : Waiting → Nat
  | .read r => r.arrival
  | .write w => w.arrival
def Waiting.cls : Waiting → MemClass
  | .read r => r.req.cls
  | .write w => w.req.cls
def Waiting.addr : Waiting → Nat
  | .read r => r.addr
  | .write w => w.addr

/-- The oldest of a list of requests; the first of those of one age. -/
def oldest : List Waiting → Option Waiting
  | [] => none
  | x :: rest => match oldest rest with
    | none => some x
    | some y => if x.arrival ≤ y.arrival then some x else some y

/-- Reads that wait on a sub-channel. -/
def State.readsWaiting (s : State) (d : DomeId) (p : PortId) (sc : Fin 4) : List Waiting := s.moor[d].ports[p].subs[sc].reads.map .read

/-- Writes with a command for this port on this sub-channel: an old unit to read, or, once none is, a unit to write; a write to the stripe being copied is held (R294, R309). -/
def State.writesWaiting (s : State) (d : DomeId) (p : PortId) (sc : Fin 4) : List Waiting :=
  match s.positionOf d p with
  | none => []
  | some i => (s.moor[d].writes.filter (fun w => decide (subOf w.addr = sc) && (decide (i ∈ s.mustRead d w) || (s.mustRead d w).isEmpty && decide (i ∈ s.mustWrite d w))
      && !(s.setState d == 2 && (placeOf (s.half d) w.req.addr).stripe == s.watermark d))).map .write

/-- In HALF, a bank in in-order mode issues strictly in order of arrival: a read whose bank and row match a write of its queue holds every later request of the bank until no write to it
is queued (R299). -/
def inOrder (half : Bool) (reads writes : List Waiting) (x : Waiting) : Bool :=
  let b := bankOf x.addr
  let match_ := reads.any (fun r => bankOf r.addr == b && writes.any (fun w => bankOf w.addr == b && rowOf w.addr == rowOf r.addr))
  !half || !match_ || (reads ++ writes).all (fun y => bankOf y.addr != b || decide (x.arrival ≤ y.arrival))

/-- A row hit (R296). -/
def State.rowHit (s : State) (d : DomeId) (p : PortId) (sc : Fin 4) (x : Waiting) : Bool :=
  match s.moor[d].ports[p].subs[sc].openRow[bankOf x.addr] with
  | some (row, _) => row == rowOf x.addr
  | none => false

/-- The oldest row hit, else the oldest. -/
def State.hitsFirst (s : State) (d : DomeId) (p : PortId) (sc : Fin 4) (l : List Waiting) : Option Waiting :=
  match oldest (l.filter (s.rowHit d p sc)) with
  | some x => some x
  | none => oldest l

/-- The urgency of a waiting request. -/
def State.pct (s : State) (d : DomeId) (x : Waiting) : Nat := s.urgency d x.cls x.arrival

/-- Of the requests that wait on a sub-channel, those a command can be issued for now: their bank is not under refresh, the in-order mode of their bank lets them through, and while a request
at 90 % or more waits, no other one opens a row (R296, R299, R300). -/
def State.issuable (s : State) (d : DomeId) (p : PortId) (sc : Fin 4) (l : List Waiting) : List Waiting :=
  let rs := s.readsWaiting d p sc
  let ws := s.writesWaiting d p sc
  let pressed := (rs ++ ws).any (fun x => decide (90 ≤ s.pct d x))
  l.filter (fun x => !s.bankClosed d p sc (bankOf x.addr) && inOrder (s.half d) rs ws x && (!pressed || decide (90 ≤ s.pct d x) || s.rowHit d p sc x))

/-- The oldest request of row 2 of R296. -/
def State.pressing (s : State) (d : DomeId) (p : PortId) (sc : Fin 4) : Option Waiting :=
  oldest ((s.issuable d p sc (s.readsWaiting d p sc ++ s.writesWaiting d p sc)).filter (fun x => decide (90 ≤ s.pct d x)))

/-- A patrol read (R295). -/
def Waiting.scrub (x : Waiting) : Bool := x.cls == .scrub

/-- The next request of rows 3 to 7 of R296; a patrol read counts there only from 50 % of its target on, since row 8 names it (DEDUCED, log entry 130). -/
def State.nextRequest (s : State) (d : DomeId) (p : PortId) (sc : Fin 4) : Option Waiting :=
  let reads := s.issuable d p sc (s.readsWaiting d p sc)
  let writes := s.issuable d p sc (s.writesWaiting d p sc)
  let row3 := oldest (reads.filter (fun x => decide (75 ≤ s.pct d x)))
  let row4 := if s.moor[d].ports[p].subs[sc].batch then oldest writes else none
  let row5 := s.hitsFirst d p sc (reads.filter (fun x => decide (50 ≤ s.pct d x)))
  let row6 := (List.finRange 4).findSome? (fun c => s.hitsFirst d p sc (reads.filter (fun x => (memClassNum x.cls).val == c.val)))
  let row7 := if (s.readsWaiting d p sc).all Waiting.scrub then oldest writes else none
  row3 <|> row4 <|> row5 <|> row6 <|> row7

/-- A write batch starts at HIGH entries or for a write at 75 % or more, and ends at LOW entries (R296). -/
def State.batchNow (s : State) (d : DomeId) (p : PortId) (sc : Fin 4) : Bool :=
  let fill := s.writeFill d p
  let urgent := (s.writesWaiting d p sc).any (fun x => decide (75 ≤ s.urgency d x.cls x.arrival))
  if s.fld (.moorWq d) MOOR_WQ.HIGH ≤ fill ∨ urgent then true
  else if fill ≤ s.fld (.moorWq d) MOOR_WQ.LOW then false
  else s.moor[d].ports[p].subs[sc].batch

/-- An activate triggers a neighbour refresh with probability 2^−k, by the port's LFSR, whose polynomial the spec does not give: its next word is a free value (R304). -/
def State.activated (s : State) (d : DomeId) (p : PortId) (sc : Fin 4) (bank : Fin 16) (row : Nat) : State :=
  if s.isSet (.moorRef d) MOOR_REF.NBR_EN then
    let k := min 12 (max 6 (s.fld (.moorRef d) MOOR_REF.NBR_K))
    let (v, s) := s.fresh
    let s := s.updPort d p (fun x => { x with lfsr := v.setWidth 32 })
    if v.toNat % 2 ^ k = 0 then
      (s.updSub d p sc (fun u => { u with nbr := u.nbr ++ [⟨bank, row, s.clock.now + qUs⟩] })).bump (.mpNbr d p) MP_NBR.COUNT
    else s
  else s

/-- The row of a request is opened where it is not, and left open under the OPEN hint; CLOSE precharges (R297). -/
def State.openRowFor (s : State) (d : DomeId) (p : PortId) (sc : Fin 4) (x : Waiting) (keep : Bool) : State :=
  let b := bankOf x.addr
  let s := if (s.moor[d].ports[p].subs[sc].openRow[b]).isSome ∧ ¬ s.rowHit d p sc x then s.issueCmd d p sc (.precharge b) else s
  let s := if s.rowHit d p sc x then s else (s.issueCmd d p sc (.activate b (rowOf x.addr))).activated d p sc b (rowOf x.addr)
  s.updSub d p sc (fun u => { u with openRow := u.openRow.set b (if keep then some (rowOf x.addr, s.clock.now) else none) })

/-- A request issues. A read is answered. For a write, the old unit on this port is read where the parity engine needs it, else the unit is written: a data unit, a copy, or the parity unit, which
serves every write of a row written whole (R294). -/
def State.issueRequest (s : State) (d : DomeId) (p : PortId) (sc : Fin 4) : Waiting → State
  | .read r =>
    let s := (s.openRowFor d p sc (.read r) r.req.open_).issueCmd d p sc (.read (bankOf r.addr) (columnOf r.addr) r.req.id)
    let s := s.updSub d p sc (fun u => { u with reads := u.reads.filter (· ≠ r) })
    s.answerRead d r.req (s.unitRead d r.req.addr)
  | .write w =>
    match s.positionOf d p with
    | none => s
    | some i =>
      let read := i ∈ s.mustRead d w
      let whole := w.whole || s.rowWhole d w
      let parity := !s.half d && (placeOf false w.req.addr).parity == i
      let b := bankOf w.addr
      let s := (s.openRowFor d p sc (.write w) w.req.open_).issueCmd d p sc (if read then .read b (columnOf w.addr) w.req.id else .write b (columnOf w.addr) w.req.id)
      s.updMoor d (fun m => { m with writes := m.writes.map (fun x =>
        if read then (if x = w then { x with old := x.old ++ [i] } else x)
        else
          let x' := if whole && w.sameRow x then { x with whole := true } else x
          if x = w || (whole && parity && w.sameRow x) then { x' with written := x'.written ++ [i] } else x') })

/-- A neighbour refresh issues: both rows beside the activated one. -/
def State.neighbourNow (s : State) (d : DomeId) (p : PortId) (sc : Fin 4) (n : Neighbour) : State :=
  (s.updSub d p sc (fun u => { u with nbr := u.nbr.filter (· ≠ n), openRow := u.openRow.set n.bank none })).issueCmd d p sc (.neighbour n.bank n.row)

/-- The queues of a Dome hold no request (R313). -/
def State.queuesEmpty (s : State) (d : DomeId) : Bool :=
  s.moor[d].writes.isEmpty && (List.finRange 5).all (fun p => (List.finRange 4).all (fun sc => s.moor[d].ports[p].subs[sc].reads.isEmpty))

/-- The ports of a Dome that take part in the set or stand by. -/
def State.portsInUse (s : State) (d : DomeId) : List PortId := (List.finRange 5).filter (fun p => s.role d p != 2 && s.role d p != 3)

/-- The commit point of a self-refresh entry: every port in use is in self-refresh, with nothing owed (R312, R313). -/
def State.srEnter (s : State) (d : DomeId) (cause : SrCause) : State :=
  let s := (s.portsInUse d).foldl (fun s p =>
    let s := (s.raise (.mpState d p) MP_STATE.IN_SR).wr (.mpOwed d p) 0
    (List.finRange 4).foldl (fun s sc => s.updSub d p sc (fun u => { u with openRow := Vector.replicate 16 none, urgent := 0, steps := 0 })) s) s
  let s := (s.updMoor d (fun m => { m with sr := some cause })).setFld (.moorSr d) MOOR_SR.STATE (match cause with | .freq => 4 | _ => 2)
  s.setEvent d 12 (match cause with | .laidUp => 0 | .freq => 1 | .idle => 2)

/-- Self-refresh ends: MP4 stays in it while it is the spare; owed counts start at 0 (R290, R312, R313). -/
def State.srLeave (s : State) (d : DomeId) : State :=
  let s := (s.portsInUse d).foldl (fun s p => if s.role d p = 1 then s else (s.setFld (.mpState d p) MP_STATE.IN_SR 0).wr (.mpOwed d p) 0) s
  let s := (s.updMoor d (fun m => { m with sr := none, lastReq := s.clock.now })).setFld (.moorSr d) MOOR_SR.STATE 0
  s.setEvent d 13 0

/-- Row 8 of R296: a refresh owed, per bank, or as an all-bank refresh while a self-refresh entry drains (R313); then the older of the next neighbour refresh and the next patrol read. With
nothing left to do, an entry whose queues are empty reaches its commit point (R313). -/
def State.lastRow (s : State) (d : DomeId) (p : PortId) (sc : Fin 4) : State :=
  let draining := s.fld (.moorSr d) MOOR_SR.STATE = 1
  if 0 < s.owed d p sc then
    if draining then (s.setOwed d p sc (s.owed d p sc - 1)).refreshAll d p sc else s.refreshBank d p sc
  else match s.moor[d].ports[p].subs[sc].nbr.head?, oldest (s.issuable d p sc ((s.readsWaiting d p sc).filter Waiting.scrub)) with
    | some n, some x => if n.due ≤ x.arrival + qUs then s.neighbourNow d p sc n else s.issueRequest d p sc x
    | some n, none => s.neighbourNow d p sc n
    | none, some x => s.issueRequest d p sc x
    | none, none => if draining ∧ s.queuesEmpty d then s.srEnter d .idle else s

/-- A sub-channel issues its next command in the order of R296; an idle entry whose queues are empty reaches its commit point (R313). -/
def State.commandIssue (s : State) (d : DomeId) (p : PortId) (sc : Fin 4) : State :=
  if s.clockHolds d ∨ s.isSet (.mpState d p) MP_STATE.IN_SR ∨ s.role d p = 2 ∨ s.role d p = 3 then s
  else
    let u := s.moor[d].ports[p].subs[sc]
    let s := s.updSub d p sc (fun u => { u with batch := s.batchNow d p sc })
    if 0 < u.urgent then (s.updSub d p sc (fun u => { u with urgent := u.urgent - 1 })).refreshAll d p sc
    else match s.pressing d p sc, u.nbr.find? (fun n => decide (n.due ≤ s.clock.now)) with
      | some x, some n => if n.due ≤ x.arrival + qUs then s.neighbourNow d p sc n else s.issueRequest d p sc x
      | some x, none => s.issueRequest d p sc x
      | none, some n => s.neighbourNow d p sc n
      | none, none => match s.nextRequest d p sc with
        | some x => s.issueRequest d p sc x
        | none => s.lastRow d p sc

/-- A write is done when every unit it changes is written: the data space holds it, and a unit written in full is no longer poisoned (R294, R310). -/
def State.writeDone (s : State) (d : DomeId) (id : Nat) : State :=
  match s.moor[d].writes.find? (fun w => w.req.id == id && (s.mustWrite d w).isEmpty) with
  | none => s
  | some w =>
    let a := w.req.addr / 64 * 64
    s.pipesNow.updMoor d (fun m =>
      { m with writes := m.writes.filter (· ≠ w), poison := m.poison.filter (· ≠ a)
               data := match w.req.write with | some v => Memory.write m.data a v.toList | none => m.data })

/-- Bytes written to the data space as one DMA; what is played already has passed the pipelines: whole units are no longer poisoned (R294, R310, R338). -/
def State.dataWrite (s : State) (d : DomeId) (a : Nat) (bs : List Byte) : State :=
  s.pipesNow.updMoor d (fun m =>
    { m with
      data := Memory.write m.data a bs
      lastReq := s.clock.now
      poison := m.poison.filter (fun u => !(decide (a ≤ u) && decide (u + 64 ≤ a + bs.length))) })

/-! ### Scrub, errors and retirement (R305 to R310) -/

/-- A scrub read: a mismatch with no component report is counted and published with its stripe; the last stripe ends a pass (R305). -/
def State.scrubRead (s : State) (d : DomeId) (stripe : Nat) (mismatch : Bool) : State :=
  if s.fld (.moorScrub d) MOOR_SCRUB.DUTY = 0 then s
  else
    let s := if mismatch then ((s.bump (.moorScrubMismatch d) MOOR_SCRUB_MISMATCH.COUNT).raise (.moorStatus d) MOOR_STATUS.SCRUB_MISMATCH).setEvent d 10 stripe else s
    if stripe + 1 = s.stripes d then s.setFld (.moorScrub d) MOOR_SCRUB.PASSES (s.fld (.moorScrub d) MOOR_SCRUB.PASSES + 1) else s

/-- MP4 stands by as the spare, not used yet. -/
def State.spareFree (s : State) (d : DomeId) : Bool := s.role d 4 == 1 && !s.isSet (.moorMap d) MOOR_MAP.SPARE_USED

/-- A retired port: its role, the event, the ledger (R308, R404). -/
def State.markRetired (s : State) (d : DomeId) (p : PortId) : State :=
  let s := ((s.setRole d p 2).raise (.moorStatus d) MOOR_STATUS.RETIRED).portEvent d p 4 0 p.val
  s.logLedger 3 (2 + d.val) p.val 0

/-- The domains of the retired ports are held OFF from now on, each recorded once (R25, R308). -/
def State.retireGone (s : State) (d : DomeId) : State :=
  ((List.finRange 5).filter (fun p => s.role d p == 2 && s.domains[domPort d p] != .retired)).foldl (fun s p => s.retireDom (domPort d p)) s

/-- A port is retired (R308, R311): its position is lost and MP4 retrains for it; a second loss leaves the set FAILED, a loss with no spare UNPROTECTED, and their
domains are held OFF, since no migration will end. The spare itself is only marked used. -/
def State.retirePort (s : State) (d : DomeId) (p : PortId) : State :=
  if s.role d p = 2 ∨ s.role d p = 3 then s
  else
    let pos := s.positionOf d p
    let wasSpare := s.role d p == 1
    let free := s.spareFree d
    let s := s.markRetired d p
    if wasSpare then (s.raise (.moorMap d) MOOR_MAP.SPARE_USED).retireGone d
    else
      let other := s.moor[d].lost.filter (fun i => some i ≠ pos)
      let s := s.updMoor d (fun m => { m with lost := match pos with | some i => if i ∈ m.lost then m.lost else m.lost ++ [i] | none => m.lost })
      let s := s.setFld (.moorMig d) MOOR_MIG.BUSY 0
      let s :=
        if other ≠ [] then (s.toSetState d 4).retireGone d
        else if free then ((s.toSetState d 1).updMoor d (fun m => { m with retrain := true })).raise (.moorMap d) MOOR_MAP.SPARE_USED
        else (s.toSetState d 3).retireGone d
      s.enterForm 6

/-- A command-address parity alert (R306): the commands from the oldest it covers are issued again; a fourth alert for one command retires the port. -/
def State.parityAlert (s : State) (d : DomeId) (p : PortId) (oldest : Nat) : State :=
  match s.moor[d].ports[p].retry.find? (fun c => c.seq == oldest) with
  | none => s
  | some c =>
    let s := s.bump (.mpCapar d p) MP_CAPAR.COUNT
    if 3 ≤ c.alerts then s.retirePort d p
    else
      let s := (s.updPort d p (fun x => { x with retry := x.retry.map (fun y => if y.seq = oldest then { y with alerts := y.alerts + 1 } else y) })).reissue d p oldest
      (s.raise (.mpStatus d p) MP_STATUS.CAPAR).portEvent d p 1 c.sc.val (c.alerts + 1)

/-- A transfer of a unit fails its data error detection (R307): tried again up to three times; uncorrectable, the unit is rebuilt from the other positions, or poisoned where a unit of its row is
lost already, and the port retires. -/
def State.detectionFails (s : State) (d : DomeId) (p : PortId) (a : Nat) (uncorrectable : Bool) : State :=
  if s.role d p = 2 ∨ s.role d p = 3 then s
  else
    let u := a / 64 * 64
    let tried := (s.moor[d].ports[p].retries.lookup u).getD 0
    let w := placeOf (s.half d) u
    if uncorrectable ∨ 3 ≤ tried then
      let s := s.updPort d p (fun x => { x with retries := x.retries.filter (fun r => r.1 ≠ u) })
      let s := ((s.bump (.mpUncorr d p) MP_UNCORR.COUNT).raise (.mpStatus d p) MP_STATUS.UNCORR).portEvent d p 3 (subOf w.port).val w.stripe
      let s := if (s.positions d).all (fun i => s.portAt d i == some p || s.servesStripe d i w.stripe) then s else (s.updMoor d (fun m => { m with poison := if u ∈ m.poison then m.poison else m.poison ++ [u] })).poisonRead d w.stripe
      s.retirePort d p
    else
      let s := s.updPort d p (fun x => { x with retries := (u, tried + 1) :: x.retries.filter (fun r => r.1 ≠ u) })
      ((s.bump (.mpEdc d p) MP_EDC.COUNT).raise (.mpStatus d p) MP_STATUS.EDC).portEvent d p 2 (subOf w.port).val (tried + 1)

/-! ### Migration (R308, R309) -/

/-- Migration starts from stripe 0. -/
def State.migrationStart (s : State) (d : DomeId) : State :=
  (((s.toSetState d 2).raise (.moorMig d) MOOR_MIG.BUSY).setFld (.moorMigWm d) MOOR_MIG_WM.W 0).setEvent d 5 0

/-- A write of 1 to START in DEGRADED, once MP4 holds the position. -/
def State.migrationAsked (s : State) (d : DomeId) : State := if s.setState d = 1 ∧ ¬ s.moor[d].retrain then s.migrationStart d else s

/-- MP4 has retrained: it takes the lost position, and migration starts if AUTO is set; where it fails, the set is UNPROTECTED and the fault is recorded. -/
def State.spareRetrained (s : State) (d : DomeId) (ok : Bool) : State :=
  if ¬ s.moor[d].retrain then s
  else
    let s := s.updMoor d (fun m => { m with retrain := false })
    if ok then
      match s.moor[d].lost with
      | i :: _ =>
        let s := ((s.setFld (.moorMap d) (mapField i) 4).setRole d 4 4).setFld (.mpState d 4) MP_STATE.IN_SR 0
        let s := s.logLedger 4 (2 + d.val) i.val 4
        if s.isSet (.moorMig d) MOOR_MIG.AUTO then s.migrationStart d else s
      | [] => s
    else
      let s := (((s.raise (.mpStatus d 4) MP_STATUS.TRAIN_FAIL).portEvent d 4 15 0 0).markRetired d 4).retireGone d
      if s.setState d = 4 then s else s.toSetState d 3

/-- One stripe row is rebuilt onto MP4; at the last one the set is PROTECTED again and the retired port's domain is OFF (R308, R309). -/
def State.stripeMigrated (s : State) (d : DomeId) : State :=
  if s.setState d ≠ 2 then s
  else
    let w := s.watermark d + 1
    let s := s.setFld (.moorMigWm d) MOOR_MIG_WM.W w
    if w < s.stripes d then s
    else
      let s := (((s.toSetState d 0).setFld (.moorMig d) MOOR_MIG.BUSY 0).raise (.moorStatus d) MOOR_STATUS.MIG_DONE).setRole d 4 0
      let s := s.updMoor d (fun m => { m with lost := [] })
      (s.retireGone d).setEvent d 6 0

/-! ### Self-refresh and frequency change (R312 to R314) -/

/-- No channel that reads from the Dome is PRIMING, PLAYING or in FAULT (R312): channels with an entry homed there or mirrored. -/
def State.domeQuiet (s : State) (d : DomeId) : Bool :=
  (List.finRange 16).all (fun c =>
    match s.chans[c].st with
    | .priming | .playing | .fault =>
      !(s.chans[c].slots[s.chans[c].activeSlot].entries.any (fun e =>
        let h := bitsOf e.2.w0.toNat 49 2
        h == d.val || h == 2 || h == 3))
    | _ => true)

/-- Idle self-refresh entry starts (R312, R313). -/
def State.idleEntry (s : State) (d : DomeId) : State :=
  let idle := max 1 (s.fld (.moorSr d) MOOR_SR.IDLE_US) * qUs
  if s.pwr = 2 ∧ s.isSet (.moorSr d) MOOR_SR.IDLE_EN ∧ s.fld (.moorSr d) MOOR_SR.STATE = 0 ∧ s.moor[d].lastReq + idle ≤ s.clock.now ∧ s.domeQuiet d then
    (s.setFld (.moorSr d) MOOR_SR.STATE 1).updMoor d (fun m => { m with sr := some .idle })
  else s

/-- A host or wake request ends self-refresh (R313). -/
def State.selfRefreshExit (s : State) (d : DomeId) : State := if s.fld (.moorSr d) MOOR_SR.STATE = 2 then s.srLeave d else s

/-- A divider is trained: it lies in 4 to 9 and its bit of TRAIN_MASK is set, or it is the boot divider (R289, R314). -/
def State.divTrained (s : State) (d : DomeId) (div : Nat) : Bool :=
  decide (4 ≤ div ∧ div ≤ 9) && bitOf (s.fld (.moorCfg d) MOOR_CFG.TRAIN_MASK ||| s.moor[d].trained.toNat) (div - 4)

/-- A write of GO: the change starts, or is refused as UNTRAINED or BUSY (R314). -/
def State.freqStart (s : State) (d : DomeId) (div : Nat) : State :=
  if ¬ s.divTrained d div then s.setFld (.moorFreq d) MOOR_FREQ.RESULT 3
  else if ¬ s.domeQuiet d ∨ s.fld (.moorSr d) MOOR_SR.STATE ≠ 0 then s.setFld (.moorFreq d) MOOR_FREQ.RESULT 2
  else
    let s := (s.raise (.moorFreq d) MOOR_FREQ.BUSY).setFld (.moorFreq d) MOOR_FREQ.RESULT 0
    (s.updMoor d (fun m => { m with target := div })).srEnter d .freq

/-- The MCLK output of a Dome (R199). -/
def mclkOut (d : DomeId) : Fin 12 := ⟨4 + d.val, by omega⟩

/-- A Meridian output's divider is set, in force and staged, in both Meridians (R200, R314). -/
def State.setDivider (s : State) (k : Fin 12) (div : Nat) : State :=
  (List.finRange 2).foldl (fun s m => (s.setFld (.merOut m k) MER_OUTk.DIV div).updMer m (fun x => { x with staged := { x.staged with div := x.staged.div.set k div } })) s

/-- The frequency change completes (R314). -/
def State.freqDone (s : State) (d : DomeId) : State :=
  if s.isSet (.moorFreq d) MOOR_FREQ.BUSY then
    let div := s.moor[d].target
    let s := ((s.setDivider (mclkOut d) div).setFld (.moorCfg d) MOOR_CFG.DIV div).setFld (.moorCfg d) MOOR_CFG.TIMING_SET (1 - s.fld (.moorCfg d) MOOR_CFG.TIMING_SET)
    let s := ((s.setFld (.moorFreq d) MOOR_FREQ.BUSY 0).setFld (.moorFreq d) MOOR_FREQ.RESULT 1).srLeave d
    s.setEvent d 14 div
  else s

/-- An open row without a hit for 2 µs is closed (R297). -/
def State.rowTimeout (s : State) (d : DomeId) (p : PortId) (sc : Fin 4) (b : Fin 16) : State :=
  match s.moor[d].ports[p].subs[sc].openRow[b] with
  | some (_, hit) =>
    if hit + 2 * qUs ≤ s.clock.now then (s.updSub d p sc (fun u => { u with openRow := u.openRow.set b none })).issueCmd d p sc (.precharge b) else s
  | none => s

/-! ### The meanings -/

def execMemRequestArrive (d : DomeId) (req : MemReq) (s : State) : Host.Outcome State Fault Refusal := s.act [Die.ofDome d] (·.memArrive d req)
def execMemCommandIssue (d : DomeId) (p : PortId) (sc : Fin 4) (s : State) : Host.Outcome State Fault Refusal := s.act [Die.ofDome d] (·.commandIssue d p sc)
def execWriteDone (d : DomeId) (id : Nat) (s : State) : Host.Outcome State Fault Refusal := s.act [Die.ofDome d] (·.writeDone d id)
def execRefreshInterval (d : DomeId) (p : PortId) (sc : Fin 4) (s : State) : Host.Outcome State Fault Refusal :=
  s.act [Die.ofDome d] (fun s => if s.isSet (.mpState d p) MP_STATE.IN_SR ∨ s.role d p = 2 ∨ s.role d p = 3 then s else s.refreshDue d p sc)
def execTempRead (d : DomeId) (p : PortId) (celsius : BitVec 8) (above : Bool) (s : State) : Host.Outcome State Fault Refusal :=
  s.act [Die.ofDome d] (·.temperature d p celsius above)
/-- Reseeded from the true random source: a free value (R304). -/
def execNbrLfsrReseed (d : DomeId) (p : PortId) (s : State) : Host.Outcome State Fault Refusal :=
  s.act [Die.ofDome d] (fun s => let (v, s) := s.fresh; s.updPort d p (fun x => { x with lfsr := v.setWidth 32 }))
def execScrubReadDone (d : DomeId) (stripe : Nat) (mismatch : Bool) (s : State) : Host.Outcome State Fault Refusal := s.act [Die.ofDome d] (·.scrubRead d stripe mismatch)
def execCaparAlert (d : DomeId) (p : PortId) (oldest : Nat) (s : State) : Host.Outcome State Fault Refusal := s.act [Die.ofDome d] (·.parityAlert d p oldest)
def execEdcFail (d : DomeId) (p : PortId) (addr : Nat) (uncorrectable : Bool) (s : State) : Host.Outcome State Fault Refusal :=
  s.act [Die.ofDome d] (·.detectionFails d p addr uncorrectable)
def execSpareRetrainDone (d : DomeId) (ok : Bool) (s : State) : Host.Outcome State Fault Refusal := s.act [Die.ofDome d] (·.spareRetrained d ok)
def execMigrationStripeDone (d : DomeId) (s : State) : Host.Outcome State Fault Refusal := s.act [Die.ofDome d] (·.stripeMigrated d)
def execSrIdleTimeout (d : DomeId) (s : State) : Host.Outcome State Fault Refusal := s.act [Die.ofDome d] (·.idleEntry d)
def execSrExit (d : DomeId) (s : State) : Host.Outcome State Fault Refusal := s.act [Die.ofDome d] (·.selfRefreshExit d)
def execFreqChangeDone (d : DomeId) (s : State) : Host.Outcome State Fault Refusal := s.act [Die.ofDome d] (·.freqDone d)
def execOpenRowTimeout (d : DomeId) (p : PortId) (sc : Fin 4) (bank : Fin 16) (s : State) : Host.Outcome State Fault Refusal := s.act [Die.ofDome d] (·.rowTimeout d p sc bank)

end Sys2Proof.Machine
end

