-- ==== Sys2Proof/Machine/Streams.lean ====
section
/-! DEFINITION. Tender streams: attach and detach, blocks from the host ring to the region, watermarks, under-runs and re-entry (spec 05_tender_streams.md R131 to R157). -/
namespace Sys2Proof.Machine
open Sys2Proof

/-! ### Registers of a stream (R133, R135, R144) -/

/-- A watermark: 0 encodes 65,536. -/
def markOf (n : Nat) : Nat := if n = 0 then 65536 else n
/-- Host address of block `i` (R133): the reserved values 0, 1 and 17 to 31 of RING_LOG2 act as a ring of 2^n blocks (DESIGN CHOICE, log entry 119). -/
def State.blockAddr (s : State) (st : StreamId) (i : Nat) : Nat :=
  s.fld (.tndRingLo st) TND_RING_LO.BASE_LO * 4096 + s.fld (.tndRingHi st) TND_RING_HI.BASE_HI * 2 ^ 32 + i % 2 ^ (s.fld (.tndRingLo st) TND_RING_LO.RING_LOG2) * 65536
/-- Host address of the consumer index. -/
def State.consAddr (s : State) (st : StreamId) : Nat := s.fld (.tndConsLo st) TND_CONS_LO.ADDR_LO * 8 + s.fld (.tndConsHi st) TND_CONS_HI.ADDR_HI * 2 ^ 32
/-- The fill: landed blocks not yet consumed. -/
def Stream.fill (x : Stream) : Nat := x.landed.length
/-- TND_STATE.STATE. -/
def StreamState.code : StreamState → Nat
  | .detached => 0 | .filling => 1 | .flowing => 2 | .underrun => 3 | .drained => 4 | .lost => 5

/-! ### Events (R144) -/

/-- A stream event: [3:0] the stream, [7:4] the code, [31:8] the detail. -/
def State.streamEvent (s : State) (st : StreamId) (e : StreamEvent) (detail : Nat) : State :=
  s.publish (.stream st e) (st.val + e.index * 2 ^ 4 + detail % 2 ^ 24 * 2 ^ 8)

/-- What the fill has crossed since it stood at `fill` against the watermarks `low` and `high`: FILLED, LOW and HIGH, and their re-arming. -/
def State.streamMarks (s : State) (st : StreamId) (fill low high : Nat) : State :=
  let now := s.streams[st].fill
  let low' := markOf (s.fld (.tndWmA st) TND_WM_A.LOW)
  let high' := markOf (s.fld (.tndWmB st) TND_WM_B.HIGH)
  let resume := markOf (s.fld (.tndWmB st) TND_WM_B.RESUME)
  let s := if s.streams[st].st = .filling ∧ markOf (s.fld (.tndWmA st) TND_WM_A.FILL) ≤ now then
      (s.updStream st (fun x => { x with st := .flowing })).streamEvent st .filled now
    else s
  let s := if s.streams[st].lowArmed ∧ low ≤ fill ∧ now < low' then
      ((s.updStream st (fun x => { x with lowArmed := false })).raise (.tndStatus st) TND_STATUS.LOW).streamEvent st .low now
    else s
  let s := if s.streams[st].highArmed ∧ fill < high ∧ high' ≤ now then
      ((s.updStream st (fun x => { x with highArmed := false })).raise (.tndStatus st) TND_STATUS.HIGH).streamEvent st .high now
    else s
  s.updStream st (fun x => { x with lowArmed := x.lowArmed || decide (resume ≤ now), highArmed := x.highArmed || decide (now < resume) })

/-- The events of a change of the fill alone. -/
def State.fillChanged (s : State) (st : StreamId) (before : Nat) : State :=
  s.streamMarks st before (markOf (s.fld (.tndWmA st) TND_WM_A.LOW)) (markOf (s.fld (.tndWmB st) TND_WM_B.HIGH))

/-! ### Attach and detach (R135, R143, R144, R157) -/

/-- The watermarks satisfy R144. -/
def marksOk (slots a b : Nat) : Bool :=
  let fill := markOf (bitsOf a 0 16)
  let low := markOf (bitsOf a 16 16)
  let resume := markOf (bitsOf b 0 16)
  let high := markOf (bitsOf b 16 16)
  decide (low < resume ∧ resume ≤ high ∧ high ≤ slots ∧ fill ≤ high)

/-- The region lies in the data space of its home and overlaps no other stream's (R135). -/
def State.regionOk (s : State) (st : StreamId) (region : Nat) : Bool :=
  let k := bitsOf region 16 5
  let base := bitsOf region 0 14 * 2 ^ 20
  decide (20 ≤ k ∧ k ≤ 32 ∧ base + 2 ^ k ≤ s.dataBytes (domeOfStream st))
  && (List.finRange 16).all (fun o => o == st || domeOfStream o != domeOfStream st || !s.attached o
      || decide (s.regionBase o + s.regionSize o ≤ base ∨ base + 2 ^ k ≤ s.regionBase o))

/-- The reason an attach with these values is refused. -/
def State.attachRefused (s : State) (st : StreamId) (ctrl region wmA wmB : Nat) : Option Nat :=
  if bitsOf ctrl 2 2 = 3 then some Reason.badField
  else if ¬ s.regionOk st region then some Reason.tenderRegion
  else if ¬ marksOk (2 ^ bitsOf region 16 5 / 65536) wmA wmB then some Reason.tenderWm
  else none

/-- The stream attaches with the values in its registers: FILLING, at position 0, nothing pulled (R140, R143). -/
def State.attachStream (s : State) (st : StreamId) (f : Func) : State :=
  (s.raise (.tndCtrl st) TND_CTRL.ATTACH).updStream st (fun _ => { Stream.reset with st := .filling, owner := f })

/-- Detach is refused while the bound channel is PRIMING, PLAYING or in FAULT (R143). -/
def State.detachRefused (s : State) (st : StreamId) : Bool := s.chans[s.chanOf st].st.busy

/-- The stream detaches (R143): region and staging places are released and the region's contents lost; they read as memory that nothing has written. TND_POS, TND_LANDED and TND_FILL of a DETACHED stream
read 0 (DESIGN CHOICE, log entry 120). -/
def State.detachStream (s : State) (st : StreamId) : State :=
  let lo := s.regionBase st
  let hi := lo + s.regionSize st
  let s := s.updMoor (domeOfStream st) (fun m => { m with data := m.data.filter (fun c => decide (c.1 < lo ∨ hi ≤ c.1)) })
  (s.setFld (.tndCtrl st) TND_CTRL.ATTACH 0).updStream st (fun _ => Stream.reset)

/-- A write of TND_CTRL.ATTACH (R143, R157): 1 on a detached stream attaches it, or is refused with its reason; 0 on an attached one detaches it, unless its channel is busy. -/
def State.writeAttach (s : State) (st : StreamId) (on : Bool) (f : Func) : State :=
  if on then
    if s.attached st then s
    else match s.attachRefused st (s.rd (.tndCtrl st)).toNat (s.rd (.tndRegion st)).toNat (s.rd (.tndWmA st)).toNat (s.rd (.tndWmB st)).toNat with
      | some reason => (s.raise (.tndStatus st) TND_STATUS.ATTACH_REFUSED).setFld (.tndStatus st) TND_STATUS.REASON reason
      | none => s.attachStream st f
  else if s.attached st ∧ ¬ s.detachRefused st then s.detachStream st
  else s

/-- A write of TND_LIMIT (R152): refused below the number of blocks already pulled; 0, which is unbounded, is accepted always (DESIGN CHOICE, log entry 121). -/
def State.writeLimit (s : State) (st : StreamId) (v : Word) : State :=
  if s.attached st ∧ v ≠ 0 ∧ v.toNat < s.streams[st].drawn then
    (s.raise (.tndStatus st) TND_STATUS.LIMIT_REFUSED).setFld (.tndStatus st) TND_STATUS.REASON Reason.tenderLimit
  else s.wr (.tndLimit st) v

/-- A write of a watermark register (R144, R157): on an attached stream FILL keeps its value, and the write is ignored where the watermarks would break R144. A write that moves LOW above, or HIGH below,
the fill as it stands publishes as the fill's own crossing would (DESIGN CHOICE, log entry 122). -/
def State.writeMarks (s : State) (st : StreamId) (second : Bool) (v : Word) : State :=
  let a := s.rd (.tndWmA st)
  let b := s.rd (.tndWmB st)
  let a' := if second then a else if s.attached st then TND_WM_A.FILL.put v (s.fld (.tndWmA st) TND_WM_A.FILL) else v
  let b' := if second then v else b
  if s.attached st then
    if marksOk (s.slotsOf st) a'.toNat b'.toNat then
      let low := markOf (s.fld (.tndWmA st) TND_WM_A.LOW)
      let high := markOf (s.fld (.tndWmB st) TND_WM_B.HIGH)
      ((s.wr (.tndWmA st) a').wr (.tndWmB st) b').streamMarks st s.streams[st].fill low high
    else s.raise (.tndStatus st) TND_STATUS.WM_REFUSED
  else (s.wr (.tndWmA st) a').wr (.tndWmB st) b'

/-! ### Blocks (R136 to R139, R155) -/

/-- A Dome whose link carries a stream's host traffic: its home Dome, or the other one while the home's link is down and the Domes are joined (R155). -/
def State.streamLink (s : State) (st : StreamId) : Option DomeId :=
  let d := domeOfStream st
  if s.linkUp d then some d
  else if s.linkUp (twin d) ∧ ¬ s.links[(8 : LinkId)].lost then some (twin d)
  else none

/-- Block `pulled` can be pulled: written by the host, within TND_LIMIT, its slot and a staging place free (R137). -/
def State.canPull (s : State) (st : StreamId) : Bool :=
  let x := s.streams[st]
  let limit := s.fld (.tndLimit st) TND_LIMIT.BLOCKS
  s.attached st && x.st != .lost && (s.streamLink st).isSome && x.pulled != x.prod && decide (indexGap x.pulled x.prod ≤ 2 ^ 63)
  && (limit == 0 || decide (x.pulled < limit)) && decide (x.pulled < x.consumed + s.slotsOf st ∧ x.staged.length < 16)

/-- Blocks are pulled in index order as long as they can be. -/
def State.pullBlocks (st : StreamId) : Nat → State → State
  | 0, s => s
  | n + 1, s => if s.canPull st then State.pullBlocks st n (s.updStream st (fun x => { x with staged := x.staged ++ [x.pulled], pulled := x.pulled + 1, drawn := x.drawn + 1 })) else s

/-- The consumer index is written to host memory at each change (R138); one that changes while no link can carry it is written at the next change that one can (DESIGN CHOICE, log entry 123). -/
def State.writeConsumer (s : State) (st : StreamId) : State :=
  if (s.streamLink st).isSome then s.hostWrite (s.consAddr st) (toBytes 8 s.streams[st].consumed) else s

/-- The next block is consumed where P has passed its last granule and it is not being pulled: counted in TND_DISCARDED where it landed and no granule of it was played; a block not yet pulled is
consumed unread (R138, R139). -/
def State.consumeNext (s : State) (st : StreamId) : Option State :=
  let x := s.streams[st]
  let b := x.consumed
  if s.attached st ∧ (b + 1) * s.gbOf st ≤ s.streamPos st ∧ b ∉ x.staged then
    let s := if b ∈ x.landed ∧ b ∉ x.played then s.bump (.tndDiscarded st) TND_DISCARDED.BLOCKS else s
    let s := s.updStream st (fun x =>
      { x with consumed := b + 1, pulled := max x.pulled (b + 1), landed := x.landed.filter (· ≠ b), late := x.late.filter (· ≠ b), played := x.played.filter (· ≠ b) })
    some (((s.fillChanged st x.fill).writeConsumer st))
  else none

def State.consumeAll (st : StreamId) : Nat → State → State
  | 0, s => s
  | n + 1, s => match s.consumeNext st with
    | some s => State.consumeAll st n s
    | none => s

/-- P passes a block: it is consumed, and its slot is free for another (R137, R138). -/
def State.blockConsumed (s : State) (st : StreamId) : State :=
  match s.consumeNext st with
  | some s => State.pullBlocks st 16 s
  | none => s

/-- A block lands in its slot (R137): BLOCK is published with BLOCK_EV, the fill rises, and a block already passed is consumed at once. One whose first granule is passed is never played from (R139). -/
def State.blockLanded (s : State) (st : StreamId) (i : Nat) : State :=
  if i ∉ s.streams[st].staged then s
  else
    let fill := s.streams[st].fill
    let s := s.dataWrite (domeOfStream st) (s.regionBase st + i % max 1 (s.slotsOf st) * 65536) (s.hostRead (s.blockAddr st i) 65536)
    let late := decide (i * s.gbOf st < s.streamPos st)
    let s := s.updStream st (fun x => { x with staged := x.staged.filter (· ≠ i), landed := x.landed ++ [i], late := if late then x.late ++ [i] else x.late, total := x.total + 1 })
    let s := if s.isSet (.tndCtrl st) TND_CTRL.BLOCK_EV then s.streamEvent st .block i else s
    let s := s.fillChanged st fill
    State.pullBlocks st 16 (State.consumeAll st (s.streams[st].fill + 17) s)

/-! ### Where a stream granule falls on the walk (R142, R145) -/

/-- The sample at which the walk plays the `k`th granule of a stream from sample `from_` of the iteration at `w` on, which began at `start`; looking no further than sample `upto`. It goes over to the target
of a pending jump and to a committed swap where they fall due (R145). -/
def State.streamWalk (s : State) (c : ChanId) (st : StreamId) (upto : Nat) :
    Nat → Table → WalkPos → Nat → Nat → Nat → Option PendingJump → Option PendingSwap → Option Nat
  | 0, _, _, _, _, _, _, _ => none
  | fuel + 1, t, w, start, from_, k, pend, swap =>
    if upto < from_ then none
    else
      let e := t.entry w.entry
      let whole := start + 32 * e.lenG
      let inside : Bool := match pend with | some j => !j.atBoundary && decide (from_ ≤ j.take ∧ j.take < whole) | none => false
      let stop := match pend with | some j => if inside then j.take else whole | none => whole
      let n := (stop - from_) / 32
      let here := entryStream e == some st
      if here ∧ k < n then some (from_ + 32 * k)
      else
        let k := if here then k - n else k
        let leaps : Bool := match pend with | some j => inside || s.pendDue c j stop | none => false
        let swaps : Bool := !inside && (match swap with | some x => swapDueAt t w x stop | none => false)
        match swap, swaps, pend, leaps with
        | some x, true, _, _ => (enterAt (s.staged c) x.entry []).bind (fun w' => s.streamWalk c st upto fuel (s.staged c) w' stop stop k none none)
        | _, _, some j, true => (enterAt t j.target w.frames).bind (fun w' => s.streamWalk c st upto fuel t w' stop stop k none swap)
        | _, _, _, _ => (pathStep t w).bind (fun w' => s.streamWalk c st upto fuel t w' stop stop k pend swap)

/-- The sample of the channel's count at which the walk plays stream granule `g`, at most `limit` granules from the play position on: of a channel that plays, or primes for a start (R142, R145). -/
def State.streamDue (s : State) (st : StreamId) (g limit : Nat) : Option Nat :=
  let c := s.chanOf st
  let x := s.chans[c]
  if ¬ (x.st = .playing ∨ x.st = .priming) ∨ g < s.streamPos st then none
  else
    let start := x.iterStart + s.pauseShift c
    let from_ := start + (s.playPos c - start) / 32 * 32
    s.streamWalk c st (from_ + 32 * limit) 4096 (s.table c) (s.walkPos c) start from_ (g - s.streamPos st) x.pend x.swap

/-- Granules from now to the granule of sample `p` of a channel: of one that primes, from its start instant on; none where that is not set. -/
def State.granulesTo (s : State) (c : ChanId) (p : Nat) : Option Nat :=
  let n := p / 32 - s.playGran c
  if s.chans[c].st = .priming then s.chans[c].startAt.map (fun g => n + (g - s.granC c)) else some n

/-- The first granule from `g` on that is not to be played from the region, looking no further than 4,096 granules: its block has not landed, or landed late (R139). -/
def State.firstMissing (s : State) (st : StreamId) (g : Nat) : Nat :=
  let gb := max 1 (s.gbOf st)
  let x := s.streams[st]
  match (List.range (4096 / gb + 2)).find? (fun i => decide (g / gb + i ∉ x.landed) || x.late.contains (g / gb + i)) with
  | some i => max g ((g / gb + i) * gb)
  | none => g + 4096

/-- The lead that landed stream granules allow (R142): up to the first granule of a bound stream that has not landed. -/
def State.landedLead (s : State) (c : ChanId) : Nat :=
  (List.finRange 16).foldl (fun n st =>
    if s.attached st ∧ s.chanOf st = c then
      match s.streamDue st (s.firstMissing st (s.streamPos st)) 4096 with
      | some p => min n (p / 32 - s.playGran c)
      | none => n
    else n) 4096

/-! ### Under-runs (R145 to R151) -/

/-- An under-run is declared where the first missing granule of a flowing stream is due within 48 gc (R145, R149); under KEEP_POSITION the walk holds from it (R151). -/
def State.underrun (s : State) (st : StreamId) : State :=
  let c := s.chanOf st
  let m := s.firstMissing st (s.streamPos st)
  let limit := s.fld (.tndLimit st) TND_LIMIT.BLOCKS
  if s.streams[st].st ≠ .flowing ∨ (limit ≠ 0 ∧ limit * s.gbOf st ≤ m) then s
  else match (s.streamDue st m 48).bind (fun p => (s.granulesTo c p).map (fun n => (p, n))) with
    | none => s
    | some (due, n) =>
      if 48 < n then s
      else
      let s := if s.chans[c].st = .playing ∧ entryStream (s.entryOf c) = some st then s.streamSync st (s.playPos c) else s
      let s := s.updStream st (fun x => { x with st := .underrun, missing := m, resumeAt := none, tested := m / max 1 (s.gbOf st) })
      let s := (s.bump (.tndUnderruns st) TND_UNDERRUNS.COUNT).wr (.tndGapLast st) 0
      let s := if s.keepsPosition st then s.pauseBegins c due else s
      (s.raise (.tndStatus st) TND_STATUS.UNDERRUN).streamEvent st .underrun m

/-- Blocks `k` to `k + RESUME − 1` have all landed. -/
def State.resumeReady (s : State) (st : StreamId) (k : Nat) : Bool :=
  (List.range (markOf (s.fld (.tndWmB st) TND_WM_B.RESUME))).all (fun i => decide (k + i ∈ s.streams[st].landed))

/-- The test of R150 for the next candidate K, in the granule K Gb − 48 of the walk. -/
def State.resumeTest (s : State) (st : StreamId) : State :=
  let x := s.streams[st]
  let k := x.tested + 1
  let g := k * s.gbOf st
  if x.st ≠ .underrun ∨ s.keepsPosition st ∨ x.resumeAt.isSome ∨ s.streamPos st + 48 < g then s
  else if s.resumeReady st k then s.updStream st (fun x => { x with resumeAt := some g, tested := k })
  else s.updStream st (fun x => { x with tested := k })

/-- The test of R151: re-entry at m 48 gc later. -/
def State.keepTest (s : State) (st : StreamId) : State :=
  let x := s.streams[st]
  let c := s.chanOf st
  if x.st ≠ .underrun ∨ ¬ s.keepsPosition st ∨ x.resumeAt.isSome then s
  else if s.resumeReady st (x.missing / max 1 (s.gbOf st)) then
    let base := s.chans[c].iterStart + (s.playPos c - s.chans[c].iterStart) / 32 * 32
    s.updStream st (fun x => { x with resumeAt := some x.missing, reenter := base + 32 * 48 })
  else s

/-- The stream plays from the region again (R150, R151): RESUMED, and under KEEP_POSITION the walk goes on where it held. -/
def State.reentry (s : State) (st : StreamId) : State :=
  let x := s.streams[st]
  let c := s.chanOf st
  match x.st, x.resumeAt with
  | .underrun, some g =>
    let finish := fun (s : State) =>
      (((s.dropHeld st).updStream st (fun y => { y with st := .flowing, resumeAt := none })).raise (.tndStatus st) TND_STATUS.RESUMED).streamEvent st .resumed g
    if s.keepsPosition st then
      match s.chans[c].pauseFrom with
      | none => s
      | some q =>
        let s := ((s.reachPos c x.reenter).pipeTo c x.reenter).streamSync st x.reenter
        finish ((s.updChan c (fun y => { y with iterStart := y.iterStart + (x.reenter - q), resumed := x.reenter })).pauseEnds c x.reenter)
    else match s.streamDue st g 4096 with
      | none => s
      | some p =>
        if s.iterEnd c ≤ p ∨ s.chans[c].st ≠ .playing then s
        else finish ((((s.reachPos c p).pipeTo c p).streamSync st p).bumpBy (.tndSkipped st) TND_SKIPPED.GRANULES (g - x.missing))
  | _, _ => s

/-- A stream stops flowing for good at granule `m`: DRAINED or LOST (R153, R154). -/
def State.streamStops (s : State) (st : StreamId) (last : StreamState) (m : Nat) : State :=
  let c := s.chanOf st
  let s := ((s.dropHeld st).updStream st (fun x => { x with st := last, missing := m, resumeAt := none })).wr (.tndGapLast st) 0
  match s.heldFrom c with
  | some q => (s.updChan c (fun x => { x with iterStart := x.iterStart + (s.playPos c - q), resumed := s.playPos c })).pauseEnds c (s.playPos c)
  | none => s.pauseEnds c (s.playPos c)

/-- A stream entry comes to granule TND_LIMIT × Gb (R153). -/
def State.drained (s : State) (st : StreamId) : State :=
  let c := s.chanOf st
  let limit := s.fld (.tndLimit st) TND_LIMIT.BLOCKS
  let g := max (limit * s.gbOf st) (s.streamPos st)
  if limit = 0 ∨ ¬ (s.streams[st].st = .flowing ∨ s.streams[st].st = .underrun) then s
  else match s.streamDue st g 4096 with
    | none => s
    | some p =>
      if s.iterEnd c ≤ p ∨ s.chans[c].st ≠ .playing then s
      else (((((s.reachPos c p).pipeTo c p).streamSync st p).streamStops st .drained g).raise (.tndStatus st) TND_STATUS.DRAINED).streamEvent st .drained limit

/-- An attached stream enters LOST (R154). -/
def State.streamLost (s : State) (st : StreamId) : State :=
  if s.attached st then
    let c := s.chanOf st
    let s := s.pipeNow c
    let s := if s.chans[c].st = .playing ∧ entryStream (s.entryOf c) = some st then s.streamSync st (s.playPos c) else s
    ((s.streamStops st .lost s.streams[st].pos).raise (.tndStatus st) TND_STATUS.LOST).streamEvent st .lost 0
  else s

/-! ### The commands -/

/-- The dies a stream's command acts on: its home Dome and the Lamp die of its channel. -/
def State.streamDies (s : State) (st : StreamId) : List Die := [Die.ofDome (domeOfStream st), Die.ofLamp (lampOf (s.chanOf st))]

def execBlockLanded (st : StreamId) (i : Nat) (s : State) : Host.Outcome State Fault Refusal := s.act (s.streamDies st) (·.blockLanded st i)
def execBlockConsumed (st : StreamId) (s : State) : Host.Outcome State Fault Refusal := s.act (s.streamDies st) (·.blockConsumed st)
def execUnderrunDeclare (st : StreamId) (s : State) : Host.Outcome State Fault Refusal := s.act (s.streamDies st) (·.underrun st)
def execResumeTest (st : StreamId) (s : State) : Host.Outcome State Fault Refusal := s.act (s.streamDies st) (·.resumeTest st)
def execKeepPositionTest (st : StreamId) (s : State) : Host.Outcome State Fault Refusal := s.act (s.streamDies st) (·.keepTest st)
def execStreamReentry (st : StreamId) (s : State) : Host.Outcome State Fault Refusal := s.act (s.streamDies st) (·.reentry st)
def execStreamDrained (st : StreamId) (s : State) : Host.Outcome State Fault Refusal := s.act (s.streamDies st) (·.drained st)

end Sys2Proof.Machine
end

