-- ==== Sys2Proof/Machine/Channels.lean ====
section
/-! DEFINITION. Commands of a channel's walk: tables and their homes, prefetch, priming, the start instant, iterations, swaps, entry reads and markers
(spec 02_characteristics.md R36 to R69, 04_lantern_pipeline.md R115). -/
namespace Sys2Proof.Machine
open Sys2Proof

/-! ### Homes of tables (R37 to R39) -/

/-- A value of TABLE_HOME names a Dome. -/
def homeNames (h : Nat) (d : DomeId) : Bool := h == 2 || h == d.val
/-- TABLE_HOME of a channel. -/
def State.homeOf (s : State) (c : ChanId) : Nat := s.fld (.charCtrl c) CHAR_CTRL.TABLE_HOME
/-- Blocks of PB1 a channel's two tables take (R39). -/
def Chan.blocks (x : Chan) : Nat := x.slots[0].blocks + x.slots[1].blocks
/-- Blocks of PB1 in use on a Dome. -/
def State.blocksUsed (s : State) (d : DomeId) : Nat :=
  ((List.finRange 16).map (fun c => if s.chans[c].heldOn[d] || homeNames (s.homeOf c) d then s.chans[c].blocks else 0)).sum

/-- A change of home is refused (R38): a Dome newly named lacks the blocks, or the copy needs the Dome–Dome link and that is lost. -/
def State.homeRefused (s : State) (c : ChanId) (h : Nat) : Bool :=
  let x := s.chans[c]
  let new := (List.finRange 2).filter (fun d => homeNames h d && !(x.heldOn[d] || homeNames (s.homeOf c) d))
  new.any (fun d => decide (1024 < s.blocksUsed d + x.blocks))
  || (new ≠ [] && decide (0 < x.blocks) && (s.links[linkDomes].lost || s.dieLost[Die.domeA] || s.dieLost[Die.domeB]))

/-- A change of TABLE_HOME (R38): the field reads the new value, and the tables move; or it is ignored. The reserved value 3, which names no Dome, is ignored with HOME_REFUSED, for a change of home never
loses a table (DESIGN CHOICE, log entry 110). -/
def State.changeHome (s : State) (c : ChanId) (h : Nat) : State :=
  if h = s.homeOf c then s
  else if h = 3 ∨ s.homeRefused c h then s.raise (.charStatus c) CHAR_STATUS.HOME_REFUSED
  else
    let old := s.homeOf c
    (s.updChan c (fun x => { x with move := some ⟨old⟩, heldOn := Vector.ofFn (fun d => x.heldOn[d] || (homeNames old d && decide (0 < x.blocks))) })).setFld
      (.charCtrl c) CHAR_CTRL.TABLE_HOME h

/-- The move completes (R38): the tables are held where TABLE_HOME says. -/
def State.moveDone (s : State) (c : ChanId) : State :=
  if s.chans[c].move.isNone then s
  else s.updChan c (fun x => { x with move := none, heldOn := Vector.ofFn (fun d => homeNames (s.homeOf c) d && decide (0 < x.blocks)) })

/-- The Dome a channel's table is read from, and whether it is mirrored (R37, R53). -/
def State.tableDome (s : State) (c : ChanId) : DomeId := match s.homeOf c with | 0 => 0 | 1 => 1 | _ => s.mirrorDome c
def State.tableMirrored (s : State) (c : ChanId) : Bool := s.homeOf c == 2 && !s.dieLost[Die.domeA] && !s.dieLost[Die.domeB]

/-! ### Entry reads (R52, R53) -/

/-- A PB1 word of a table reads with an error. The spec does not place tables in PB1: the word is a free value. -/
def State.tableWordError (s : State) (d : DomeId) (ecc : Ecc) : State :=
  match ecc with
  | .clean => s
  | .single => let (v, s) := s.fresh; s.plateCorrected d 1 (v.toNat % bankWords 1)
  | .double => let (v, s) := s.fresh; s.plateUncorrectable d 1 (v.toNat % bankWords 1)

/-- An entry arrives at a channel that primes or plays (R52, R53): an uncorrectable error is read again from the mirror copy; with none, or with that copy in error too, it is a walking fault
ENTRY_ECC; an entry that fails R47 is a walking fault ENTRY_INVALID. -/
def State.entryRead (s : State) (c : ChanId) (i : Nat) (ecc mirror : Ecc) : State :=
  let t := s.table c
  if ¬ (s.chans[c].st = .playing ∨ s.chans[c].st = .priming) ∨ t.len ≤ i then s
  else
    let d := s.tableDome c
    let s := s.tableWordError d ecc
    let e := t.entry i
    let sound := s.entrySound t e
    if ecc = .double ∧ ¬ s.tableMirrored c then s.walkFault c i 3
    else
      let s := if ecc = .double then s.tableWordError (twin d) mirror else s
      if ecc = .double ∧ mirror = .double then s.walkFault c i 3
      else if sound then s else s.walkFault c i 4

/-! ### Prefetch (R55 to R59) -/

/-- The lookahead walker requests granules, up to the lead target and the landed granules of a stream (R55, R142). -/
def State.requestAhead (s : State) (c : ChanId) (n : Nat) : State :=
  if s.chans[c].st = .playing ∨ s.chans[c].st = .priming then
    let top := s.playGran c + min (s.leadTarget c) (s.landedLead c)
    ((s.noteLead c).updChan c (fun x => { x with reqTo := max x.reqTo (min (x.reqTo + n) top) })).noteLead c
  else s

/-- Requested granules arrive. -/
def State.granulesArrive (s : State) (c : ChanId) (n : Nat) : State :=
  if s.chans[c].st = .playing ∨ s.chans[c].st = .priming then s.updChan c (fun x => { x with arrTo := min (x.arrTo + n) x.reqTo }) else s

/-- The granule at the play position has not arrived: it plays dark, and is counted on the Dome it is read from (R57). -/
def State.granuleIsLate (s : State) (c : ChanId) : State :=
  let e := s.entryOf c
  if s.chans[c].st = .playing ∧ memFormat e.format ∧ s.chans[c].arrTo ≤ s.playGran c then
    let d := s.readDome c e
    let s := (((s.pipeNow c).noteLead c).raise (.moorStatus d) MOOR_STATUS.LATE).bump (.moorLateGran d) MOOR_LATE_GRAN.GRANULES
    s.updChan c (fun x => { x with arrTo := s.playGran c + 1, darkTo := s.playGran c + 1, reqTo := max x.reqTo (s.playGran c + 1) })
  else s

/-- The lead reaches its target, no further than the landed granules of a stream (R59, R142). Channels of one START item without a delay share the first granule edge at which all of them are primed (R360). -/
def State.primed (s : State) (c : ChanId) : State :=
  if s.chans[c].st ≠ .priming then s
  else
    let top := s.playGran c + min (s.leadTarget c) (s.landedLead c)
    let s := s.updChan c (fun x => { x with primed := true, reqTo := max x.reqTo top, arrTo := max x.arrTo top })
    let mates := s.chans[c].startWith
    if s.chans[c].startAt.isNone ∧ mates.all (fun m => s.chans[m].st != .priming || s.chans[m].primed) then
      mates.foldl (fun s m => if s.chans[m].st = .priming then s.updChan m (fun x => { x with startAt := some (s.nextEdge m) }) else s)
        (s.updChan c (fun x => { x with startAt := some (s.nextEdge c) }))
    else s

/-- The start instant of a priming channel (R59). A resuming start takes up the unbroken walk as it stands then (R282). -/
def State.startNow (s : State) (c : ChanId) (dark : Nat) : State :=
  match s.chans[c].st, s.chans[c].startAt with
  | .priming, some g =>
    let s := (s.reachGranC c g).takeUpWalk c g
    if s.chans[c].st = .priming then s.startInstantAt c g dark else s
  | _, _ => s

/-! ### Iterations and swaps (R40, R48) -/

/-- The walk can reach the end of its iteration: it plays, no pause of R151 holds it, and no take point inside the iteration is ahead of it. -/
def State.atIterationEnd (s : State) (c : ChanId) : Bool :=
  s.chans[c].st == .playing && (s.heldFrom c).isNone
  && (match s.chans[c].pend with | some j => j.atBoundary || decide (s.iterEnd c ≤ j.take) | none => true)

def State.endIteration (s : State) (c : ChanId) : State := if s.atIterationEnd c then s.iterationEnds c else s
/-- A committed swap falls due at the boundary the walk comes to (R40). -/
def State.swapReached (s : State) (c : ChanId) : State := if s.atIterationEnd c && s.swapDue c (s.iterEnd c) then s.iterationEnds c else s

/-! ### Markers (R63 to R67) -/

/-- One marker of the channels that follow a program changed at sample `p`. -/
def State.updMarkers (s : State) (c : ChanId) (mk : Fin 2) (p : Nat) (f : Marker → Marker) : State :=
  ((s.markerChans c).foldl (fun s x => s.updChan x (fun y => { y with markers := y.markers.set mk (f y.markers[mk]) })) s).markersMove c p

/-- The pulse of the iteration in play begins at its START sample: in the first iteration for PULSE_FIRST, in every one for PULSE_EACH; START beyond the take point of a pending jump does not
fire, nor one that a pause of R151 holds, or that has fired before it (R46, R64, R66). A pulse that starts while another runs ends WIDTH samples after its own start, and the other not before its own
width is over (R65). -/
def State.pulseStart (s : State) (c : ChanId) (mk : Fin 2) : State :=
  let x := s.chans[c]
  let prog := (s.entryOf c).marker mk
  let at_ := x.iterStart + mkStart prog
  let fires := x.st == .playing && (mkMode prog == 3 || (mkMode prog == 2 && x.iter == 0)) && decide (at_ < s.iterEnd c)
    && decide (x.resumed ≤ at_) && (match s.heldFrom c with | some q => decide (at_ < q) | none => true)
    && (match x.pend with | some j => j.atBoundary || decide (at_ < j.take) | none => true)
  if ¬ fires then s
  else (s.reachPos c at_).updMarkers c mk at_ (fun m => { m with pulseEnd := some (max (at_ + mkWidth prog) (m.pulseEnd.getD 0)) })

/-- The running pulse ends (R65). -/
def State.pulseStop (s : State) (c : ChanId) (mk : Fin 2) : State :=
  match s.chans[c].markers[mk].pulseEnd with
  | none => s
  | some e => (s.reachPos c e).updMarkers c mk e (fun m => { m with pulseEnd := none })

/-! ### Chirps (R115) -/

/-- The curvature joins the rate after every 32nd sample from the chirp's start. -/
def State.chirpStep (s : State) (c : ChanId) : State :=
  let x := s.chans[c].nco
  match x.chirp with
  | none => s
  | some ch =>
    if ¬ x.runs then s
    else
      let edge := ch.start + ((x.at_ - ch.start) / 32 + 1) * 32
      ((s.reachGranC c (ceilDiv edge 32)).pipeNow c).updNco c (·.sync edge)

/-! ### The commands -/

def execTableMoveDone (c : ChanId) (s : State) : Host.Outcome State Fault Refusal := s.act [Die.ofLamp (lampOf c)] (·.moveDone c)
def execLookaheadRequest (c : ChanId) (n : Nat) (s : State) : Host.Outcome State Fault Refusal := s.act [Die.ofLamp (lampOf c)] (·.requestAhead c n)
def execGranuleArrive (c : ChanId) (n : Nat) (s : State) : Host.Outcome State Fault Refusal := s.act [Die.ofLamp (lampOf c)] (·.granulesArrive c n)
def execGranuleLate (c : ChanId) (s : State) : Host.Outcome State Fault Refusal := s.act [Die.ofLamp (lampOf c)] (·.granuleIsLate c)
def execPrimingDone (c : ChanId) (s : State) : Host.Outcome State Fault Refusal := s.act [Die.ofLamp (lampOf c)] (·.primed c)
def execMarkerPulseStart (c : ChanId) (mk : Fin 2) (s : State) : Host.Outcome State Fault Refusal := s.act [Die.ofLamp (lampOf c)] (·.pulseStart c mk)
def execMarkerPulseEnd (c : ChanId) (mk : Fin 2) (s : State) : Host.Outcome State Fault Refusal := s.act [Die.ofLamp (lampOf c)] (·.pulseStop c mk)
def execChirpCurveStep (c : ChanId) (s : State) : Host.Outcome State Fault Refusal := s.act [Die.ofLamp (lampOf c)] (·.chirpStep c)

end Sys2Proof.Machine
end

