-- ==== Sys2Proof/Machine/Images.lean ====
section
/-! DEFINITION. Microwords, store images, their checks and their loading (spec 10_orrery.md R256 to R265, R272 to R276, 16_faults_spares_security.md R425 to R428). -/
namespace Sys2Proof.Machine
open Sys2Proof

/-! ### Fields of a microword (R258, R263, R264) -/

/-- Bits of a microword from `lo` up. -/
def mwBits (w : Microword) (lo n : Nat) : Nat := bitsOf w.toNat lo n

/-- CYCLES: 0 encodes 16. -/
def mwCycles (w : Microword) : Nat := let c := mwBits w 0 4; if c = 0 then 16 else c
def mwCommit (w : Microword) : Bool := mwBits w 4 1 == 1
def mwSeq (w : Microword) : Nat := mwBits w 5 3
def mwTarget (w : Microword) : Nat := mwBits w 8 14
def mwCond (w : Microword) : Nat := mwBits w 22 6
def mwCondNeg (w : Microword) : Bool := mwBits w 28 1 == 1
/-- TIMEOUT in q: 0 encodes 65,536 units of 1 µs or 1 ms. -/
def mwTimeout (w : Microword) : Nat := (let n := mwBits w 29 16; if n = 0 then 65536 else n) * (if mwBits w 45 1 = 1 then qMs else qUs)
def mwAlu (w : Microword) : Nat := mwBits w 46 4
def mwSrcA (w : Microword) : Fin 16 := Fin.ofNat 16 (mwBits w 50 4)
def mwSrcB (w : Microword) : Fin 16 := Fin.ofNat 16 (mwBits w 54 4)
def mwDst (w : Microword) : Fin 16 := Fin.ofNat 16 (mwBits w 58 4)
def mwBImm (w : Microword) : Bool := mwBits w 62 1 == 1
def mwFlagsWr (w : Microword) : Bool := mwBits w 63 1 == 1
def mwImm (w : Microword) : Nat := mwBits w 64 32
/-- Whether SEQ names a target. -/
def mwJumps (w : Microword) : Bool := mwSeq w == 1 || mwSeq w == 2 || mwSeq w == 3 || mwSeq w == 5

/-- The kinds of image (R272). -/
inductive ImageKind where
  | channel | keeper | owner
deriving DecidableEq, Repr

/-! ### What makes a word invalid (R258 to R264, R274) -/

/-- G registers a keeper word's units write: the ALU, RING FETCH, REG READ and PB READ64. -/
def keeperWrites (w : Microword) : List Nat :=
  (if mwAlu w = 0 ∨ mwAlu w = 14 then [] else [(mwDst w).val])
  ++ (if mwBits w 96 4 = 1 then [mwBits w 100 4 + 1] else [])
  ++ (if mwBits w 112 4 = 1 then [mwBits w 116 4 + 1] else [])
  ++ (if mwBits w 120 4 = 1 then [mwBits w 124 4 + 1] else [])

/-- A register field `n` of an operation that takes `k` registers stays within G15. -/
def regFits (n k : Nat) : Bool := decide (n + k ≤ 16)

/-- Registers taken by the RING, DMA, REG and PB operations of a keeper word. -/
def keeperRegsFit (w : Microword) : Bool :=
  regFits (mwBits w 100 4) (if mwBits w 96 4 = 1 then 2 else 1)
  && regFits (mwBits w 108 4) (if mwBits w 104 4 = 0 then 1 else 3)
  && regFits (mwBits w 116 4) (match mwBits w 112 4 with | 0 => 1 | 4 => 3 | _ => 2)
  && regFits (mwBits w 124 4) (if mwBits w 120 4 = 0 then 1 else 2)

/-- COND has a meaning in a keeper, or in a channel engine (R261). -/
def keeperCond (c : Nat) : Bool := decide (c ≤ 10) || decide (16 ≤ c ∧ c ≤ 31)
def channelCond (c : Nat) : Bool := decide (c ≤ 14)

/-- A keeper word has no reserved code and is not invalid (R259, R261, R262, R264). -/
def keeperWordOk (w : Microword) : Bool :=
  decide (mwSeq w ≠ 7) && keeperCond (mwCond w) && decide (mwAlu w ≠ 15)
  && decide (mwBits w 96 4 ≤ 3) && decide (mwBits w 104 4 ≤ 3) && decide (mwBits w 112 4 ≤ 4) && decide (mwBits w 120 4 ≤ 3) && decide (mwBits w 128 3 ≤ 1)
  && decide (mwBits w 135 4 ≤ 4) && decide (mwBits w 143 3 ≤ 3) && mwBits w 146 30 == 0
  && keeperRegsFit w && (keeperWrites w).Nodup

/-- A channel word has no reserved code, no COMMIT, WAIT or END, and is not invalid (R258 to R263). -/
def channelWordOk (w : Microword) : Bool :=
  decide (mwSeq w ≤ 4) && !mwCommit w && mwBits w 21 1 == 0 && channelCond (mwCond w) && decide (mwAlu w ≠ 15)
  && decide (mwBits w 96 4 ≤ 3) && decide (mwBits w 104 4 ≤ 9) && decide (mwBits w 112 3 ≤ 3) && decide (mwBits w 119 3 ≤ 4) && decide (mwBits w 122 3 ≤ 3)
  && decide (mwBits w 125 3 ≤ 3) && decide (mwBits w 128 7 ≤ 95) && decide (mwBits w 135 3 ≤ 4) && decide (mwBits w 140 3 ≤ 3) && mwBits w 143 33 == 0
  && regFits (mwBits w 115 4) (if mwBits w 112 3 = 1 then 2 else 1)

/-- An owner word uses no SHD_OP or TXN_OP, and its targets lie in the owner area, except a CALL of a vendor exported entry (R274). -/
def ownerWordOk (exported : List Nat) (w : Microword) : Bool :=
  keeperWordOk w && mwBits w 135 4 == 0 && mwBits w 143 3 == 0
  && (!mwJumps w || decide (12288 ≤ mwTarget w) || (mwSeq w == 3 && exported.contains (mwTarget w)))

/-! ### Reading an image (R257, R272) -/

/-- A little-endian field of a list of bytes. -/
def leAt (b : List Byte) (off n : Nat) : Nat := fromBytes ((b.drop off).take n)

/-- An entry of the routine table. -/
def routineAt (b : List Byte) (i : Nat) : RoutineEntry :=
  let v := leAt b (24 + 8 * i) 8
  ⟨bitsOf v 0 14, bitOf v 14, bitsOf v 16 16⟩

/-- The reserved bits of a routine entry are zero. -/
def routineClean (b : List Byte) (i : Nat) : Bool :=
  let v := leAt b (24 + 8 * i) 8
  !bitOf v 15 && bitsOf v 32 32 == 0

/-- The image that bytes hold, of a kind (R272): none where a field of the layout is wrong. -/
def parseImage (kind : ImageKind) (b : List Byte) : Option StoreImage :=
  let count := leAt b 18 2
  let base := leAt b 16 2
  let code := match kind with | .channel => 0 | .keeper => 1 | .owner => 2
  let words : List Microword := (List.range count).map (fun i => BitVec.ofNat 176 (leAt b (4096 + 24 * i) 22))
  if leAt b 0 4 = 0x5952524F ∧ leAt b 4 2 = code ∧ leAt b 6 2 = 1 ∧ leAt b 20 4 = 0 ∧ b.length = 4096 + 24 * count + 512
      ∧ ((b.drop 2072).take 2024).all (· == 0) ∧ (List.range 256).all (routineClean b)
      ∧ (List.range count).all (fun i => leAt b (4096 + 24 * i + 22) 2 == 0) then
    some { version := BitVec.ofNat 32 (leAt b 8 4), secVer := BitVec.ofNat 32 (leAt b 12 4), base := base, words := words
           routines := (List.range 256).map (routineAt b), hash := (Config.sha512 (b.take (4096 + 24 * count))).toList }
  else none

/-- The words of the area an image may fill. -/
def imageArea (kind : ImageKind) : Nat × Nat := match kind with | .channel => (0, 8192) | .keeper => (0, 12288) | .owner => (12288, 16384)

/-- The vendor exported entries: valid routines 128 to 191 (R272). -/
def exportedOf (img : Option StoreImage) : List Nat :=
  match img with
  | some x => ((x.routines.drop 128).take 64).filterMap (fun r => if r.valid then some r.word else none)
  | none => []

/-- An image passes the checks of R274. -/
def imageOk (kind : ImageKind) (exported : List Nat) (x : StoreImage) : Bool :=
  decide ((imageArea kind).1 ≤ x.base ∧ x.base + x.words.length ≤ (imageArea kind).2)
  && x.words.all (match kind with | .channel => channelWordOk | .keeper => keeperWordOk | .owner => ownerWordOk exported)

/-- The vendor image of a kind that the boot flash left the factory with (R284). -/
def factoryImage (channel : Bool) : StoreImage :=
  let i : Fin 2 := if channel then 0 else 1
  { version := (Config.flashVersion i).setWidth 32, secVer := Config.vendorSec i, base := 0, words := (List.range (Config.vendorCount i).toNat).map (Config.vendorWord i)
    routines := (List.finRange 256).map (fun n => let v := (Config.vendorEntry n).toNat; ⟨bitsOf v 0 14, bitOf v 14, bitsOf v 16 16⟩), hash := (Config.vendorHash i).toList }

/-- The vendor keeper image in force. -/
def State.vendorImage (s : State) : Option StoreImage := s.pb3[(0 : DomeId)].keeper <|> s.pb3[(1 : DomeId)].keeper

/-- Why an image is refused, or the image (R273, R426, R428): the bytes of an owner extension begin with its key block. -/
def State.imageOf (s : State) (kind : ImageKind) (b : List Byte) : Except Nat StoreImage :=
  let body := if kind = .owner then b.drop 520 else b
  let key := if kind = .owner then b.take 520 else Config.vendorKey
  let floor := if kind = .owner then s.sec.ownerFloor else s.sec.vendorFloor
  let owned := if kind = .owner then some (Config.sha512 (key.take 516)).toList == s.sec.ownerHash else true
  if kind = .owner ∧ ¬ (s.sec.enrolled ∧ ¬ s.sec.erased) then .error Reason.noOwner
  else if ¬ (owned ∧ Config.verifies key (body.take (body.length - 512)) (body.drop (body.length - 512))) then .error Reason.signature
  else match parseImage kind body with
    | none => .error Reason.imageField
    | some x =>
      if x.secVer.toNat < floor then .error Reason.signature
      else if imageOk kind (exportedOf s.vendorImage) x then .ok x
      else .error Reason.imageField

/-! ### Stores (R256, R273, R276) -/

/-- The state with one channel engine changed. -/
def State.updEngine (s : State) (c : ChanId) (f : ChanEngine → ChanEngine) : State := { s with engines := s.engines.set c (f s.engines[c]) }

/-- The word an image holds at a store address. -/
def StoreImage.word (x : StoreImage) (w : Nat) : Option Microword := if x.base ≤ w then x.words[w - x.base]? else none

/-- The microword of a free value: a store word that no image of the model holds. -/
def State.freshWord (s : State) : Microword × State :=
  let (a, s) := s.fresh
  let (b, s) := s.fresh
  let (c, s) := s.fresh
  (BitVec.ofNat 176 (a.toNat + b.toNat * 2 ^ 64 + c.toNat * 2 ^ 128), s)

/-- The word at an address of a keeper's store: the owner area from 12,288 up. -/
def State.keeperWord (s : State) (k : KeeperId) (w : Nat) : Microword × State :=
  match (if 12288 ≤ w then s.keepers[k].owner else s.keepers[k].vendor).bind (·.word w) with
  | some x => (x, s)
  | none => s.freshWord

/-- The word at an address of a channel engine's store. -/
def State.channelWord (s : State) (c : ChanId) (w : Nat) : Microword × State :=
  match s.engines[c].store.bind (·.word w) with
  | some x => (x, s)
  | none => s.freshWord

/-- The Domes in service. -/
def State.domesUp (s : State) : List DomeId := (List.finRange 2).filter (fun d => !s.dieLost[Die.ofDome d])

/-- An image enters PB3 of both Domes (R273). -/
def State.storePb3 (s : State) (f : Images → Images) : State := s.domesUp.foldl (fun (s : State) (d : DomeId) => { s with pb3 := s.pb3.set d (f s.pb3[d]) }) s

/-- The state of a channel engine's store (R286). -/
def State.storeState (s : State) (c : ChanId) (v : Nat) : State := s.setFld (.oryState c) ORY_STATE.STORE v

/-- The store is VALID, with the version of its image. -/
def State.storeShows (s : State) (c : ChanId) (x : StoreImage) : State := (s.storeState c 2).setFld (.oryState c) ORY_STATE.VERSION (x.version.toNat % 2 ^ 16)
/-- The word a channel engine starts at: the entry of routine 0. -/
def StoreImage.firstWord (x : StoreImage) : Nat := match x.routines with | r :: _ => r.word | [] => 0

/-- The vendor channel image is written into the sixteen channel stores. -/
def State.installChannel (s : State) (x : StoreImage) : State :=
  (List.finRange 16).foldl (fun s c => (s.updEngine c (fun e => { e with store := some x, word := x.firstWord })).storeShows c x) (s.storePb3 (fun y => { y with channel := some x }))

/-- The vendor keeper image is written into the four keeper stores. -/
def State.installKeeper (s : State) (x : StoreImage) : State :=
  (List.finRange 4).foldl (fun s k =>
    ((s.updKeeper k (fun y => { y with vendor := some x })).setFld (.kprImage k) KPR_IMAGE.VENDOR (x.version.toNat % 2 ^ 16)).raise (.kprStatus k) KPR_STATUS.LOAD_DONE)
    (s.storePb3 (fun y => { y with keeper := some x }))

/-- An owner image replaces the whole owner area of the four keepers, and the owner floor follows it (R273, R428). -/
def State.installOwner (s : State) (x : StoreImage) : State :=
  let s := s.storePb3 (fun y => { y with owner := some x })
  let s := { s with ownerNew := none, sec := { s.sec with ownerFloor := max s.sec.ownerFloor x.secVer.toNat } }
  (List.finRange 4).foldl (fun s k =>
    ((s.updKeeper k (fun y => { y with owner := some x })).setFld (.kprImage k) KPR_IMAGE.OWNER (x.version.toNat % 2 ^ 16)).raise (.kprStatus k) KPR_STATUS.LOAD_DONE) s

/-- The owner areas are emptied. -/
def State.emptyOwner (s : State) : State :=
  let s := { s with ownerNew := none, pb3 := s.pb3.map (fun y => { y with owner := none }) }
  (List.finRange 4).foldl (fun s k => (s.updKeeper k (fun y => { y with owner := none })).setFld (.kprImage k) KPR_IMAGE.OWNER 0) s

/-- A load failed (R273, R284). -/
def State.loadFailed (s : State) : State := (List.finRange 4).foldl (fun s k => s.raise (.kprStatus k) KPR_STATUS.LOAD_FAIL) s

end Sys2Proof.Machine
end

