-- ==== Sys2Proof/Machine/Links.lean ====
section
/-! DEFINITION. Hawser links: replays, lane swaps, narrowing and loss, and traffic relayed over the Dome–Dome link; with them the commands of a walk that changes what a channel reads
(spec 01_dies_and_links.md R11 to R18, R31, R32). -/
namespace Sys2Proof.Machine
open Sys2Proof

/-! ### The links (R11, R12) -/

/-- Kinds of link in the order of R11. -/
inductive LinkKind where
  | lampDome (n : LampId) (d : DomeId) | domes | meridDie (m : MerId) (k : Fin 6) | merids
deriving DecidableEq, Repr

/-- The link of a number (R12). -/
def linkKind (l : LinkId) : LinkKind :=
  if l.val < 8 then .lampDome ⟨l.val / 2 % 4, by omega⟩ ⟨l.val % 2, by omega⟩
  else if l.val = 8 then .domes
  else if l.val < 21 then .meridDie ⟨(l.val - 9) / 6 % 2, by omega⟩ ⟨(l.val - 9) % 6, by omega⟩
  else .merids

/-- Data lanes and spare lanes of a direction (`ret`: the return lanes), and the lanes of half width (R11, R16). R16 gives half width for the forward lanes of a Lamp–Dome link and for the Dome–Dome link; of the
return lanes and the Meridian links it is half their lanes too, and a shortage of return lanes narrows the link as one of forward lanes does (DESIGN CHOICE, log entry 129). -/
def linkLanes (l : LinkId) (ret : Bool) : Nat × Nat × Nat :=
  match linkKind l with
  | .lampDome _ _ => if ret then (8, 1, 4) else (64, 4, 32)
  | .domes => (32, 2, 16)
  | .meridDie _ _ => (4, 1, 2)
  | .merids => (8, 1, 4)

/-- The two dies a link joins. The ledger records a lane swap under the first. -/
def linkDies (l : LinkId) : Die × Die :=
  match linkKind l with
  | .lampDome n d => (Die.ofLamp n, Die.ofDome d)
  | .domes => (Die.domeA, Die.domeB)
  | .meridDie m k => (Die.ofMerid m, if h : k.val < 4 then Die.ofLamp ⟨k.val, h⟩ else Die.ofDome ⟨k.val % 2, by omega⟩)
  | .merids => (Die.meridA, Die.meridB)

def dirOf (ret : Bool) : Fin 2 := if ret then 1 else 0
/-- The state with one link, or one direction of it, changed. -/
def State.updLink (s : State) (l : LinkId) (f : Link → Link) : State := { s with links := s.links.set l (f s.links[l]) }
def State.updDir (s : State) (l : LinkId) (ret : Bool) (f : LinkDir → LinkDir) : State :=
  s.updLink l (fun x => { x with dirs := x.dirs.set (dirOf ret) (f x.dirs[dirOf ret]) })
/-- A link works: not lost, between two dies that are not. -/
def State.linkWorks (s : State) (l : LinkId) : Bool := !s.links[l].lost && !s.dieLost[(linkDies l).1] && !s.dieLost[(linkDies l).2]

/-- The beacon event of a link: HWL_A and HWL_B of the Lamp die, HWX of both Domes (R15, R254). The Meridian links have no source. -/
def State.linkEvent (s : State) (l : LinkId) : State :=
  match linkKind l with
  | .lampDome n d => s.publishFree (.hwl n d)
  | .domes => (s.publishFree (.hwx 0)).publishFree (.hwx 1)
  | _ => s

/-! ### Relayed traffic (R16, R32) -/

/-- Payload of one lane in units of 0.25 Gbit/s: 15 Gbit/s of a lane of 16 Gbit/s, 3.75 of one of 4 Gbit/s; 11.25 where the link trained at 12 Gbit/s (R11, ST-6). -/
def State.lanePayload (s : State) (l : LinkId) : Nat :=
  match linkKind l with
  | .meridDie _ _ => 15
  | _ => if s.links[l].slow then 45 else 60

/-- The product of the Lamps' granule periods: the common unit in which rates of channels with sample clocks of their own add up. -/
def State.gcProduct (s : State) : Nat := (List.finRange 4).foldl (fun a n => a * s.gcNum n) 1

/-- Payload of a forward direction: half width carries what half the lanes do (R11, R16). One Gbit/s is 1 / (6144 gcDen) bit per 1 / gcDen q; the unit is 1 / (4 × 6144 × gcDen × gcProduct) bit in that time. -/
def State.payload (s : State) (l : LinkId) : Nat :=
  if ¬ s.linkWorks l then 0
  else (if s.links[l].narrow then (linkLanes l false).2.2 else (linkLanes l false).1) * s.lanePayload l * s.gcProduct

/-- What an entry of a channel draws, in the unit of `payload`: its stored bits of a granule in each gc of its Lamp. -/
def State.drawOf (s : State) (c : ChanId) (e : EntryWords) : Nat :=
  if memFormat e.format then 32 / 2 ^ e.interp * storedBits e.format * 4 * 6144 * s.gcDen * (s.gcProduct / max 1 (s.gcNum (lampOf c))) else 0

/-- The budgets left as channels are admitted: each Lamp–Dome link, and each direction of the Dome–Dome link (from Dome 0, from Dome 1). -/
structure Budget where
  direct : Vector Nat 8
  relay  : Vector Nat 2
  short  : List ChanId
deriving DecidableEq, Repr

/-- One channel is admitted (R32): what its link cannot carry goes over the Dome–Dome link and the other Dome's; a channel that does not fit is never served in part. -/
def State.relayAdmit (s : State) (b : Budget) (c : ChanId) : Budget :=
  let e := s.entryOf c
  let need := s.drawOf c e
  if s.chans[c].st ≠ .playing ∨ need = 0 ∨ s.segLost e then b
  else
    let n := lampOf c
    let d := s.readDome c e
    let here : Fin 8 := ⟨2 * n.val + d.val, by omega⟩
    let there : Fin 8 := ⟨2 * n.val + (twin d).val, by have := (twin d).isLt; omega⟩
    let direct := min need b.direct[here]
    let rest := need - direct
    if rest = 0 then { b with direct := b.direct.set here (b.direct[here] - direct) }
    else if rest ≤ b.relay[d] ∧ rest ≤ b.direct[there] then
      { b with
        direct := (b.direct.set here (b.direct[here] - direct)).set there (b.direct[there] - rest)
        relay := b.relay.set d (b.relay[d] - rest) }
    else { b with short := b.short ++ [c] }

/-- Channels are admitted in ascending number. -/
def State.budget (s : State) : Budget :=
  (List.finRange 16).foldl s.relayAdmit
    { direct := Vector.ofFn (fun i => s.payload ⟨i.val, by omega⟩), relay := Vector.replicate 2 (s.payload linkDomes), short := [] }

/-- A channel left over goes dark with RELAY_SHORT and keeps its position in time; one admitted again shows its samples (R32). -/
def State.relayCheck (s : State) : State :=
  let short := s.budget.short
  (List.finRange 16).foldl (fun s c =>
    if c ∈ short then
      if s.chans[c].relayDark then s
      else (((s.pipeNow c).updChan c (fun x => { x with relayDark := true })).raise (.charStatus c) CHAR_STATUS.RELAY_SHORT).publish (.chan c .relayShort) 0
    else if s.chans[c].relayDark then (s.pipeNow c).updChan c (fun x => { x with relayDark := false })
    else s) s

/-! ### Lanes (R13 to R16, R417) -/

/-- The number of a lane in the ledger's record of a swap (R404): the return lanes follow 128 (DESIGN CHOICE, log entry 12). -/
def laneNumber (ret : Bool) (lane : Nat) : Nat := (if ret then 128 else 0) + lane

/-- A link is lost (R16, R31): its event, and the form of a Lamp–Dome or of the Dome–Dome link. -/
def State.loseLink (s : State) (l : LinkId) : State :=
  if s.links[l].lost then s
  else
    let s := (s.updLink l (fun x => { x with lost := true, swapping := none, queued := [] })).linkEvent l
    let s := match linkKind l with
      | .lampDome _ _ => s.enterForm 3
      | .domes => s.enterForm 4
      | _ => s
    s.relayCheck

/-- A lane fails with no spare left in its direction (R16): half width while enough healthy lanes remain, else the link is lost. -/
def State.narrowLink (s : State) (l : LinkId) (ret : Bool) : State :=
  let s := s.updDir l ret (fun x => { x with missing := x.missing + 1 })
  let (lanes, _, half) := linkLanes l ret
  if lanes < half + s.links[l].dirs[dirOf ret].missing then s.loseLink l
  else if s.links[l].narrow then s
  else
    let s := (s.updLink l (fun x => { x with narrow := true })).linkEvent l
    let s := match linkKind l with
      | .lampDome _ _ => s.enterForm 2
      | _ => s
    s.relayCheck

/-- A lane declared bad: a swap begins where a spare is left, after a swap in progress (R14, R15). -/
def State.laneBad (s : State) (l : LinkId) (ret : Bool) (lane : Nat) : State :=
  let s := s.updDir l ret (fun x => { x with bad := x.bad ++ [lane], replays := x.replays.filter (fun r => r.1 ≠ lane) })
  if (linkLanes l ret).2.1 ≤ s.links[l].dirs[dirOf ret].spares then s.narrowLink l ret
  else s.updLink l (fun x => if x.swapping.isNone then { x with swapping := some (ret, lane) } else { x with queued := x.queued ++ [(ret, lane)] })

/-- A flit with a CRC error is replayed; a lane that causes three replays within 1 ms is declared bad (R13, R14). -/
def State.crcError (s : State) (l : LinkId) (ret : Bool) (lane : Nat) : State :=
  if s.links[l].lost ∨ lane ∈ s.links[l].dirs[dirOf ret].bad then s
  else
    let s := s.updDir l ret (fun x => { x with replays := x.replays.filter (fun r => s.clock.now < r.2 + qMs) ++ [(lane, s.clock.now)] })
    if 3 ≤ (s.links[l].dirs[dirOf ret].replays.filter (fun r => r.1 == lane)).length then s.laneBad l ret lane else s

/-- The next of the swaps that wait begins; each for which no spare is left narrows the link instead (R15, R16). -/
def State.nextSwap (s : State) (l : LinkId) : State :=
  s.links[l].queued.foldl (fun (s : State) w =>
    if s.links[l].lost then s
    else if s.links[l].swapping.isSome then s.updLink l (fun x => { x with queued := x.queued ++ [w] })
    else if (linkLanes l w.1).2.1 ≤ s.links[l].dirs[dirOf w.1].spares then s.narrowLink l w.1
    else s.updLink l (fun x => { x with swapping := some w })) (s.updLink l (fun x => { x with swapping := none, queued := [] }))

/-- The spare lane has trained, or failed (R14, R15, R417): swapped in, counted, published and recorded; or the next spare is tried, and with none left the link narrows. -/
def State.swapDone (s : State) (l : LinkId) (ret : Bool) (trained : Bool) : State :=
  match s.links[l].swapping with
  | none => s
  | some (r, lane) =>
    if r ≠ ret then s
    else
      let spare := s.links[l].dirs[dirOf ret].spares
      let s := s.updDir l ret (fun x => { x with spares := x.spares + 1 })
      if trained then
        let s := ((s.updLink l (fun x => { x with swaps := x.swaps + 1 })).linkEvent l).logLedger 5 (linkDies l).1.val l.val (laneNumber ret lane * 0x100 + spare)
        (s.enterForm 1).nextSwap l
      else if spare + 1 < (linkLanes l ret).2.1 then s
      else (s.narrowLink l ret).nextSwap l

/-! ### The commands -/

def execFlitCrcError (l : LinkId) (ret : Bool) (lane : Nat) (s : State) : Host.Outcome State Fault Refusal := s.act [(linkDies l).1, (linkDies l).2] (·.crcError l ret lane)
def execLaneSwapDone (l : LinkId) (ret : Bool) (trained : Bool) (s : State) : Host.Outcome State Fault Refusal := s.act [(linkDies l).1, (linkDies l).2] (·.swapDone l ret trained)
/-! A channel that comes to another entry draws other traffic: the relay budget is settled again (R32). -/
def execEntryRead (c : ChanId) (entry : Nat) (ecc mirror : Ecc) (s : State) : Host.Outcome State Fault Refusal :=
  s.act [Die.ofLamp (lampOf c)] (fun s => (s.entryRead c entry ecc mirror).relayCheck)
def execSwapTake (c : ChanId) (s : State) : Host.Outcome State Fault Refusal := s.act [Die.ofLamp (lampOf c)] (fun s => (s.swapReached c).relayCheck)
def execIterationEnd (c : ChanId) (s : State) : Host.Outcome State Fault Refusal := s.act [Die.ofLamp (lampOf c)] (fun s => (s.endIteration c).relayCheck)
def execStartInstant (c : ChanId) (dark : Nat) (s : State) : Host.Outcome State Fault Refusal := s.act [Die.ofLamp (lampOf c)] (fun s => (s.startNow c dark).relayCheck)
def execJumpTake (c : ChanId) (s : State) : Host.Outcome State Fault Refusal := s.act [Die.ofLamp (lampOf c)] (fun s => (s.jumpReached c).relayCheck)

end Sys2Proof.Machine
end

