-- ==== Sys2Proof/Machine/Outputs.lean ====
section
/-! DEFINITION. Analog outputs, dark code, range changes, markers, bias lines and the lookout (spec 06_outputs.md R158 to R189). -/
namespace Sys2Proof.Machine
open Sys2Proof

/-! ### The dark code and DARK_N (R161 to R165) -/

/-- The channels of a Lamp die, and its bias lines. -/
def chansOfLamp (n : LampId) : List ChanId := (List.finRange 4).map (chanOfLamp n)
def linesOfLamp (n : LampId) : List BiasId := (List.finRange 8).map (biasOfLamp n)

/-- The dark code of a channel from its fuses, 0x8000 where they are not programmed, as OUT_DARK reports it (R161). -/
def State.darkWord (s : State) (c : ChanId) : Word :=
  match s.sec.darkFuses[c] with
  | some v => OUT_DARK.FUSED.put (OUT_DARK.CODE.put 0 v.toNat) 1
  | none => OUT_DARK.CODE.put 0 0x8000

/-- The DAC supplies of a Lamp die become valid: the dark-code fuses of its channels are read (R161, R165). -/
def State.dacValid (s : State) (n : LampId) : State :=
  (chansOfLamp n).foldl (fun s c => s.wr (.outDark c) (s.darkWord c)) { s with power := { s.power with dac := s.power.dac.set n true, litOnce := s.power.litOnce.set n false } }

/-- Lamp dies in service. -/
def State.lampsUp (s : State) : List LampId := (List.finRange 4).filter (fun n => s.dieUp (Die.ofLamp n))

/-- The granule of a Lamp up to which DARK_N has held it dark (R163). -/
def State.darkUpTo (s : State) (n : LampId) : Nat := if s.power.darkN then min (s.gran n) s.power.darkEnd[n] else s.gran n

/-- The granules a Lamp's channels have been held dark, as far as they are not yet counted, join OUT_DARKN_GRAN (R163). -/
def State.darkCount (s : State) (n : LampId) : State :=
  let g := s.darkUpTo n
  let more := g - s.power.darkFrom[n]
  let s := if more = 0 then s else (chansOfLamp n).foldl (fun s c => s.bumpBy (.outDarknGran c) OUT_DARKN_GRAN.GRANULES more) s
  { s with power := { s.power with darkFrom := s.power.darkFrom.set n (max g s.power.darkFrom[n]) } }

/-- The falling edge of DARK_N (R163): DARK_N_SEEN on every channel, and the event of each Lamp. -/
def State.darkFall (s : State) : State :=
  if s.power.darkN then
    let s := (List.finRange 4).foldl State.darkCount s
    let s := { s with power := { s.power with darkN := false, darkFrom := s.clock.gran } }
    s.lampsUp.foldl (fun s n =>
      ((chansOfLamp n).foldl (fun s c => s.raise (.outStatus c) OUT_STATUS.DARK_N_SEEN) s).publish (.darkN n) 2) s
  else s

/-- The rising edge of DARK_N (R163): on each Lamp the condition ends at a granule edge at most 4 gc later; which of them is a free value. -/
def State.darkRise (s : State) : State :=
  if s.power.darkN then s
  else
    let s := (List.finRange 4).foldl (fun (s : State) (n : LampId) =>
      let (v, s) := s.fresh
      { s with power := { s.power with darkEnd := s.power.darkEnd.set n (s.gran n + 1 + (if s.clock.runs[n] then v.toNat % 4 else 0)) } }) s
    { s with power := { s.power with darkN := true } }

/-- DARK_N holds the outputs and the markers of a Lamp now (R163). -/
def State.darkHeld (s : State) (n : LampId) : Bool := !s.power.darkN || decide (s.gran n < s.power.darkEnd[n])
/-- Not LIT since the DAC supplies of a Lamp became valid, or SHUTTERED (R162). -/
def State.notLit (s : State) (n : LampId) : Bool := !s.power.litOnce[n] || s.pwr != 3
/-- The sample clock of a Lamp switches, or has none (R211, R213). -/
def State.clockDark (s : State) (n : LampId) : Bool :=
  s.clock.switching[(⟨n.val, by omega⟩ : Fin 10)] || s.clock.dead[(⟨n.val, by omega⟩ : Fin 10)] || decide (s.gran n < s.clock.foEnd[n])
/-- The 4 gc of dark code of a step at SYNC or a forced SYNC are being shown (R198, R204). -/
def State.syncDarkNow (s : State) (c : ChanId) : Bool := decide (c ∈ s.clock.syncOn) && decide (s.granC c < s.clock.syncDark[lampOf c])
/-- The granule at the play position plays dark: a prime gap or a late granule, a relay shortage, a segment on a lost Dome or poisoned, a substituted stream granule under FILL DARK, or under HOLD where
the granule before the gap was dark (R32, R34, R57, R59, R146, R310). -/
def State.granuleDark (s : State) (c : ChanId) : Bool :=
  let t := s.playPos c
  s.chans[c].st == .playing
  && (match (s.pieces c (t + 1)).find? (fun p => decide (p.start ≤ t ∧ t < p.stop)) with
    | some p => s.granuleMissing c c p t || (match p.hold with
      | some st => let y := (s.pipeNow c).chans[c].pipe; (((y.held.lookup st).getD (y.line.take 32)).head?).join.isNone
      | none => false)
    | none => false)

/-- OUT_STATE.DARK_SRC (R162, R187), from bit 2 up. -/
def State.darkSrc (s : State) (c : ChanId) : Nat :=
  let w := s.walkerOf c
  (if s.notLit (lampOf c) then 1 else 0) + (if s.chans[w].st ≠ .playing then 2 else 0) + (if s.granuleDark w then 4 else 0)
  + (if s.chans[c].changes.any (fun x => decide (x.first ≤ s.sampleNow c)) then 8 else 0) + (if s.darkHeld (lampOf c) then 16 else 0) + (if s.clockDark (lampOf c) then 32 else 0)

/-! ### The balls (R105, R158, R159) -/

/-- The sample of a Lamp's granule count × 32 that leaves the balls of a channel at sample `u` of that count: the one of Lg gc before (R105). -/
def State.ballAt (s : State) (c : ChanId) (u : Nat) : Nat := u - 32 * s.lg c

/-- The hand-off value of sample `u` of the Lamp's granule count × 32; none where it plays dark, before the first sample of the walk, and of samples that have not passed the pipeline or left it long ago (R105, R162). -/
def State.handOff (s : State) (c : ChanId) (u : Nat) : Option Int :=
  let y := s.chans[c].pipe
  let first := 32 * s.chans[s.walkerOf c].startGran
  if u < first ∨ y.done ≤ u - first then none else (y.line[y.done - 1 - (u - first)]?).join

/-- The conditions that act at the DAC stage hold (R162). -/
def State.stageDark (s : State) (c : ChanId) : Bool :=
  s.notLit (lampOf c) || s.darkHeld (lampOf c) || s.clockDark (lampOf c) || s.syncDarkNow c

/-- The code the DAC stage of a powered channel holds for sample `u` of the Lamp's granule count × 32 (R158, R162). -/
def State.codeAt (s : State) (c : ChanId) (u : Nat) : Nat :=
  if s.stageDark c then s.fld (.outDark c) OUT_DARK.CODE
  else match (s.pipeNow (s.walkerOf c)).handOff c u with
    | some z => dacCode z
    | none => s.fld (.outDark c) OUT_DARK.CODE

/-- The code at a channel's balls now (R158, R165); none without DAC supplies, and in LAID-UP. -/
def State.ballCode (s : State) (c : ChanId) : Option Nat :=
  if ¬ s.power.dac[lampOf c] ∨ s.pwr = 1 then none else some (s.codeAt c (s.ballAt c (s.sampleNow c)))

/-- IFS in mA: 16 in range x1, 32 in range x2 (R158, R159). -/
def ifsOf (x2 : Bool) : Nat := if x2 then 32 else 16
/-- I_P and I_N of a code, in mA / 65,535 (R158). -/
def currents (x2 : Bool) (d : Nat) : Nat × Nat := (ifsOf x2 * d, ifsOf x2 * (65535 - d))

/-- The changes of a channel's range that have begun or ended and may not have reached the balls, oldest first. -/
def Chan.rangeMoves (x : Chan) : List RangeChange := x.gainMoves ++ x.changes
/-- The gain at sample `u` of the Lamp's granule count × 32: each change switches it Nh granules after its first sample (R166). -/
def Chan.gainAt (x : Chan) (u : Nat) : Bool := x.rangeMoves.foldl (fun g r => if r.switched && decide (r.first + 32 * r.nh ≤ u) then r.range else g) x.gainBase
/-- The currents at a channel's balls now, in mA / 65,535 (R158, R165, R166). -/
def State.ballCurrents (s : State) (c : ChanId) : Option (Nat × Nat) :=
  (s.ballCode c).map (currents (s.chans[c].gainAt (s.ballAt c (s.sampleNow c))))

/-! ### Range changes (R166 to R168) -/

/-- The gain switches Nh granules after the change's first sample. -/
def State.gainSwitch (s : State) (c : ChanId) : State :=
  match s.chans[c].changes with
  | x :: rest =>
    if x.switched then s
    else (s.reachGranC c (ceilDiv (x.first + 32 * x.nh) 32)).updChan c (fun y => { y with range := x.range, changes := { x with switched := true } :: rest })
  | [] => s

/-- The samples a change discards: 64 × Nh, of which those before the start of a starting commit's channel were never played (R166, R167). -/
def State.discarded (s : State) (c : ChanId) (x : RangeChange) : Nat :=
  let stop := x.first + 64 * x.nh
  if x.atStart then (if s.chans[s.walkerOf c].st = .priming then 0 else min (64 * x.nh) (stop - 32 * s.chans[s.walkerOf c].startGran)) else 64 * x.nh

/-- A change that has ended at the play position is kept until the last of it has left the balls, at sample `u` of the Lamp's granule count × 32. -/
def Chan.rangeEnds (y : Chan) (x : RangeChange) (rest : List RangeChange) (u : Nat) : Chan :=
  { y with
    gainBase := y.gainAt u
    gainMoves := (y.gainMoves ++ [x]).filter (fun r => decide (u < r.first + 64 * r.nh))
    changes := rest }

/-- The output resumes 2 × Nh granules after the change's first sample: the samples are counted, RANGE_DONE is set and published. -/
def State.rangeDone (s : State) (c : ChanId) : State :=
  match s.chans[c].changes with
  | x :: rest =>
    if x.switched then
      let s := (s.reachGranC c (ceilDiv (x.first + 64 * x.nh) 32)).pipeNow (s.walkerOf c)
      let u := s.ballAt c (s.sampleNow c)
      let s := (s.bumpBy (.outDiscard c) OUT_DISCARD.SAMPLES (s.discarded c x)).updChan c (fun y => y.rangeEnds x rest u)
      (s.raise (.outStatus c) OUT_STATUS.RANGE_DONE).publish (.chan c .rangeDone) (if x.range then 1 else 0)
    else s
  | [] => s

/-! ### Markers (R169 to R172) -/

/-- The markers of a Lamp are forced inactive in their drivers: DARK_N, or the part not LIT (R163 to R165, R169). -/
def State.markersForced (s : State) (n : LampId) : Bool := s.darkHeld n || s.notLit n

/-- The level a marker's source gives it now, which its Transit tap sees (R164, R169, R170, R172). -/
def State.markerTapped (s : State) (c : ChanId) (mk : Fin 2) : Bool :=
  let m := s.chans[c].markers[mk]
  (m.at_ (s.ballAt c (s.sampleNow c))).level m.inForce.src

/-- The logical level of a marker (R163 to R165, R169). -/
def State.markerLevel (s : State) (c : ChanId) (mk : Fin 2) : Bool := !s.markersForced (lampOf c) && s.markerTapped c mk

/-- The level of a marker's _P ball (R165, R169): the logical level through the polarity in force; _N is the opposite. Neither drives without the supplies of R442, and in LAID-UP. -/
def State.markerPin (s : State) (c : ChanId) (mk : Fin 2) : Option Bool :=
  if ¬ s.power.dac[lampOf c] ∨ s.pwr = 1 then none else some (s.markerLevel c mk != s.chans[c].markers[mk].inForce.pol)

/-- The settings of a marker as its registers hold them. -/
def State.markerRegs (s : State) (c : ChanId) (mk : Fin 2) : MarkerSetting :=
  if mk = 0 then ⟨s.fld (.outMkDelay c) OUT_MK_DELAY.MKA, s.isSet (.outCtrl c) OUT_CTRL.MKA_POL, s.fld (.outCtrl c) OUT_CTRL.MKA_SRC⟩
  else ⟨s.fld (.outMkDelay c) OUT_MK_DELAY.MKB, s.isSet (.outCtrl c) OUT_CTRL.MKB_POL, s.fld (.outCtrl c) OUT_CTRL.MKB_SRC⟩

/-- The edges of a marker that are on their way to its tap, by its settings in force (R172). -/
def State.retap (s : State) (c : ChanId) (mk : Fin 2) : State :=
  let m := s.chans[c].markers[mk]
  let now := s.ballAt c (s.sampleNow c)
  let s : State := { s with taps := s.taps.filter (fun e => e.input ≠ markerTap c mk ∨ e.time ≤ s.clock.now) }
  ((m.moves.filter (fun v => decide (now < v.1))).foldl (fun (a : Bool × State) v =>
    let new := v.2.level m.inForce.src
    (new, if new = a.1 then a.2 else a.2.tapEdge (markerTap c mk) a.1 (a.2.leaveTime c v.1 m.inForce.delay))) ((m.at_ now).level m.inForce.src, s)).2

/-- A marker takes a written setting at the first sample at which it is inactive (R171). -/
def State.markerSettle (s : State) (c : ChanId) (mk : Fin 2) : State :=
  match s.chans[c].markers[mk].waiting with
  | some m =>
    if s.markerLevel c mk then s
    else
      let was := s.markerTapped c mk
      let s := (s.updChan c (fun x => { x with markers := x.markers.set mk { x.markers[mk] with inForce := m, waiting := none } })).retap c mk
      if s.markerTapped c mk = was then s else s.tapEdge (markerTap c mk) was s.clock.now
  | none => s

/-- A write to OUT_CTRL or OUT_MK_DELAY reaches the die: a changed setting waits, and takes effect at once where the marker is inactive (R171). -/
def State.markersWritten (s : State) (c : ChanId) : State :=
  (List.finRange 2).foldl (fun s mk =>
    let m := s.markerRegs c mk
    let x := s.chans[c].markers[mk]
    if m = x.waiting.getD x.inForce then s
    else (s.updChan c (fun x => { x with markers := x.markers.set mk { x.markers[mk] with waiting := some m } })).markerSettle c mk) s

/-! ### Bias lines (R173 to R180) -/

/-- The BIAS domain of a line's die is ON. -/
def State.biasOn (s : State) (n : LampId) : Bool := s.domainOn (domBias n) && !s.dieLost[Die.ofLamp n]
/-- TICK, clamped to 64 at least (R188). -/
def State.tickOf (s : State) (n : LampId) : Nat := max 64 (s.fld (.biasCommon n) BIAS_COMMON.TICK)
/-- PERIOD and LEN: 0 encodes 4,096 and 1,024. -/
def State.biasPeriod (s : State) (b : BiasId) : Nat := let p := s.fld (.biasCtrl b) BIAS_CTRL.PERIOD; if p = 0 then 4096 else p
def State.biasLen (s : State) (b : BiasId) : Nat := let l := s.fld (.biasCtrl b) BIAS_CTRL.LEN; if l = 0 then 1024 else l
/-- A pattern entry: 0 where nothing has been written. -/
def BiasLine.entry (x : BiasLine) (i : Nat) : Nat := (x.mem.lookup i).getD 0
/-- The line's event, gated by EV_EN; its information word is BIAS_STATUS (R254). -/
def State.biasEvent (s : State) (b : BiasId) : State :=
  if s.isSet (.biasCtrl b) BIAS_CTRL.EV_EN then s.publish (.biasLine b) (s.rd (.biasStatus b)).toNat else s
/-- BIAS_QFILL follows the queue. -/
def State.biasFill (s : State) (b : BiasId) : State := s.setFld (.biasQfill b) BIAS_QFILL.FILL s.bias[b].queue.length

/-- The level a line drives, none at high impedance (R173, R178, R180). -/
def State.biasLevel (s : State) (b : BiasId) : Option Nat := if s.bias[b].drives && s.biasOn (lampOfBias b) && s.power.resetN then some s.bias[b].shown else none

/-- The sample of a class replaces the target of a line; SLEW_LIMITED where that is not yet reached (R176). So too where it is the target of a HOLD before, which the spec does not call a sample (DESIGN CHOICE, log
entry 125). -/
def State.biasSample (s : State) (b : BiasId) (v : Nat) : State :=
  let s := if s.isSet (.biasStatus b) BIAS_STATUS.SLEWING then s.raise (.biasStatus b) BIAS_STATUS.SLEW_LIMITED else s
  s.updBias b (fun x => { x with target := v })

/-- The sample of QUEUE due at tick `index`: the oldest unread entry, or none, which is flagged and published (R177). -/
def State.biasQueue (s : State) (b : BiasId) (index : Nat) : State :=
  if index % s.biasPeriod b ≠ 0 then s
  else match s.bias[b].queue with
    | v :: rest => ((s.updBias b (fun x => { x with queue := rest })).biasSample b v).biasFill b
    | [] => (s.raise (.biasStatus b) BIAS_STATUS.QUEUE_EMPTY).biasEvent b

/-- The sample of CYCLE due at tick `index`: entry 0 at the first multiple of PERIOD × LEN, and then the next entry every PERIOD ticks (R177). -/
def State.biasCycle (s : State) (b : BiasId) (index : Nat) : State :=
  let p := s.biasPeriod b
  let l := s.biasLen b
  if index % p ≠ 0 then s
  else if index % (p * l) = 0 then (s.biasSample b (s.bias[b].entry 0)).updBias b (fun x => { x with synced := true, cycle := 1 % l })
  else if s.bias[b].synced then (s.biasSample b (s.bias[b].entry (s.bias[b].cycle % l))).updBias b (fun x => { x with cycle := (x.cycle + 1) % l })
  else s

/-- The target of a line at tick `index` by its class (R174, R177). -/
def State.biasTarget (s : State) (b : BiasId) (index : Nat) : State :=
  match s.fld (.biasCtrl b) BIAS_CTRL.CLASS with
  | 1 => s.updBias b (fun x => { x with target := s.fld (.biasLevel b) BIAS_LEVEL.LEVEL })
  | 2 => s.biasQueue b index
  | 3 => s.biasCycle b index
  | _ => s

/-- A code moved toward a target by at most `slew` codes; 0 sets no limit (R176). -/
def slewed (code target slew : Nat) : Nat :=
  if slew = 0 then target else if code < target then min target (code + slew) else max target (code - slew)

/-- The level a line shows once its code changes or a tick finds it unchanged (R178): the deglitcher holds the level before for 300 ns, and then tracks the code. -/
def BiasLine.shows (x : BiasLine) (code now : Nat) (deglitch : Bool) : BiasLine :=
  let held := x.holding && decide (now < x.movedAt + 300 * qNs)
  let before := if x.holding && !held then x.code else x.shown
  let moves := code != x.code
  let hold := deglitch && !x.first && (moves || held)
  { x with
    drives := true
    first := false
    code := code
    holding := hold
    movedAt := if moves || x.first then now else x.movedAt
    shown := if hold then before else code }

/-- The output code of a line moves toward its clamped target; the first target after OFF is driven at once (R176, R179). Where BIAS_CLAMP_LO lies above BIAS_CLAMP_HI the high clamp stands (DESIGN CHOICE, log
entry 126: the spec states no result). -/
def State.biasMove (s : State) (b : BiasId) : State :=
  let lo := s.fld (.biasClampLo b) BIAS_CLAMP_LO.LO
  let hi := s.fld (.biasClampHi b) BIAS_CLAMP_HI.HI
  let x := s.bias[b]
  let target := min hi (max lo x.target)
  let s := if target = x.target then s else (s.bump (.biasClamped b) BIAS_CLAMPED.COUNT).raise (.biasStatus b) BIAS_STATUS.CLAMPED
  let code := if x.first then target else slewed x.code target (s.fld (.biasSlew b) BIAS_SLEW.SLEW)
  let s := s.updBias b (fun x => x.shows code s.clock.now (s.isSet (.biasCtrl b) BIAS_CTRL.DEGLITCH))
  (s.setFld (.biasNow b) BIAS_NOW.CODE code).setFlag (.biasStatus b) BIAS_STATUS.SLEWING (code != target)

/-- One line at a bias tick (R176, R179): a line in OFF goes to high impedance; one that leaves OFF starts from BIAS_LEVEL. -/
def State.biasLineTick (s : State) (b : BiasId) (index : Nat) : State :=
  if s.fld (.biasCtrl b) BIAS_CTRL.CLASS = 0 then
    (s.updBias b BiasLine.highZ).setFld (.biasStatus b) BIAS_STATUS.SLEWING 0
  else
    let s := if s.bias[b].first then s.updBias b (fun x => { x with target := s.fld (.biasLevel b) BIAS_LEVEL.LEVEL }) else s
    (s.biasTarget b index).biasMove b

/-- The next bias tick of a die (R175): TICK granules after the one before; a period newly written takes effect there, with the index at 0. -/
def State.biasTickNow (s : State) (n : LampId) : State :=
  if ¬ s.biasOn n ∨ ¬ s.clock.runs[n] then s
  else
    let k := s.biasBlk[n]
    let t := k.base + k.index * k.tick
    let s := s.reachGran n t
    let k : BiasBlock := if s.tickOf n = k.tick then k else { tick := s.tickOf n, index := 0, base := t }
    let s := (linesOfLamp n).foldl (fun s b => s.biasLineTick b k.index) s
    { s with biasBlk := s.biasBlk.set n { k with index := k.index + 1 } }

/-- A SYNC restarts the tick index of a die at granule `g` of its count (R175). -/
def State.biasRestart (s : State) (n : LampId) (g : Nat) : State := { s with biasBlk := s.biasBlk.set n { tick := s.tickOf n, index := 0, base := g } }

/-- The deglitcher tracks the new level 300 ns after the code changed (R178). -/
def State.deglitch (s : State) (b : BiasId) : State :=
  if s.bias[b].holding then (s.reachTime (s.bias[b].movedAt + 300 * qNs)).updBias b (fun x => { x with shown := x.code, holding := false }) else s

/-- A write to BIAS_PDATA (R177): one store at ADDR, which advances; in QUEUE it enters the queue, unless that is full. -/
def State.pdataWrite (s : State) (b : BiasId) (v : Nat) : State :=
  let queue := s.fld (.biasCtrl b) BIAS_CTRL.CLASS == 2
  if queue && decide (1024 ≤ s.bias[b].queue.length) then s.raise (.biasStatus b) BIAS_STATUS.QUEUE_FULL
  else
    let a := s.fld (.biasPaddr b) BIAS_PADDR.ADDR
    let s := s.updBias b (fun x => { x with mem := (a, v) :: x.mem.filter (fun p => p.1 ≠ a), queue := if queue then x.queue ++ [v] else x.queue })
    (s.setFld (.biasPaddr b) BIAS_PADDR.ADDR ((a + 1) % 1024)).biasFill b

/-- A write to BIAS_CTRL (R177, R179): a line newly in QUEUE begins with an empty queue, one newly in CYCLE waits for the start of a cycle. -/
def State.biasClassWritten (s : State) (b : BiasId) (old : Nat) : State :=
  if s.fld (.biasCtrl b) BIAS_CTRL.CLASS = old then s else (s.updBias b (fun x => { x with queue := [], synced := false, cycle := 0 })).biasFill b

/-! ### The lookout (R181 to R186) -/

/-- The lookout of a die compares: enabled, its domain ON, its sample clock running, not stopped by the reference check (R182). -/
def State.lookRuns (s : State) (n : LampId) : Bool :=
  s.clock.runs[n] && s.isSet (.lookCtrl n) LOOK_CTRL.EN && s.domainOn (domLook n) && !s.dieLost[Die.ofLamp n] && !s.looks[n].stopped
/-- Frames per block, clamped (R189). -/
def State.blockFrames (s : State) (n : LampId) : Nat := min 32 (max 8 (s.fld (.lookCtrl n) LOOK_CTRL.BLOCK))

/-- The step of the 16-bit maximal LFSR: x^16 + x^14 + x^13 + x^11 + 1 (DESIGN CHOICE, log entry 127: the spec states no polynomial). -/
def lfsr16 (x : BitVec 16) : BitVec 16 := (x >>> 1) ^^^ (if x.getLsbD 0 then 0xB400 else 0)

/-- The place in the frames after one measurement: a slot to a gc, 34 to a frame; every 64 frames one CH slot is the reference; the LFSR steps (R181, R182). -/
def Lookout.next (x : Lookout) (g : Nat) : Lookout :=
  let x := { x with gran := g + 1, lfsr := lfsr16 x.lfsr }
  if x.slot < 33 then { x with slot := x.slot + 1 } else { x with slot := 0, frame := (x.frame + 1) % 4, self := (x.self + 1) % 64, inBlock := x.inBlock + 1 }

/-- A skipped measurement (R182). -/
def State.lookSkip (s : State) (n : LampId) : State := s.bump (.lookSkipped n) LOOK_SKIPPED.COUNT

/-- The reference check (R182): beyond ±0.5 % of the nominal value, comparisons stop. -/
def State.lookSelf (s : State) (n : LampId) (measured : Int) : State :=
  if (measured - 100000).natAbs ≤ 500 then s
  else ((s.updLook n (fun x => { x with stopped := true })).raise (.lookStatus n) LOOK_STATUS.SELF_FAIL).publish (.selfFail n) (2 ^ 12)

/-- A CH measurement at sample `u` of the Lamp's granule count × 32 is skipped (R182): in a range change, a failover of the sample clock, the 4 gc after the end of DARK_N, or with a domain OFF. -/
def State.lookChanSkips (s : State) (c : ChanId) (u : Nat) : Bool :=
  let n := lampOf c
  s.chans[c].rangeMoves.any (fun r => decide (r.first ≤ u ∧ u < r.first + 64 * r.nh)) || s.clockDark n
  || (s.power.darkN && decide (0 < s.power.darkEnd[n] ∧ s.power.darkEnd[n] ≤ s.gran n ∧ s.gran n < s.power.darkEnd[n] + 4))
  || !s.domainOn (domChan c) || !s.domainOn (domDac c)

/-- The value a model expects, in 1/256 code steps of a range, of the codes at the sample before, the sample and the one after (R182). -/
def LookModel.expects (m : LookModel) (x2 : Bool) (before here after : Nat) : Int :=
  let i : Fin 2 := if x2 then 1 else 0
  roundDiv (256 * m.gain[i] * (m.before * before + m.here * here + m.after * after)) (2 ^ 32) + m.offset[i]

/-- A CH measurement, in 1/256 code steps of the range in force, of the sample that the low 5 bits of the LFSR choose of the granule at the balls (R181, R182): the residual against what the model expects. -/
def State.lookChan (s : State) (c : ChanId) (place : Nat) (measured : Int) : State :=
  let u := s.ballAt c (s.sampleNow c + place)
  if s.lookChanSkips c u then s.lookSkip (lampOf c)
  else
    let m := s.looks[lampOf c].models[(⟨c.val % 4, by omega⟩ : Fin 4)]
    let here := s.codeAt c u
    let expected := m.expects (s.chans[c].gainAt u) (s.codeAt c (u - 1)) here (s.codeAt c (u + 1))
    s.updLook (lampOf c) (fun x => { x with samples := x.samples ++ [⟨c, here, measured - expected⟩] })

/-- A bias measurement is skipped: within 1 µs after an update of the line, or with its domain OFF (R182). -/
def State.lookBiasSkips (s : State) (b : BiasId) : Bool :=
  !s.biasOn (lampOfBias b) || decide (s.clock.now < s.bias[b].movedAt + qUs ∧ 0 < s.bias[b].movedAt)

/-- A bias measurement against the line's present code; four in a row beyond the threshold are a deviation (R182, R186). -/
def State.lookBiasLine (s : State) (b : BiasId) (measured : Int) : State :=
  let n := lampOfBias b
  if s.lookBiasSkips b then s.lookSkip n
  else
    let r := measured - (s.bias[b].code : Int)
    let beyond := decide (r.natAbs > s.fld (.lookBiasThr n) LOOK_BIAS_THR.THR)
    let s := (s.setFld (.lookBias b) LOOK_BIASj.RESIDUAL (ofSigned 24 r)).updBias b (fun x => { x with devs := if beyond then x.devs + 1 else 0 })
    if 4 ≤ s.bias[b].devs then
      (s.wr (.lookStatus n) (s.rd (.lookStatus n) ||| BitVec.ofNat 32 (2 ^ (4 + b.val % 8)))).publish (.biasDev n) (2 ^ (4 + b.val % 8))
    else s

/-- One measurement of the lookout, in the gc of its slot (R181, R182). -/
def State.lookMeasure (s : State) (n : LampId) (measured : Int) : State :=
  if ¬ s.lookRuns n then s
  else
    let x := s.looks[n]
    let s := s.reachGran n x.gran
    let s := s.updLook n (fun y => y.next (s.gran n))
    if x.slot = 0 ∧ x.self = 63 then s.lookSelf n measured
    else if x.slot < 32 then s.lookChan (chanOfLamp n (Fin.ofNat 4 x.slot)) (x.lfsr.toNat % 32) measured
    else s.lookBiasLine (biasOfLamp n (Fin.ofNat 8 (2 * x.frame + (x.slot - 32)))) measured

/-- Residuals of a channel over a block. -/
def Lookout.residuals (x : Lookout) (c : ChanId) : List Int := (x.samples.filter (fun p => p.chan == c)).map (·.residual)

/-- The square root rounded down, by bisection over the bits from `k` down. -/
def sqrtBits (n : Nat) : Nat → Nat → Nat
  | 0, acc => acc
  | k + 1, acc => if (acc + 2 ^ k) * (acc + 2 ^ k) ≤ n then sqrtBits n k (acc + 2 ^ k) else sqrtBits n k acc
def natSqrt (n : Nat) : Nat := sqrtBits n 80 0

/-- The block test of a channel (R183): mean and rms residual in 1/256 steps, each against its threshold. -/
def State.blockTest (s : State) (c : ChanId) : State :=
  let n := lampOf c
  let rs := s.looks[n].residuals c
  if rs = [] then s
  else
    let sum := rs.sum
    let sq := (rs.map (fun r => r.natAbs * r.natAbs)).sum
    let k := rs.length
    let s := (s.setFld (.lookMean c) LOOK_MEANc.MEAN (ofSigned 32 (roundDiv sum k))).setFld (.lookRms c) LOOK_RMSc.RMS (natSqrt (sq / k))
    let tm := 256 * s.fld (.lookThr n) LOOK_THR.MEAN
    let tr := 256 * s.fld (.lookThr n) LOOK_THR.RMS
    if sum.natAbs > tm * k ∨ sq > tr * tr * k then
      let s := (s.wr (.lookStatus n) (s.rd (.lookStatus n) ||| BitVec.ofNat 32 (2 ^ (c.val % 4)))).raise (.outStatus c) OUT_STATUS.LOOK_FAIL
      s.publish (.chan c .lookFail) 0
    else s

/-- The cell with the largest estimate and its estimate. -/
def worstCell (es : List Int) : Nat × Int :=
  (es.zipIdx).foldl (fun (a : Nat × Int) p => if a.2.natAbs < p.1.natAbs then (p.2, p.1) else a) (0, 0)

/-- The mean residual of the samples of a channel whose code has thermometer level `t`, bits [15:10] (R160): none where none was measured. -/
def Lookout.levelMean (x : Lookout) (c : ChanId) (t : Nat) : Option Int :=
  match (x.samples.filter (fun p => p.chan == c && p.code / 1024 == t)).map (·.residual) with
  | [] => none
  | rs => some (roundDiv rs.sum rs.length)

/-- The levels measured in a block with their mean residuals, lowest first. -/
def Lookout.levels (x : Lookout) (c : ChanId) : List (Nat × Int) := (List.range 64).filterMap (fun t => (x.levelMean c t).map (fun m => (t, m)))

/-- What a block says of unary cell `k`, which is on at the levels above `k` (R184): the least squares regression of the residuals on the thermometer pattern with a constant gives the cells between two neighbouring
levels measured the difference of their means, which they share alike; none of a cell no two levels differ in (DESIGN CHOICE, log entry 128: the spec names no form of the regression). -/
def cellOfBlock (levels : List (Nat × Int)) (k : Nat) : Option Int :=
  match (levels.filter (fun p => decide (p.1 ≤ k))).getLast?, levels.find? (fun p => decide (k < p.1)) with
  | some lo, some hi => some (roundDiv (hi.2 - lo.2) (hi.1 - lo.1))
  | _, _ => none

/-- The estimates of the unary cells after a block, in 1/256 code steps: each averaged with weight 1/16 for the new block (R184). -/
def State.cellEstimates (s : State) (c : ChanId) : State :=
  let i : Fin 4 := ⟨c.val % 4, by omega⟩
  let x := s.looks[lampOf c]
  let levels := x.levels c
  let es := (List.range 63).map (fun k =>
    let o := x.cells[i].getD k 0
    match cellOfBlock levels k with
    | some e => o + roundDiv (e - o) 16
    | none => o)
  let (cell, est) := worstCell es
  let s := s.updLook (lampOf c) (fun x => { x with cells := x.cells.set i es })
  (s.setFld (.lookCell c) LOOK_CELLc.CELL cell).setFld (.lookCell c) LOOK_CELLc.ESTIMATE (ofSigned 16 (saturate16 (roundDiv est 16)))

/-- No spare is left for a cell, or the pattern points to the binary cells (R185). -/
def State.cellExhausted (s : State) (c : ChanId) (cell : Nat) : State := (s.raise (.outStatus c) OUT_STATUS.CELL_EXHAUSTED).publish (.chan c .cellExhausted) cell

/-- A cell above its threshold: the spare cell replaces it at the next granule edge, or a swap falls due (R185). -/
def State.cellCheck (s : State) (c : ChanId) (failed : Bool) : State :=
  let n := lampOf c
  let cell := s.fld (.lookCell c) LOOK_CELLc.CELL
  let est := toSigned 16 (s.fld (.lookCell c) LOOK_CELLc.ESTIMATE)
  if est.natAbs > 16 * s.fld (.lookThrB n) LOOK_THR_B.CELL then
    if s.isSet (.outState c) OUT_STATE.SPARE_USED then s.cellExhausted c cell
    else if s.isSet (.lookCtrl n) LOOK_CTRL.AUTO_SWAP then s.updChan c (fun x => { x with cellDue := some cell })
    else (s.updChan c (fun x => { x with cellWait := some cell })).publish (.chan c .cellSwapDue) cell
  else if failed then
    let (v, s) := s.fresh
    if v.toNat % 2 = 1 then s.cellExhausted c cell else s
  else s

/-- The end of a block (R183 to R185): every channel is tested, and the cells are estimated. -/
def State.lookBlock (s : State) (n : LampId) : State :=
  if ¬ s.lookRuns n ∨ s.looks[n].inBlock < s.blockFrames n then s
  else
    let s := (chansOfLamp n).foldl (fun s c =>
      if s.looks[n].residuals c = [] then s
      else
        let t := s.blockTest c
        let failed := t.rd (.lookStatus n) != s.rd (.lookStatus n) || bitOf (s.rd (.lookStatus n)).toNat (c.val % 4)
        (t.cellEstimates c).cellCheck c failed) s
    s.updLook n (fun x => { x with inBlock := 0, samples := [] })

/-- The spare cell comes in for a cell at a granule edge (R185): OUT_CELL, the swap ageing counter, CELL_SWAPPED and its event, and the ledger's record; the estimate restarts. -/
def State.cellSwapped (s : State) (c : ChanId) (cell : Nat) : State :=
  let i : Fin 4 := Fin.ofNat 4 c.val
  let s := (s.setFld (.outCell c) OUT_CELL.CELL cell).raise (.outState c) OUT_STATE.SPARE_USED
  let s := (s.bump (.outState c) OUT_STATE.SWAPS).raise (.outStatus c) OUT_STATUS.CELL_SWAPPED
  let s := s.updChan c (fun x => { x with cellDue := none, cellWait := none })
  let s := s.updLook (lampOf c) (fun x => { x with cells := x.cells.set i (x.cells[i].set cell 0) })
  (s.logLedger 8 (Die.ofLamp (lampOf c)).val c.val cell).publish (.chan c .cellSwap) cell

/-- A swap that is due takes place at the first granule edge (R185). -/
def State.cellSwapEdge (s : State) (c : ChanId) : State :=
  match s.chans[c].cellDue with
  | some cell => (s.reachGranC c (s.granC c + 1)).cellSwapped c cell
  | none => s

/-- A write of 1 to SWAP_NOW: a pending swap takes place at the next granule edge (R185). -/
def State.swapAsked (s : State) (c : ChanId) : State :=
  match s.chans[c].cellWait with
  | some cell => s.updChan c (fun x => { x with cellDue := some cell, cellWait := none })
  | none => s

/-! ### The commands -/

def lampDies : List Die := [4, 5, 6, 7]

def execDacSupplyValid (n : LampId) (s : State) : Host.Outcome State Fault Refusal := s.act [Die.ofLamp n] (·.dacValid n)
def execDarkNFall (s : State) : Host.Outcome State Fault Refusal := s.act lampDies (·.darkFall)
def execDarkNRise (s : State) : Host.Outcome State Fault Refusal := s.act lampDies (·.darkRise)
def execRangeGainSwitch (c : ChanId) (s : State) : Host.Outcome State Fault Refusal := s.act [Die.ofLamp (lampOf c)] (·.gainSwitch c)
def execRangeResume (c : ChanId) (s : State) : Host.Outcome State Fault Refusal := s.act [Die.ofLamp (lampOf c)] (·.rangeDone c)
def execMarkerSettingApply (c : ChanId) (mk : Fin 2) (s : State) : Host.Outcome State Fault Refusal := s.act [Die.ofLamp (lampOf c)] (·.markerSettle c mk)
def execBiasTick (n : LampId) (s : State) : Host.Outcome State Fault Refusal := s.act [Die.ofLamp n] (·.biasTickNow n)
def execDeglitchTrack (b : BiasId) (s : State) : Host.Outcome State Fault Refusal := s.act [Die.ofLamp (lampOfBias b)] (·.deglitch b)
def execLookoutMeasure (n : LampId) (measured : Int) (s : State) : Host.Outcome State Fault Refusal := s.act [Die.ofLamp n] (·.lookMeasure n measured)
def execLookoutBlockEnd (n : LampId) (s : State) : Host.Outcome State Fault Refusal := s.act [Die.ofLamp n] (·.lookBlock n)
def execCellSwap (c : ChanId) (s : State) : Host.Outcome State Fault Refusal := s.act [Die.ofLamp (lampOf c)] (·.cellSwapEdge c)

end Sys2Proof.Machine
end

