-- ==== Sys2Proof/Machine/Meridian.lean ====
section
/-! DEFINITION. Meridian clocks: loops, the DPLL, staged values, SYNC and the grid, the twin and failover (spec 07_meridian.md R190 to R219). -/
namespace Sys2Proof.Machine
open Sys2Proof

/-! ### Loops and what they feed (R191, R199, R208) -/

/-- States of an analog loop (R191): 0 OFF, 1 SEARCH, 2 SETTLE, 3 LOCKED. The fixed loop is loop 0, the sample loop 1. -/
def loopField (loop : Fin 2) : FieldSpec := if loop = 0 then MER_STATE.FLOOP else MER_STATE.SLOOP
def bandField (loop : Fin 2) : FieldSpec := if loop = 0 then MER_STATE.FBAND else MER_STATE.SBAND
def State.loopState (s : State) (m : MerId) (loop : Fin 2) : Nat := s.fld (.merState m) (loopField loop)
def State.setLoop (s : State) (m : MerId) (loop : Fin 2) (v : Nat) : State := s.setFld (.merState m) (loopField loop) v
/-- The loop that feeds an output (R199). -/
def loopOf (k : Fin 10) : Fin 2 := if k.val < 4 then 1 else 0

/-- The state with the timebase changed. -/
def State.updClock (s : State) (f : Clock → Clock) : State := { s with clock := f s.clock }
/-- An event of a Meridian on MER_CTRL.EV_CH. -/
def State.merEvent (s : State) (m : MerId) (k : MerSource) (info : Nat) : State := s.publish (.mer m k) info
/-- A register of the Meridians that both hold alike. -/
def State.wrBoth (s : State) (r : MerId → Reg) (w : Word) : State := (s.wr (r 0) w).wr (r 1) w
def State.setBoth (s : State) (r : MerId → Reg) (f : FieldSpec) (v : Nat) : State := (s.setFld (r 0) f v).setFld (r 1) f v

/-- The Meridian that a consumer's selector takes its clock from: the twin, MERID_B, where MER_SEL shows it (R208). -/
def State.inUse (s : State) (k : Fin 10) : MerId := if bitOf (s.fld (.merSel s.leader) MER_SEL.TWIN) k.val then 1 else 0
/-- A sound spare of a Meridian replaces an output (R205). -/
def State.spared (s : State) (m : MerId) (k : Fin 10) : Option (Fin 2) := (List.finRange 2).find? (fun i => s.mers[m].spares[i] == some k && !s.mers[m].spareBad[i])
/-- An output of a Meridian runs: its loop LOCKED, enabled, its driver sound or replaced by a sound spare. -/
def State.feeds (s : State) (m : MerId) (k : Fin 10) : Bool :=
  !s.dieLost[Die.ofMerid m] && s.loopState m (loopOf k) == 3 && s.isSet (.merOut m ⟨k.val, by omega⟩) MER_OUTk.EN
  && (k ∉ s.mers[m].failed || (s.spared m k).isSome)

/-- The sample clock output of a Lamp among the consumers. -/
def sclkOf (n : LampId) : Fin 10 := ⟨n.val, by omega⟩

/-- The consumers without a running clock, and the Lamps whose granules run (R193, R213). -/
def State.clockCheck (s : State) : State :=
  let dead : Vector Bool 10 := Vector.ofFn (fun k => !s.feeds (s.inUse k) k)
  s.updClock (fun c => { c with dead := dead, runs := Vector.ofFn (fun n => !dead[sclkOf n] && !s.mers[s.inUse (sclkOf n)].gated) })

/-! ### The grid (R202, R203) -/

/-- The realised event edge of an event time given in 1/125 q, and FINE (R216): VCO edges fall every 512 q from the epoch's start and a delay step is 8 q. -/
def realised (t125 : Int) : Nat := 8 * (roundDiv t125 1000).toNat
def fineOf (edge : Nat) : Nat := edge % 512 / 8

/-- The nearest granule edge of a Lamp's present grid to time `t`, counted from UGC 0, and `t` less that edge in 1 / `gcDen` q (R204). -/
def State.nearestEdge (s : State) (n : LampId) (t : Int) : Int × Int :=
  let d := (t - s.clock.tSync) * s.gcDen
  let k := roundDiv d (s.gcNum n)
  (k, d - k * s.gcNum n)

/-- The granule grid of a Lamp moves when it restarts at `t` with the settings now in force: it has another period, or lies by more than half a delay step of the sample loop, 1 / (128 SVCO), off the present one
(R204). -/
def State.gridMoves (s : State) (t : Nat) (n : LampId) : Bool :=
  decide (s.rateNum n * s.gcDen ≠ s.gcNum n * s.rateDen) || decide ((s.nearestEdge n t).2.natAbs * s.svco > 480 * 2 ^ 24 * s.gcDen)

/-- A pending commit across a restart of the grid (R203): fixed in time, it takes effect at the first edge of the new grid at or after `old`, the edge it would have used. -/
def State.regrid (s : State) (x : Txn) (old : Nat) : Txn :=
  match x.phase with
  | .due _ =>
    let base := s.clock.ugcBase[unitLamp]
    { x with phase := .due (if old ≤ s.clock.tSync then base else base + ceilDiv ((old - s.clock.tSync) * s.gcDen) (s.gcNum unitLamp)) }
  | _ => x

/-- The effect edge of a transaction on the present grid. -/
def State.dueTime (s : State) (x : Txn) : Nat := match x.phase with | .due g => s.edgeTime unitLamp g | _ => 0

/-- The granule of a Lamp's count that falls at time `t`, at which its grid restarts (R202). -/
def State.restartGran (s : State) (t : Nat) (n : LampId) : Nat :=
  if ¬ s.clock.runs[n] then s.gran n + 1
  else if s.gridMoves t n then max (s.gran n + 1) (s.granAt n t + 1)
  else s.clock.ugcBase[n] + (s.nearestEdge n t).1.toNat

/-- The grid restarts at time `t` (R202 steps 2 to 4, R203): on each Lamp UGC 0 at that edge, T_sync recorded, bias ticks restarted; a COMMIT AT_UGC not yet in effect rolls back, the others keep their time. -/
def State.gridRestart (s : State) (t : Nat) : State :=
  let olds := s.host.txns.map s.dueTime
  let oldSingles := s.host.singles.map s.dueTime
  let base : Vector Nat 4 := Vector.ofFn (s.restartGran t)
  let s := s.updClock (fun c => { c with
    tSync := t, ugcBase := base, gran := Vector.ofFn (fun n => max c.gran[n] base[n]), now := max c.now t, num := Vector.ofFn s.rateNum, den := s.rateDen })
  let s := (List.finRange 4).foldl (fun s n => s.biasRestart n base[n]) s
  let s := s.wrBoth .merSyncStampLo (BitVec.ofNat 32 ((t - s.clock.epochAt) / 4096))
  let s := s.wrBoth .merSyncStampHi (BitVec.ofNat 32 ((t - s.clock.epochAt) / 4096 / 2 ^ 32))
  let s := { s with host := { s.host with
    txns := Vector.ofFn (fun i => if s.host.txns[i].atUgc then s.host.txns[i] else s.regrid s.host.txns[i] olds[i])
    singles := (s.host.singles.zip oldSingles).map (fun p => s.regrid p.1 p.2) } }
  (List.finRange 4).foldl (fun s i =>
    match s.host.txns[i].phase with
    | .due _ => if s.host.txns[i].atUgc then s.rollBack i Reason.ugcReset else s
    | _ => s) s

/-- The internal alignment of R203 by the leading Meridian, at an event time of its own choosing within 10 µs: a free value. SYNC_STALE is set. -/
def State.internalAlign (s : State) : State :=
  let (v, s) := s.fresh
  let t := realised (125 * (s.clock.now + v.toNat % (10 * qUs) : Nat))
  let s := ((s.updMer 0 (fun x => { x with gated := false })).updMer 1 (fun x => { x with gated := false })).gridRestart t
  (s.setBoth .merState MER_STATE.SYNC_STALE 1).clockCheck

/-- Each channel of some Lamps that is PRIMING or PLAYING shows the dark code for 4 gc from the event (R198, R204). -/
def State.syncDarken (s : State) (lamps : List LampId) : State :=
  let on := fun (i : ChanId) => s.chans[i].st == .priming || s.chans[i].st == .playing
  s.updClock (fun c => { c with
    syncDark := Vector.ofFn (fun n => if n ∈ lamps then c.gran[n] + 4 else c.syncDark[n])
    syncOn := (List.finRange 16).filter (fun i => if lampOf i ∈ lamps then on i else i ∈ c.syncOn) })

/-! ### Staged values (R200, R201, R205) -/

/-- A divider as encoded: 0 is 4,096. -/
def divVal (d : Nat) : Nat := if d = 0 then 4096 else d

/-- The staged values as a whole are refused (R201). -/
def MerStaged.refused (x : MerStaged) : Bool :=
  let v := x.m * 2 ^ 24 + x.f
  decide (x.m < 104 ∨ 132 < x.m) || decide (v < 104 * 2 ^ 24 ∨ 132 * 2 ^ 24 < v)
  || (List.finRange 4).any (fun n => let k : Fin 12 := ⟨n.val, by omega⟩
      x.en[k] && decide (v < 10 * 2 ^ 24 * divVal x.div[k] ∨ 128 * 2 ^ 24 * divVal x.div[k] < v))
  || [(4 : Fin 12), 5].any (fun k => decide (divVal x.div[k] < 4 ∨ 12 < divVal x.div[k]))

/-- Outputs 0 to 9. -/
def mainOutputs : List (Fin 12) := (List.finRange 10).map (fun k => ⟨k.val, by omega⟩)

/-- The staged delays of a Meridian take effect; on an enabled output the delay walks (R200). -/
def State.applyDelays (s : State) (m : MerId) : State :=
  mainOutputs.foldl (fun s k =>
    let d := s.mers[m].staged.delay[k]
    let s := s.setFld (.merOut m k) MER_OUTk.DELAY d
    if s.isSet (.merOut m k) MER_OUTk.EN then s else s.updMer m (fun x => { x with delayNow := x.delayNow.set k d })) s

/-- Dividers, enables, M and F of the leading Meridian take effect, and MERID_B mirrors them (R200). -/
def State.applyShared (s : State) (x : MerStaged) : State :=
  let s := (s.setBoth .merSfreq MER_SFREQ.M x.m).setBoth .merSfreq MER_SFREQ.F x.f
  let s := mainOutputs.foldl (fun s k => (s.setBoth (.merOut · k) MER_OUTk.DIV x.div[k]).setBoth (.merOut · k) MER_OUTk.EN (if x.en[k] then 1 else 0)) s
  let s := (List.finRange 2).foldl (fun s d => s.setFld (.moorCfg d) MOOR_CFG.DIV x.div[mclkOut d]) s
  (List.finRange 2).foldl (fun s m => s.updMer m (fun y => { y with staged := { y.staged with m := x.m, f := x.f, div := x.div, en := x.en } })) s

/-- The sample loops restart with a band search after a change of M or F; the Lamp outputs are gated (R193). -/
def State.restartSample (s : State) : State :=
  ((List.finRange 2).foldl (fun s m => (if s.loopState m 1 = 0 then s else s.setLoop m 1 1).updMer m (fun x => { x with gated := true })) s).clockCheck

/-- What an application of staged values changes of the sample clocks (R193): nothing, the divider of a Lamp output, or M or F. -/
inductive ClockChange where
  | none | lampDiv | freq
deriving DecidableEq, Repr

/-- The staged values of a Meridian take effect, unless they are refused as a whole (R200, R201); the leading one's are mirrored by the other, whose own are its delays. -/
def State.takeStaged (s : State) (m : MerId) : State × ClockChange :=
  let x := s.mers[m].staged
  if x.refused then (s.raise (.merStatus m) MER_STATUS.APPLY_REFUSED, .none)
  else if m ≠ s.leader then ((s.applyDelays m).setFld (.merApply m) MER_APPLY.AT_SYNC 0, .none)
  else
    let freq := decide (x.m ≠ s.fld (.merSfreq m) MER_SFREQ.M ∨ x.f ≠ s.fld (.merSfreq m) MER_SFREQ.F)
    let lampDiv := (mainOutputs.take 4).any (fun k => x.div[k] != s.fld (.merOut m k) MER_OUTk.DIV)
    let s := (s.applyShared x).applyDelays m
    ((s.setFld (.merApply m) MER_APPLY.AT_SYNC 0).clockCheck, if freq then .freq else if lampDiv then .lampDiv else .none)

/-- What follows a change of the sample clocks (R193). -/
def State.clockChanged (s : State) : ClockChange → State
  | .none => s
  | .lampDiv => s.internalAlign
  | .freq => s.restartSample

/-- An application of the staged values of a Meridian (R193, R200, R201). -/
def State.applyStaged (s : State) (m : MerId) : State := let r := s.takeStaged m; r.1.clockChanged r.2

/-- The delay of an output walks one step toward the value in force (R200). -/
def State.delayStep (s : State) (m : MerId) (k : Fin 12) : State :=
  let d := s.fld (.merOut m k) MER_OUTk.DELAY
  s.updMer m (fun x => { x with delayNow := x.delayNow.set k (slewed x.delayNow[k] d 1) })

/-! ### Band search, lock and failover (R191, R192, R205, R211 to R213) -/

/-- The band search of a loop ends: SETTLE in that band. The sample loop needs the fixed loop's output (R191). -/
def State.bandFound (s : State) (m : MerId) (loop : Fin 2) (band : Nat) : State :=
  if s.loopState m loop = 1 ∧ (loop = 0 ∨ s.loopState m 0 = 3) then (s.setLoop m loop 2).setFld (.merState m) (bandField loop) band else s

/-- A loop has settled for 20 µs: LOCKED; a relock of the leading Meridian's sample loop is followed by the internal alignment (R191, R193, R203). -/
def State.locked (s : State) (m : MerId) (loop : Fin 2) : State :=
  if s.loopState m loop ≠ 2 then s
  else
    let s := (s.setLoop m loop 3).clockCheck
    if loop = 1 ∧ m = s.leader then s.internalAlign else if loop = 1 then (s.updMer m (fun x => { x with gated := s.mers[s.leader].gated })).clockCheck else s

/-- The consumers of `ks` that have lost Meridian `m` fail over to the twin, where it runs and is not marked bad; the others have no clock (R210, R211, R213, R417). The event of
a lost Meridian is published by the other. -/
def State.failover (s : State) (m : MerId) (ks : List (Fin 10)) : State :=
  let lost := ks.filter (fun k => s.inUse k == m)
  let moved := if m = 0 then lost.filter (fun k => s.feeds 1 k && !bitOf (s.fld (.merTwinBad s.leader) MER_TWIN_BAD.BAD) k.val) else []
  let mask := moved.foldl (fun a (k : Fin 10) => a + 2 ^ k.val) 0
  if moved = [] then s.clockCheck
  else
    let s := s.setBoth .merSel MER_SEL.TWIN (s.fld (.merSel s.leader) MER_SEL.TWIN ||| mask)
    let s := s.updClock (fun c => { c with switching := Vector.ofFn (fun k => c.switching[k] || decide (k ∈ moved)) })
    let s := s.setBoth .merFov MER_FOV.LAST mask
    let s := s.setBoth .merFov MER_FOV.COUNT (min MER_FOV.COUNT.top (s.fld (.merFov s.leader) MER_FOV.COUNT + 1))
    let s := (s.wrBoth .merFovTimeLo (BitVec.ofNat 32 s.coarse)).wrBoth .merFovTimeHi (BitVec.ofNat 32 (s.coarse / 2 ^ 32))
    (s.clockCheck).merEvent (if s.dieLost[Die.ofMerid m] then twin m else m) .failover 0

/-- A loop is declared to have lost lock; a loss of the fixed loop takes the sample loop down (R192). Each restarts with a search (R191). -/
def State.lockLost (s : State) (m : MerId) (loop : Fin 2) : State :=
  if s.loopState m loop ≠ 3 then s
  else
    let s := if loop = 0 then (s.setLoop m 0 1).setLoop m 1 1 else s.setLoop m 1 1
    let s := (s.raise (.merStatus m) MER_STATUS.LOCK_LOST).merEvent m .lockLost 1
    s.failover m ((List.finRange 10).filter (fun k => loop == 0 || loopOf k == 1))

/-- The selector of a consumer has switched (R211): a Lamp's dark interval ends at the next granule edge, and its CLK_SWITCH is published; a memory controller issues again what has not completed. -/
def State.switchDone (s : State) (k : Fin 10) : State :=
  if s.clock.switching[k] then
    let s := s.updClock (fun c => { c with switching := c.switching.set k false })
    if h : k.val < 4 then
      let n : LampId := ⟨k.val, h⟩
      (s.updClock (fun c => { c with foEnd := c.foEnd.set n (c.gran[n] + 1) })).publishFree (.clkSwitch n)
    else if k.val = 4 then s.clockReplay 0
    else if k.val = 5 then s.clockReplay 1
    else s
  else s

/-- A spare output of a Meridian replaces a failed one, once for the life of the part (R205). -/
def State.connectSpare (s : State) (m : MerId) (k : Fin 10) : State :=
  match (List.finRange 2).find? (fun i => s.mers[m].spares[i].isNone) with
  | none => s
  | some i =>
    let s := s.updMer m (fun x => { x with spares := x.spares.set i (some k) })
    let s := (s.raise (.merStatus m) MER_STATUS.SPARE_IN).merEvent m .spareIn (2 ^ 7)
    s.logLedger 7 (Die.ofMerid m).val i.val k.val

/-- A consumer's clock-presence detector misses 8 edges of the input in use: the output's driver, or that of the spare in its place, has failed; the consumer fails over, and a spare not yet used takes the
trace (R205, R211). -/
def State.presenceLost (s : State) (k : Fin 10) : State :=
  let m := s.inUse k
  if ¬ s.feeds m k then s
  else
    let s := match s.spared m k with
      | some i => s.updMer m (fun x => { x with spareBad := x.spareBad.set i true })
      | none => s.updMer m (fun x => { x with failed := x.failed ++ [k] })
    ((s.failover m [k]).connectSpare m k).clockCheck

/-! ### The DPLL (R194 to R198) -/

def State.dpll (s : State) (m : MerId) : Nat := s.fld (.merState m) MER_STATE.DPLL
def State.setDpll (s : State) (m : MerId) (v : Nat) : State := s.setFld (.merState m) MER_STATE.DPLL v
def State.setReturn (s : State) (m : MerId) (r : ReturnMode) : State := s.updMer m (fun x => { x with returns := r })

/-- REF_IN is declared valid (R194, R195): FREE to ACQUIRE at 1 kHz, COAST to RETURN. -/
def State.refIsValid (s : State) (m : MerId) : State :=
  if s.loopState m 0 = 0 then s
  else
    let s := s.updMer m (fun x => { x with refValid := true })
    if s.dpll m = 0 then (s.setDpll m 1).updMer m (fun x => { x with acqBw := 12 })
    else if s.dpll m = 3 then (s.setDpll m 4).setReturn m .measuring
    else s

/-- REF_IN is declared lost (R194, R195, R198). -/
def State.refIsLost (s : State) (m : MerId) : State :=
  if ¬ s.mers[m].refValid then s
  else
    let s := s.updMer m (fun x => { x with refValid := false, returns := .none })
    let s := if s.dpll m = 0 then s else s.setDpll m 3
    (s.raise (.merStatus m) MER_STATUS.REF_LOST).merEvent m .refLost 2

/-- The loop steps down to the next encoded bandwidth until it reaches BW (R194). -/
def State.bwStep (s : State) (m : MerId) : State :=
  if s.dpll m = 1 ∧ s.fld (.merDpll m) MER_DPLL.BW < s.mers[m].acqBw then s.updMer m (fun x => { x with acqBw := x.acqBw - 1 }) else s
/-- The lock test passes at BW (R194). -/
def State.dpllLocked (s : State) (m : MerId) : State :=
  if s.dpll m = 1 ∧ s.mers[m].acqBw ≤ s.fld (.merDpll m) MER_DPLL.BW then s.setDpll m 2 else s

/-- An offset folded into (−T/2, +T/2], T the REF_IN period in 0.25 ps units (R196). -/
def foldInto (x : Int) (t : Nat) : Int := let r := x % (t : Int); if 2 * r > t then r - t else r

/-- The offset of the returning reference is measured (R196, R197). A reserved POLICY chooses by a free value. -/
def State.offsetMeasured (s : State) (m : MerId) (offset : Int) : State :=
  if s.dpll m = 4 ∧ s.mers[m].returns = .measuring then
    let x := foldInto offset (if s.isSet (.merCtrl m) MER_CTRL.REF_FREQ then 40000 else 400000)
    let s := s.wr (.merRefOffset m) (BitVec.ofNat 32 (ofSigned 32 x))
    if x.natAbs ≤ 400 * s.fld (.merDpll m) MER_DPLL.WINDOW then s.setReturn m .slewing
    else
      let s := s.raise (.merStatus m) MER_STATUS.PHASE_BEYOND
      let (v, s) := if s.fld (.merDpll m) MER_DPLL.POLICY = 3 then s.fresh else (BitVec.ofNat 64 (s.fld (.merDpll m) MER_DPLL.POLICY), s)
      match v.toNat % 3 with
      | 0 => s.setReturn m .slewing
      | 1 => s.setReturn m .stepAtSync
      | _ => (s.setReturn m .hold).merEvent m .phaseBeyond 4
  else s

/-- The slew has removed the offset (R194). -/
def State.slewEnds (s : State) (m : MerId) : State := if s.dpll m = 4 ∧ s.mers[m].returns = .slewing then (s.setDpll m 2).setReturn m .none else s
/-- The commands of MER_DPLL_CMD, in HOLD (R197). -/
def State.slewAsked (s : State) (m : MerId) : State := if s.mers[m].returns = .hold then s.setReturn m .slewing else s
def State.stepAsked (s : State) (m : MerId) : State := if s.mers[m].returns = .hold then s.setReturn m .stepAtSync else s

/-! ### SYNC (R202, R204, R213 to R217) -/

/-- A SYNC register of the leading Meridian. -/
def State.syncFld (s : State) (f : FieldSpec) : Nat := s.fld (.merSyncCtrl s.leader) f

/-- The event time of a SYNC edge on the clock's time, in 1/125 q (R214): the stamp less its tap's offset, plus L, and on a slave less COMP. -/
def State.eventTime (s : State) (stamp : Nat) : Int :=
  let m := s.leader
  let role := s.syncFld MER_SYNC_CTRL.ROLE
  let tap : TrnIn := if role = 1 then 58 else 57
  let t : Int := (stamp : Int) + s.clock.epochAt - toSigned 32 (s.rd (.trnInOff m tap)).toNat + s.fld (.merSyncLat m) MER_SYNC_LAT.L * qNs
  125 * t - (if role = 2 then 192 * (s.fld (.merSyncComp m) MER_SYNC_COMP.COMP : Int) else 0)

/-- A monitor SYNC (R204): its event time less the nearest granule edge, in 0.25 ps units. -/
def State.monitorSync (s : State) (t125 : Int) : State :=
  let d := (t125 - 125 * s.clock.tSync) * s.gcDen
  let g : Nat := 125 * s.gcNum unitLamp
  let rest := d - roundDiv d g * g
  s.wrBoth .merSyncDev (BitVec.ofNat 32 (ofSigned 32 (roundDiv rest (192 * s.gcDen))))

/-- A channel of the unit is PRIMING or PLAYING. -/
def State.anyPlays (s : State) : Bool := (List.finRange 16).any (fun c => s.chans[c].st == .priming || s.chans[c].st == .playing)

/-- A Meridian has a timebase: its Transit domain is ON from the epoch start on (R229). -/
def State.timebase (s : State) (m : MerId) : Bool := s.domainOn (domTrn m)

/-- e of this part in 0.25 ps units (R215, R449). -/
def echoDelay : Nat := 10000 + Config.echoDelay.val

/-- A slave copies a SYNC_IN edge onto SYNC_ECHO after e (R214, R215). -/
def State.echo (s : State) (stamp : Nat) : State :=
  let m := s.leader
  if s.syncFld MER_SYNC_CTRL.ROLE = 2 then s.updMer m (fun x => { x with echoed := some (s.clock.epochAt + stamp + 192 * echoDelay / 125) }) else s

/-- A SYNC edge (R204, R214, R216): the next edge with ARM set is applied at its event time, unless that has passed or a channel plays without FORCE; every other one is a monitor SYNC. Without a timebase
nothing stamps it. -/
def State.syncArrives (s : State) (stamp : Nat) : State :=
  let m := s.leader
  if ¬ s.timebase m then s
  else
  let s := (s.reachTime (s.clock.epochAt + stamp)).echo stamp
  let t := s.eventTime stamp
  if s.syncFld MER_SYNC_CTRL.ROLE = 3 then s
  else if t ≤ 125 * s.clock.now then (s.raise (.merStatus m) MER_STATUS.SYNC_LATE).monitorSync t
  else if s.syncFld MER_SYNC_CTRL.ARM = 0 ∨ s.mers[m].sync.isSome then s.monitorSync t
  else if s.anyPlays ∧ s.syncFld MER_SYNC_CTRL.FORCE = 0 then ((s.raise (.merStatus m) MER_STATUS.SYNC_REFUSED).merEvent m .syncRefused (2 ^ 4)).monitorSync t
  else s.updMer m (fun x => { x with sync := some ⟨realised t⟩ })

/-- The step of STEP_AT_SYNC at an applied SYNC (R197, R198). -/
def State.stepAtSync (s : State) (m : MerId) : State :=
  if s.dpll m = 4 ∧ s.mers[m].returns = .stepAtSync then
    let s := ((s.setDpll m 2).setReturn m .none).raise (.merStatus m) MER_STATUS.STEPPED
    (if m = s.leader then s.syncDarken (List.finRange 4) else s).merEvent m .stepped (2 ^ 3)
  else s

/-- With RETURN_AT_SYNC, failed-over consumers return to a loop that is LOCKED, over the same selector and with the same dark interval (R213). -/
def State.returnAtSync (s : State) : State :=
  if s.leader = 0 ∧ s.isSet (.merCtrl 0) MER_CTRL.RETURN_AT_SYNC then
    let back := (List.finRange 10).filter (fun k => s.inUse k == 1 && s.feeds 0 k)
    let mask := back.foldl (fun a (k : Fin 10) => a + 2 ^ k.val) 0
    let s := s.setBoth .merSel MER_SEL.TWIN (s.fld (.merSel 0) MER_SEL.TWIN - mask)
    (s.updClock (fun c => { c with switching := Vector.ofFn (fun k => c.switching[k] || decide (k ∈ back)) })).clockCheck
  else s

/-- The scheduled SYNC is applied at its realised event edge, in the order of R202: staged values first, then the grid, T_sync, and the flags; what restarts or realigns the Lamp clocks sets SYNC_STALE again
(R193). A Lamp whose grid moves darkens its channels (R204). -/
def State.applySync (s : State) : State :=
  let m := s.leader
  match s.mers[m].sync with
  | none => s
  | some e =>
    let s := (s.reachTime e.time).updMer m (fun x => { x with sync := none })
    if s.syncFld MER_SYNC_CTRL.ARM = 0 then s.monitorSync (125 * (e.time : Int))
    else
      let (s, change) := (List.finRange 2).foldl (fun (a : State × ClockChange) (i : MerId) =>
        if a.1.isSet (.merApply i) MER_APPLY.AT_SYNC ∧ ¬ a.1.dieLost[Die.ofMerid i] then
          let r := a.1.takeStaged i
          (r.1, if r.2 = .none then a.2 else r.2)
        else a) (s, .none)
      let moved := (List.finRange 4).filter (fun n => s.clock.runs[n] && s.gridMoves e.time n)
      let s := ((s.setBoth .merSyncFine MER_SYNC_FINE.FINE (fineOf e.time)).gridRestart e.time).syncDarken moved
      let s := (s.setBoth .merState MER_STATE.SYNC_STALE 0).setFld (.merSyncCtrl m) MER_SYNC_CTRL.ARM 0
      let s := ((s.stepAtSync 0).stepAtSync 1).returnAtSync
      (s.merEvent m .syncDone 0).clockChanged change

/-- A write of 1 to FIRE on a master (R214): the SYNC_OUT pulse begins within 100 ns; when is a free value. -/
def State.syncFires (s : State) (m : MerId) : State :=
  if m = s.leader ∧ s.syncFld MER_SYNC_CTRL.ROLE = 1 then
    let (v, s) := s.fresh
    s.updMer m (fun x => { x with fired := some (s.clock.now + v.toNat % (100 * qNs)) })
  else s

/-- e as a measurement shows it, in 0.25 ps units: within ±2 ps of the part's base value (`drift`, of at most eight steps either way), and within 2.5 to 4.5 ns (R449). -/
def echoShown (drift : Int) : Nat := min 18000 (max 10000 (echoDelay + drift).toNat)

/-- A slave measures its echo delay from its own stamps (R215). -/
def State.echoMeasured (s : State) (m : MerId) (drift : Int) : State :=
  if s.fld (.merSyncCtrl m) MER_SYNC_CTRL.ROLE = 2 then s.wr (.merEchoDly m) (BitVec.ofNat 32 (echoShown drift)) else s
/-- The same measurement where no command gives the drift: it is a free value. -/
def State.echoTaken (s : State) (m : MerId) : State :=
  let (v, s) := s.fresh
  s.echoMeasured m ((v.toNat % 17 : Nat) - 8)

/-! ### The twin (R207 to R210) -/

/-- The shadow granule count of a Lamp on its standby clock: equal to its UGC (R209). -/
def State.shadowUgc (s : State) (n : LampId) : Nat := s.ugc n
/-- The shadow divider of a Lamp is calibrated against the active one (R209, R210): its whole-sample offset, as found, which the spec does not say further, is a free value. -/
def State.twinCalibrated (s : State) (n : LampId) : State :=
  let (v, s) := s.fresh
  s.setBoth (.merTwinCal · n) MER_TWIN_CALn.SAMPLE (v.toNat % 32)

/-- The residual between the two inputs of a consumer is measured (R210): beyond half a delay step, MERID_B's delay for that output is trimmed by one step, in the direction its sign asks for, which the spec does
not state; a delay beyond 0 to 1,023 marks the twin input bad. MER_TWIN_CALn shows those of the Lamps. -/
def State.trimTwin (s : State) (k : Fin 10) (residual : Int) : State :=
  if ¬ (s.feeds 0 k ∧ s.feeds 1 k) then s
  else
    let o : Fin 12 := ⟨k.val, by omega⟩
    let s := if h : k.val < 4 then s.setBoth (.merTwinCal · ⟨k.val, h⟩) MER_TWIN_CALn.RESIDUAL (ofSigned 8 residual) else s
    if residual.natAbs ≤ 8 ∨ s.inUse k = 1 then s
    else
      let d := s.fld (.merOut 1 o) MER_OUTk.DELAY
      let up := decide (0 < residual) != Config.twinSign
      if (up ∧ d = 1023) ∨ (¬ up ∧ d = 0) then
        let s := s.raise (.merStatus 1) MER_STATUS.TWIN_RANGE
        let s := s.setBoth .merTwinBad MER_TWIN_BAD.BAD (s.fld (.merTwinBad s.leader) MER_TWIN_BAD.BAD ||| 2 ^ k.val)
        s.merEvent 1 .twinRange (2 ^ 6)
      else
        let d := if up then d + 1 else d - 1
        (s.setFld (.merOut 1 o) MER_OUTk.DELAY d).updMer 1 (fun x =>
          { x with delayNow := x.delayNow.set o d, staged := { x.staged with delay := x.staged.delay.set o d } })

/-! ### The commands -/

def merDies : List Die := [0, 1]
/-- A command of a Meridian that is lost changes nothing. -/
def State.onMer (s : State) (m : MerId) (f : State → State) : Host.Outcome State Fault Refusal :=
  s.act [Die.ofMerid m] (fun s => if s.dieLost[Die.ofMerid m] then s else f s)

def execBandFound (m : MerId) (loop : Fin 2) (band : Nat) (s : State) : Host.Outcome State Fault Refusal := s.onMer m (·.bandFound m loop band)
def execLoopLocked (m : MerId) (loop : Fin 2) (s : State) : Host.Outcome State Fault Refusal := s.onMer m (·.locked m loop)
def execLockLoss (m : MerId) (loop : Fin 2) (s : State) : Host.Outcome State Fault Refusal := s.onMer m (·.lockLost m loop)
def execRefValid (m : MerId) (s : State) : Host.Outcome State Fault Refusal := s.onMer m (·.refIsValid m)
def execRefLost (m : MerId) (s : State) : Host.Outcome State Fault Refusal := s.onMer m (·.refIsLost m)
def execDpllBwStep (m : MerId) (s : State) : Host.Outcome State Fault Refusal := s.onMer m (·.bwStep m)
def execDpllLock (m : MerId) (s : State) : Host.Outcome State Fault Refusal := s.onMer m (·.dpllLocked m)
def execRefOffsetMeasured (m : MerId) (offset : Int) (s : State) : Host.Outcome State Fault Refusal := s.onMer m (·.offsetMeasured m offset)
def execSlewDone (m : MerId) (s : State) : Host.Outcome State Fault Refusal := s.onMer m (·.slewEnds m)
def execDelayWalkStep (m : MerId) (k : Fin 12) (s : State) : Host.Outcome State Fault Refusal := s.onMer m (·.delayStep m k)
def execSyncEdge (stamp : Nat) (s : State) : Host.Outcome State Fault Refusal := s.act merDies (·.syncArrives stamp)
def execSyncApply (s : State) : Host.Outcome State Fault Refusal := s.act merDies (·.applySync)
def execTwinTrim (k : Fin 10) (residual : Int) (s : State) : Host.Outcome State Fault Refusal := s.act merDies (·.trimTwin k residual)
def execClockPresenceLoss (k : Fin 10) (s : State) : Host.Outcome State Fault Refusal := s.act merDies (·.presenceLost k)
def execFailoverSwitchDone (k : Fin 10) (s : State) : Host.Outcome State Fault Refusal := s.act merDies (·.switchDone k)

end Sys2Proof.Machine
end

