-- ==== Sys2Proof/Machine/Transit.lean ====
section
/-! DEFINITION. The Transit unit: stamps, inputs, publication, the log and the statistics engines (spec 08_transit.md R220 to R237). -/
namespace Sys2Proof.Machine
open Sys2Proof

/-- The state with one Transit unit, one input or one engine changed. -/
def State.updTrn (s : State) (m : MerId) (f : Transit → Transit) : State := { s with transit := s.transit.set m (f s.transit[m]) }
def State.updInput (s : State) (m : MerId) (i : TrnIn) (f : TrnInput → TrnInput) : State := s.updTrn m (fun x => { x with inputs := x.inputs.set i (f x.inputs[i]) })
def State.updEng (s : State) (m : MerId) (e : EngId) (f : Engine → Engine) : State := s.updTrn m (fun x => { x with engines := x.engines.set e (f x.engines[e]) })

/-- The Transit units in service. -/
def State.trnUnits (s : State) : List MerId := (List.finRange 2).filter (fun m => !s.dieLost[Die.ofMerid m])
/-- The part is in LAID-UP, and has not woken, with the comparators of TI0 to TI7 and SYNC_IN on (R229). -/
def State.laidInput (s : State) (i : TrnIn) : Bool := s.pwr == 1 && !s.isSet (.ext .pwrState) PWR_STATE.EXITING && (decide (i.val < 8) || i == 57)

/-! ### The record (R221) -/

/-- W0 and W1 of a record as four 32-bit words. -/
def StampRec.words (r : StampRec) : Vector Word 4 :=
  let s := r.stamp.toNat
  let w1 := s / 2 ^ 64 % 2 ^ 12 + r.input.val * 2 ^ 12 + (if r.fall then 2 ^ 18 else 0) + (if r.fov then 2 ^ 19 else 0) + (if r.uncal then 2 ^ 20 else 0)
    + (if r.twin then 2 ^ 21 else 0) + min 255 r.missed * 2 ^ 24
  #v[BitVec.ofNat 32 s, BitVec.ofNat 32 (s / 2 ^ 32), BitVec.ofNat 32 w1, r.seq]
/-- The 16 bytes of a record, lowest first. -/
def StampRec.bytes (r : StampRec) : List Byte := r.words.toList.flatMap (fun w => toBytes 4 w.toNat)

/-! ### Statistics engines (R233 to R236) -/

/-- A pair of an engine's LO and HI registers. -/
def State.engFld (s : State) (m : MerId) (e : EngId) (r : EngReg) (f : FieldSpec) : Nat := s.fld (.eng m e r) f
/-- N: 0 encodes 2^32. -/
def State.engN (s : State) (m : MerId) (e : EngId) : Nat := let n := s.engFld m e .n ENG_N.N; if n = 0 then 2 ^ 32 else n
/-- A run is in progress; between two runs of CONT none is, and the next result begins one (R236). -/
def State.engBusy (s : State) (m : MerId) (e : EngId) : Bool := s.isSet (.eng m e .status) ENG_STATUS.BUSY

/-- The counts and accumulators of a run clear (R236). -/
def State.engClear (s : State) (m : MerId) (e : EngId) : State :=
  let s := ((s.wr (.eng m e .count) 0).wr (.eng m e .unres) 0).wr (.eng m e .order) 0
  (s.wr (.eng m e .other) 0).updEng m e (fun x => { x with count := 0, sum := 0, sumSq := 0, min := 0, max := 0, ended := false })

/-- RUN = 1: the accumulators clear and a run starts; during a run it restarts (R236). -/
def State.engStart (s : State) (m : MerId) (e : EngId) : State := ((s.engClear m e).updEng m e (fun x => { x with edge := none })).raise (.eng m e .status) ENG_STATUS.BUSY
/-- RUN = 0: a run is aborted without DONE, and runs no longer follow one another (R236). -/
def State.engAbort (s : State) (m : MerId) (e : EngId) : State :=
  (s.setFld (.eng m e .status) ENG_STATUS.BUSY 0).updEng m e (fun x => { x with edge := none, ended := false })

/-- The deviation in units of q / 16 from the exact sums of n results in q / 2^16 (R236), rounded to the nearest (DEDUCED, log entry 89). -/
def deviation (n : Nat) (sum : Int) (sumSq : Nat) : Nat :=
  let v := n * sumSq - sum.natAbs * sum.natAbs
  let r := natSqrt (v / (2 ^ 22 * n * n))
  min (2 ^ 32 - 1) ((r + 1) / 2)

/-- The end of a run: the results, DONE and its event, and BUSY clears; under CONT the next result begins a run (R236). -/
def State.engEnd (s : State) (m : MerId) (e : EngId) : State :=
  let x := s.transit[m].engines[e]
  let s := s.wr64 (.eng m e .meanLo) (.eng m e .meanHi) (ofSigned 64 (roundDiv x.sum x.count))
  let s := s.wr (.eng m e .sd) (BitVec.ofNat 32 (deviation x.count x.sum x.sumSq))
  let s := s.wr64 (.eng m e .minLo) (.eng m e .minHi) (ofSigned 64 (roundDiv x.min 65536))
  let s := s.wr64 (.eng m e .maxLo) (.eng m e .maxHi) (ofSigned 64 (roundDiv x.max 65536))
  let s := (s.raise (.eng m e .status) ENG_STATUS.DONE).setFld (.eng m e .status) ENG_STATUS.BUSY 0
  let s := if s.isSet (.eng m e .ctrl) ENG_CTRL.CONT then s.updEng m e (fun x => { x with ended := true }) else s
  if s.isSet (.eng m e .ctrl) ENG_CTRL.DONE_EV then s.publish (.done m e) 2 else s

/-- A result that enters, in q / 2^16 (R235, R236). -/
def State.engEnter (s : State) (m : MerId) (e : EngId) (x : Int) : State :=
  let s := s.updEng m e (fun g =>
    { g with
      count := g.count + 1
      sum := g.sum + x
      sumSq := g.sumSq + x.natAbs * x.natAbs
      min := if g.count = 0 then x else Min.min g.min x
      max := if g.count = 0 then x else Max.max g.max x })
  let s := s.bump (.eng m e .count) ENG_COUNT.COUNT
  if s.transit[m].engines[e].count = s.engN m e then s.engEnd m e else s

/-- Kinds of result (R234, R235). -/
inductive EngKind where
  | plain | unresolved | order | excluded
deriving DecidableEq, Repr

/-- A result of an engine: counted, and entered unless it is excluded (R235). Under CONT the first result after an end begins the next run. -/
def State.engResult (s : State) (m : MerId) (e : EngId) (k : EngKind) (x : Int) (marked : Bool) : State :=
  let s := if s.transit[m].engines[e].ended then (s.engClear m e).raise (.eng m e .status) ENG_STATUS.BUSY else s
  let beyond := decide (x.natAbs ≥ 2 ^ 60)
  let s := match k with
    | .unresolved => s.bump (.eng m e .unres) ENG_UNRES.COUNT
    | .order => s.bump (.eng m e .order) ENG_ORDER.COUNT
    | _ => s
  if (k = .unresolved ∧ ¬ s.isSet (.eng m e .ctrl) ENG_CTRL.INC_UNRES) ∨ (k = .order ∧ ¬ s.isSet (.eng m e .ctrl) ENG_CTRL.INC_ORDER) then s
  else if k = .excluded ∨ marked ∨ beyond then
    let s := s.bump (.eng m e .other) ENG_OTHER.COUNT
    if beyond then s.raise (.eng m e .status) ENG_STATUS.OVERRANGE else s
  else s.engEnter m e x

/-- The first edge of an INTERVAL pair is INCOMPLETE (R234): counted in the run, and the engine re-armed; it gives no result, and so begins no run of CONT. -/
def State.engIncomplete (s : State) (m : MerId) (e : EngId) : State :=
  let s := s.updEng m e (fun x => { x with edge := none })
  if s.transit[m].engines[e].ended then s else s.engResult m e .excluded 0 false

/-- ENG_TIMEOUT in q. -/
def State.engTimeout (s : State) (m : MerId) (e : EngId) : Nat := s.engFld m e .timeout ENG_TIMEOUT.TIMEOUT * qUs

/-- A pair of INTERVAL: start and stop times in q (R234). -/
def State.engPair (s : State) (m : MerId) (e : EngId) (t0 t1 : Int) (marked unresolved : Bool) : State :=
  let d := t1 - t0
  if unresolved ∨ d.natAbs < 24576 then s.engResult m e .unresolved 0 marked
  else s.engResult m e (if d < 0 then .order else .plain) (d * 65536) marked

/-- An edge for an engine in INTERVAL: `role` is true for an edge of the START input, `same` where STOP names that input too. -/
def State.engInterval (s : State) (m : MerId) (e : EngId) (role same : Bool) (t : Int) (marked missed : Bool) : State :=
  let late : Bool := match s.transit[m].engines[e].edge with
    | some a => decide ((t - a.time).natAbs > s.engTimeout m e)
    | none => false
  let s := bif late then s.engIncomplete m e else s
  match s.transit[m].engines[e].edge with
  | none => s.updEng m e (fun x => { x with edge := some ⟨role, t, marked, false⟩ })
  | some a =>
    if same then
      (s.updEng m e (fun x => { x with edge := none })).engPair m e a.time t (a.marked || marked) missed
    else if a.start = role then s
    else
      let s := s.updEng m e (fun x => { x with edge := none })
      if a.start then s.engPair m e a.time t (a.marked || marked) false else s.engPair m e t a.time (a.marked || marked) false

/-- An accepted edge of an input reaches an engine that runs (R233 to R235): its stamp, referred to its ball where BALL_REF is set. -/
def State.engEdge (s : State) (m : MerId) (e : EngId) (i : TrnIn) (stamp : Nat) (marked missed : Bool) : State :=
  let c := Reg.eng m e .ctrl
  if ¬ s.engBusy m e ∧ ¬ s.transit[m].engines[e].ended then s
  else
    let t : Int := (stamp : Int) - (if s.isSet c ENG_CTRL.BALL_REF then toSigned 32 (s.rd (.trnInOff m i)).toNat else 0)
    let isStart := s.fld c ENG_CTRL.START == i.val
    let isStop := s.fld c ENG_CTRL.STOP == i.val
    match s.fld c ENG_CTRL.MODE with
    | 1 => if isStart || isStop then s.engInterval m e isStart (isStart && isStop) t marked missed else s
    | 2 =>
      if isStart then
        let old := s.transit[m].engines[e].edge
        let s := s.updEng m e (fun x => { x with edge := some ⟨true, t, marked, false⟩ })
        match old with
        | some a => s.engResult m e (if missed then .excluded else .plain) ((t - a.time) * 65536) (a.marked || marked)
        | none => s
      else s
    | 3 =>
      if isStart then
        let p := s.rd64 (.eng m e .pLo) (.eng m e .pHi)
        let t0 := s.rd64 (.eng m e .t0Lo) (.eng m e .t0Hi)
        if p = 0 then
          let (v, s) := s.fresh
          s.engResult m e .plain (toSigned 64 v.toNat) marked
        else s.engResult m e .plain (foldInto (t * 65536 - t0) p) marked
      else s
    | _ => s

/-- The second edge of a pair has not come within ENG_TIMEOUT of the first (R234). -/
def State.engPairLate (s : State) (m : MerId) (e : EngId) : State :=
  if (s.engBusy m e ∨ s.transit[m].engines[e].ended) ∧ s.fld (.eng m e .ctrl) ENG_CTRL.MODE = 1 ∧ (s.transit[m].engines[e].edge).isSome then s.engIncomplete m e else s

/-! ### The log (R232) -/

/-- The ring: 2^k bytes, k held within 12 to 21, of 16-byte records from BASE × 4 KB in PB4. -/
def State.logRecords (s : State) : Nat := 2 ^ (min 21 (max 12 (s.fld .trnLogCtrl TRN_LOG_CTRL.SIZE_LOG2)) - 4)
def State.logHome (s : State) : DomeId := Fin.ofNat 2 (s.fld .trnLogCtrl TRN_LOG_CTRL.HOME)

/-- A record is dropped: counted, and published where it is the first since TRN_LOG_DROP was read. -/
def State.logDrop (s : State) : State :=
  let first := s.fld .trnLogDrop TRN_LOG_DROP.COUNT == 0
  let s := (s.bump .trnLogDrop TRN_LOG_DROP.COUNT).raise (.trnStatus s.leader) TRN_STATUS.LOG_DROP
  if first ∧ s.isSet .trnCtrl TRN_CTRL.LOG_EV then s.publish (.log s.leader) 4 else s

/-- A record is logged: through a queue of 512 that drains at 100 M records/s; the ring full, it is dropped or the oldest goes, by WRAP. -/
def State.logRecord (s : State) (r : StampRec) : State :=
  let queue := s.trnLogQ.filter (fun t => s.clock.now < t)
  let s := { s with trnLogQ := queue }
  if 512 ≤ queue.length then s.logDrop
  else
    let n := s.logRecords
    let wr := s.fld .trnLogWr TRN_LOG_WR.INDEX
    let rd := s.fld .trnLogRd TRN_LOG_RD.INDEX
    let next := (wr + 1) % n
    let full := next == rd
    if full ∧ ¬ s.isSet .trnLogCtrl TRN_LOG_CTRL.WRAP then s.logDrop
    else
      let a := s.fld .trnLogCtrl TRN_LOG_CTRL.BASE * 4096 + wr * 16
      let s := s.updBank s.logHome 4 (fun b => { b with cells := Memory.write b.cells a r.bytes })
      let s := if full then s.setFld .trnLogRd TRN_LOG_RD.INDEX ((rd + 1) % n) else s
      let leaves := (queue.getLast?.getD s.clock.now) + q10
      { s.setFld .trnLogWr TRN_LOG_WR.INDEX next with trnLogQ := queue ++ [leaves] }

/-! ### Edges (R223, R227 to R232) -/

/-- EDGE selects a rising or falling edge; the reserved encoding selects by a free value. -/
def State.edgeSelected (s : State) (i : TrnIn) (fall : Bool) : Bool × State :=
  match s.fld (.trnInCtrl i) TRN_INk_CTRL.EDGE with
  | 0 => (!fall, s)
  | 1 => (fall, s)
  | 2 => (true, s)
  | _ => let (v, s) := s.fresh; (v.toNat % 2 == 1, s)

/-- HOLDOFF in q, clamped to 4,000 steps. -/
def State.holdoff (s : State) (i : TrnIn) : Nat := min 4000 (s.fld (.trnInCtrl i) TRN_INk_CTRL.HOLDOFF) * q25

/-- An edge at time `t` is missed: within 4 ns or the hold-off of the edge accepted before; in the step of the clock it is timed on after the hold-off, 2.5 ns or an ACLK cycle, a free value decides (R227, R229). -/
def State.edgeMissed (s : State) (m : MerId) (i : TrnIn) (t step : Nat) : Bool × State :=
  match s.transit[m].inputs[i].last with
  | none => (false, s)
  | some l =>
    let h := s.holdoff i
    if t < l + 24576 ∨ t < l + h then (true, s)
    else if 0 < h ∧ t < l + h + step then let (v, s) := s.fresh; (v.toNat % 2 == 1, s)
    else (false, s)

/-- A missed edge is counted (R227). -/
def State.missEdge (s : State) (m : MerId) (i : TrnIn) : State :=
  ((s.bump (.trnInMissed m i) TRN_INk_MISSED.COUNT).raise (.trnStatus m) TRN_STATUS.MISSED).updInput m i (fun x => { x with missed := x.missed + 1 })

/-- An accepted edge is stamped by a unit (R220 to R223): its record, the LAST registers and the marks. -/
def State.stampEdge (s : State) (m : MerId) (i : TrnIn) (fall : Bool) (t : Nat) : StampRec × State :=
  let x := s.transit[m]
  let r : StampRec :=
    { stamp := BitVec.ofNat 76 t, input := i, fall := fall, fov := s.clock.switching[(9 : Fin 10)], uncal := decide (i.val ∉ x.cal), twin := m == 1
      missed := x.inputs[i].missed, seq := BitVec.ofNat 32 x.seq }
  let s := s.updTrn m (fun x => { x with seq := (x.seq + 1) % 2 ^ 32, inputs := x.inputs.set i ⟨some t, 0, false⟩ })
  let s := (List.finRange 4).foldl (fun s w => s.wr (.trnInLast m i w) r.words[w]) s
  let s := if r.uncal then s.raise (.trnStatus m) TRN_STATUS.UNCAL else s
  (r, if r.fov then s.raise (.trnStatus m) TRN_STATUS.FOV_MARK else s)

/-- The leading unit publishes an accepted edge on its input's port; PORT_MERGED where the port's previous delivery is in flight (R230). -/
def State.portPublish (s : State) (i : TrnIn) (r : Option StampRec) : State :=
  let p : Fin 16 := Fin.ofNat 16 (s.fld (.trnInCtrl i) TRN_INk_CTRL.PORT)
  let src := Source.port s.leader p
  let ch := src.channel s
  if ¬ s.isSet (.trnPort p) TRN_PORTp.EN ∨ ¬ s.isSet src.reg' BCN_SRCs.EN then s
  else
    let again := match s.delivery ch with | some d => decide (src.num ∈ d.sources) | none => false
    let s := if again then s.raise (.trnStatus s.leader) TRN_STATUS.PORT_MERGED else s
    s.publishOn src ch 0 r

/-- An edge at one unit, with the stamp it takes: stamped, or missed; an enabled input then feeds the unit's engines, and the leading unit's log and port. -/
def State.unitEdge (s : State) (m : MerId) (i : TrnIn) (fall : Bool) (t : Nat) : State :=
  let (missed, s) := s.edgeMissed m i t q25
  if missed then s.missEdge m i
  else
    let since := decide (0 < s.transit[m].inputs[i].missed)
    let (r, s) := s.stampEdge m i fall t
    if ¬ s.isSet (.trnInCtrl i) TRN_INk_CTRL.EN then s
    else
      let s := (List.finRange 8).foldl (fun s e => s.engEdge m e i t (r.fov || r.uncal) since) s
      if m ≠ s.leader then s
      else
        let s := if s.isSet (.trnInCtrl i) TRN_INk_CTRL.LOG ∧ s.isSet .trnLogCtrl TRN_LOG_CTRL.EN then s.logRecord r else s
        if s.isSet (.trnInCtrl i) TRN_INk_CTRL.PUB then s.portPublish i (some r) else s

/-- An edge on an input in LAID-UP, as ACLK samples it: no stamp; an input with WAKE set publishes on its port's channel (R229). -/
def State.laidEdge (s : State) (i : TrnIn) (at_ : Nat) : State :=
  let m := s.leader
  let t := ceilDiv at_ qAclk * qAclk
  let (missed, s) := s.edgeMissed m i t qAclk
  if missed then s.missEdge m i
  else
    let s := s.updInput m i (fun x => { x with last := some t })
    if s.isSet (.trnInCtrl i) TRN_INk_CTRL.WAKE then s.portPublish i none else s

/-- An edge that one input of the units takes, with their stamps (R223, R227). -/
def State.edgeStamped (s : State) (i : TrnIn) (fall : Bool) (tA tB : Nat) : State :=
  let (sel, s) := s.edgeSelected i fall
  if ¬ sel ∨ 60 ≤ i.val ∨ s.isSet (.trnInStuck i) TRN_INk_STUCK.STUCK then s
  else if s.laidInput i then (s.reachTime (s.clock.epochAt + if s.leader = 0 then tA else tB)).laidEdge i (if s.leader = 0 then tA else tB)
  else
    let s := if s.timebase s.leader then s.reachTime (s.clock.epochAt + if s.leader = 0 then tA else tB) else s
    s.trnUnits.foldl (fun s m => if s.timebase m then s.unitEdge m i fall (if m = 0 then tA else tB) else s) s

/-- The input is an internal tap of a channel: its markers and its boundary strobe (R224). -/
def isTap (i : TrnIn) : Bool := decide (8 ≤ i.val ∧ i.val < 56)

/-- The stamp a unit takes of a tap's edge (R220, R222, R225): the input's offset later, with an error that is a free value: within 128 q of it, the jitter and the placement of R170, and within the 50 ps of an
uncalibrated interpolator (DESIGN CHOICE, log entry 117: the spec gives the jitter as an rms). -/
def State.tapStamp (s : State) (m : MerId) (e : TapEdge) : Nat × State :=
  let (v, s) := s.fresh
  let w : Nat := if e.input.val ∈ s.transit[m].cal then 128 else 435
  let t : Int := (e.time : Int) - (s.clock.epochAt : Int) + toSigned 32 (s.rd (.trnInOff m e.input)).toNat + ((v.toNat % (2 * w + 1) : Nat) : Int) - (w : Int)
  (t.toNat, s)

/-- The oldest edge on its way to a tap reaches it; where none is on its way, nothing does. -/
def State.tapArrives (s : State) (i : TrnIn) : State :=
  let mine := s.taps.filter (fun e => e.input = i)
  match mine.find? (fun e => mine.all (fun x => decide (e.time ≤ x.time))) with
  | none => s
  | some e =>
    let s : State := { s with taps := s.taps.erase e }
    let s := s.reachTime e.time
    let (tA, s) := s.tapStamp 0 e
    let (tB, s) := s.tapStamp 1 e
    s.edgeStamped i e.fall tA tB

/-- An edge on an input, with the stamps the two units take (R223, R227 to R229). The edges of the internal taps of a channel are those its walk has sent them (R69, R170, R172, R224). Inputs 60 to 63 are never
stamped. -/
def State.edgeArrives (s : State) (i : TrnIn) (fall : Bool) (tA tB : Nat) : State :=
  if isTap i then s.tapArrives i else s.edgeStamped i fall tA tB

/-! ### Stuck inputs (R228) -/

/-- The stuck map of a unit with an input's bit set or clear. -/
def State.setStuck (s : State) (m : MerId) (i : TrnIn) (b : Bool) : State :=
  let f : FieldSpec := ⟨i.val % 32, 1, .ro, false, 0⟩
  let s := s.updInput m i (fun x => { x with stuck := b })
  if i.val < 32 then s.setFlag (.trnStuck0 m) f b else s.setFlag (.trnStuck1 m) f b

/-- Stuck detection runs on an input: TIME is not 0, and the unit has a timebase, or the input stays on in LAID-UP (R228, R229). -/
def State.stuckRuns (s : State) (i : TrnIn) : Bool :=
  s.fld (.trnInStuck i) TRN_INk_STUCK.TIME != 0 && decide (i.val < 60) && (s.laidInput i || s.timebase s.leader)

/-- An input has stayed at its active level for TIME: stuck, and disarmed. -/
def State.inputIsStuck (s : State) (i : TrnIn) : State :=
  if ¬ s.stuckRuns i ∨ s.isSet (.trnInStuck i) TRN_INk_STUCK.STUCK then s
  else
    s.trnUnits.foldl (fun s m =>
      let s := (s.setStuck m i true).raise (.trnStatus m) TRN_STATUS.STUCK
      if s.isSet .trnCtrl TRN_CTRL.STUCK_EV then s.publish (.stuck m) 1 else s) (s.raise (.trnInStuck i) TRN_INk_STUCK.STUCK)

/-- A stuck input returns to its inactive level: re-armed; the release edge is not stamped. -/
def State.inputIsReleased (s : State) (i : TrnIn) : State :=
  if s.isSet (.trnInStuck i) TRN_INk_STUCK.STUCK then
    s.trnUnits.foldl (fun s m => (s.setStuck m i false).raise (.trnStatus m) TRN_STATUS.RELEASED) (s.setFld (.trnInStuck i) TRN_INk_STUCK.STUCK 0)
  else s

/-- The first calibration of an input's interpolators completes (R222). -/
def State.calDone (s : State) (m : MerId) (i : TrnIn) : State :=
  if ¬ s.timebase m then s
  else
    let s := s.updTrn m (fun x => { x with cal := if i.val ∈ x.cal then x.cal else x.cal ++ [i.val] })
    if (List.range 60).all (fun k => decide (k ∈ s.transit[m].cal)) then s.raise (.trnCal m) TRN_CAL.ALL_CAL else s

/-- TCLK stops (R222, R229): the interpolators are off and lose their calibration, engine runs end without DONE, and no edge is on its way to a tap. -/
def State.tclkStops (s : State) : State :=
  let s : State := { s with taps := [] }
  (List.finRange 2).foldl (fun (s : State) (m : MerId) =>
    let s := (s.updTrn m (fun x => { x with cal := [] })).setFld (.trnCal m) TRN_CAL.ALL_CAL 0
    (List.finRange 8).foldl (fun s e => s.engAbort m e) s) s

/-! ### The commands -/

def execTransitEdge (i : TrnIn) (fall : Bool) (stampA stampB : Nat) (s : State) : Host.Outcome State Fault Refusal := s.act merDies (·.edgeArrives i fall stampA stampB)
def execInputStuck (i : TrnIn) (s : State) : Host.Outcome State Fault Refusal := s.act merDies (·.inputIsStuck i)
def execInputRelease (i : TrnIn) (s : State) : Host.Outcome State Fault Refusal := s.act merDies (·.inputIsReleased i)
def execInterpCalDone (m : MerId) (i : TrnIn) (s : State) : Host.Outcome State Fault Refusal := s.onMer m (·.calDone m i)
def execEnginePairTimeout (m : MerId) (e : EngId) (s : State) : Host.Outcome State Fault Refusal := s.onMer m (·.engPairLate m e)

end Sys2Proof.Machine
end

