-- ==== Sys2Proof/Machine/Power.lean ====
section
/-! DEFINITION. Power states, the master store, LAID-UP, dies that fall out and return, the reset, and the ledger's upkeep (spec 15_start_and_states.md R391 to R394, R403 to R412). -/
namespace Sys2Proof.Machine
open Sys2Proof

/-! ### The power state (R391 to R394) -/

/-- The state with the power part changed. -/
def State.updPower (s : State) (f : Power → Power) : State := { s with power := f s.power }
/-- The power state changes (R391), and GLOBAL.START.LIT with it (R388); PWR_STATE publishes (R413). -/
def State.toPwr (s : State) (v : Nat) : State :=
  let s := (s.setFld (.ext .pwrState) PWR_STATE.STATE v).setFlag (.glob .gStart) START.LIT (v == 3)
  s.publish (.pwrState s.leader) s.pwrWord
/-- The part is halted (R398). -/
def State.halted (s : State) : Bool := s.isSet (.ext .pwrState) PWR_STATE.HALTED
/-- ST-15 has completed (R393, R413). -/
def State.litReady (s : State) : Bool := s.isSet (.ext .pwrState) PWR_STATE.LIT_READY
/-- A request is refused with a cause (R392, R407). -/
def State.refuse (s : State) (cause : Nat) : State := (s.raise (.ext .pwrStatus) PWR_STATUS.REFUSED).setFld (.ext .pwrStatus) PWR_STATUS.CAUSE cause

/-- The part goes LIT: the static dark code ends on the Lamps whose DAC supplies are valid (R393). -/
def State.toLit (s : State) : State := (s.updPower (fun p => { p with litOnce := Vector.ofFn (fun n => p.litOnce[n] || p.dac[n]) })).toPwr 3

/-- LIT to SHUTTERED: every channel that is PRIMING, PLAYING or in FAULT goes to IDLE (R394); markers and outputs follow the state (R162, R169). -/
def State.toShuttered (s : State) : State :=
  ((List.finRange 16).foldl (fun s c => if s.chans[c].st.busy then (s.toIdle c).cutMarkers c else s) s).toPwr 2

/-! ### Start records and the ledger (R401 to R405) -/

/-- A counter's ageing entry (R404); a value above 24 bits is recorded as the largest. -/
def State.logAge (s : State) (die : Die) (index value : Nat) : State := s.logLedger 9 die.val index (min (2 ^ 24 - 1) value)

/-- Every ageing value is logged (R404). -/
def State.ageingEntries (s : State) : State :=
  let s := (List.finRange 2).foldl (fun s (d : DomeId) => (List.finRange 5).foldl (fun s (p : PortId) =>
    s.logAge (Die.ofDome d) (5 * d.val + p.val) (s.fld (.mpAge d p) MP_AGE.HOURS)) s) s
  let s := (List.finRange 16).foldl (fun s (c : ChanId) => s.logAge (Die.ofLamp (lampOf c)) (16 + c.val) (s.fld (.outState c) OUT_STATE.SWAPS)) s
  (List.finRange 22).foldl (fun s (l : LinkId) => s.logAge (linkDies l).1 (32 + l.val) s.links[l].swaps) s

/-- 256 hours in SHUTTERED or LIT have passed (R404). -/
def State.ageing (s : State) : State := if 2 ≤ s.pwr then s.ageingEntries else s

/-- LEDG_CTRL.CLEAR_ALT: the steps named leave the sticky mask, each with its entry (R397, R404). -/
def State.clearAlt (s : State) (v : Nat) : State :=
  ((List.range 15).filter (bitOf v)).foldl (fun s k =>
    (s.updLedger (fun l => { l with sticky := l.sticky &&& (2 ^ 15 - 1 - 2 ^ k) })).logLedger 10 s.leader.val (k + 1) 0) s

/-- LEDG_CTRL.COMPACT: a compaction begins (R405). -/
def State.compactAsked (s : State) : State := s.updLedger (fun l => { l with compacting := true })

/-- A compaction ends: device 0, then device 1, is erased, written and verified; a copy that fails is marked bad (R405). -/
def State.compacted (s : State) (ok0 ok1 : Bool) : State :=
  if s.ledger.compacting then
    let s := s.updLedger Ledger.compact
    let s := if ok0 then s else (s.raise (.ext .ledgStatus) LEDG_STATUS.FLASH0_BAD).raise (.ext .ledgStatus) LEDG_STATUS.WRITE_FAIL
    let s := if ok1 then s else (s.raise (.ext .ledgStatus) LEDG_STATUS.FLASH1_BAD).raise (.ext .ledgStatus) LEDG_STATUS.WRITE_FAIL
    s.raise (.ext .ledgStatus) LEDG_STATUS.COMPACTED
  else s

/-! ### The master store (R406) -/

/-- The bits of a register the master store keeps: its RW and LK fields; the fields with a holding place too, an action not. -/
def Reg.masterMask (r : Reg) : Word :=
  (r.fields.filter (fun f => f.access == .rw || f.access == .lk || f.access == .staged)).foldl (fun m f => m ||| f.mask) 0

/-- A write is copied into the master store: the GLOBAL, MERID, DOME and LAMP windows (R406). -/
def State.toMaster (s : State) (r : Reg) (w : Word) : State :=
  if r.addr < 0x800000 ∧ r.masterMask ≠ 0 then s.updPower (fun p => { p with master := RegTab.set p.master r ((w &&& r.masterMask) ||| (r.reset &&& ~~~r.masterMask)) }) else s

/-- The registers a die loses and reloads (R406, R410): those of the DOME and LAMP windows, but for the registers of the Mooring controllers, whose domains are RETAIN in LAID-UP (R23). -/
def Reg.reloads (r : Reg) : Bool :=
  decide (0x200000 ≤ r.addr ∧ r.addr < 0x800000) && !(decide (r.addr < 0x400000) && r.addr / 0x10000 % 16 == 8)

/-- One register reloaded; a frequency word goes to the sector it was last written to (R119). -/
def State.reloadReg (s : State) (p : Reg × Word) : State :=
  match p.1 with
  | .lantSecFreqLo c k => s.updNco c (fun x => { x with loHeld := x.loHeld.set k p.2, freq := x.freq.set k (BitVec.ofNat 48 (x.freq[k].toNat / 2 ^ 32 * 2 ^ 32 + p.2.toNat)) })
  | .lantSecFreqHi c k => s.updNco c (fun x => { x with freq := x.freq.set k (BitVec.ofNat 48 (x.freq[k].toNat % 2 ^ 32 + p.2.toNat % 2 ^ 16 * 2 ^ 32)) })
  | r => s.wr r p.2

/-- The dies reload their registers from the master store (R406); what follows from them is set again. -/
def State.reloadDies (s : State) (ds : List Die) : State :=
  let mine : Reg → Bool := fun r => r.reloads && ds.contains r.die
  let s := { s with regs := s.regs.filter (fun p => !mine p.1), copies := s.copies.filter (fun x => !ds.contains x.reg.die), badPar := s.badPar.filter (fun r => !ds.contains r.die) }
  let s := (s.power.master.filter (fun p => mine p.1)).foldl State.reloadReg s
  let lamps := (List.finRange 4).filter (fun n => ds.contains (Die.ofLamp n))
  lamps.foldl (fun s n =>
    let s := (chansOfLamp n).foldl (fun s c =>
      let s := if s.power.dac[n] then s.wr (.outDark c) (s.darkWord c) else s
      s.updChan c (fun x => { x with pipe := { x.pipe with inForce := s.lantRegs c, waits := [] }, markers := Vector.ofFn (fun mk => { x.markers[mk] with inForce := s.markerRegs c mk, waiting := none }) })) s
    s.biasRestart n (s.gran n)) s

/-- A channel whose die has lost its state: IDLE (R410). Its tables lie in the Domes (R36). -/
def Chan.dropped (x : Chan) : Chan :=
  { Chan.reset with slots := x.slots, activeSlot := x.activeSlot, hasActive := x.hasActive, heldOn := x.heldOn, move := x.move, owner := x.owner }

/-- A Lamp die loses all of its state (R410). -/
def State.dropLamp (s : State) (n : LampId) : State :=
  let s := (chansOfLamp n).foldl (fun s c => (s.updChan c Chan.dropped).updEngine c (fun _ => ChanEngine.reset)) s
  let s := (linesOfLamp n).foldl (fun s b => s.updBias b (fun _ => BiasLine.reset)) s
  (s.updLook n (fun _ => Lookout.reset)).reloadDies [Die.ofLamp n]

/-! ### Dies (R25, R410) -/

/-- The domains of a die. -/
def domsOfDie (x : Die) : List DomId := (List.finRange 76).filter (fun y => dieOfDom y == x)

/-- Events in flight to consumers whose domain is not ON are dropped and counted, and the inputs forget them (R24). -/
def State.dropOffConsumers (s : State) : State :=
  let off : Consumer → Bool := fun x => !s.domainOn (x.domain s)
  let n := (s.fabric.inFlight.map (fun d => (d.waiting.filter off).length)).sum
  let s := s.dropOff n
  let s := { s with fabric := { s.fabric with inFlight := s.fabric.inFlight.map (fun d => { d with waiting := d.waiting.filter (fun x => !off x) }) } }
  ((List.finRange 212).filter (fun i => off (.task i))).foldl (fun s i => (s.setFld (.bcnConsStat i) BCN_CONSi_STAT.BUSY 0).setFld (.bcnConsStat i) BCN_CONSi_STAT.PENDING 0) s

/-- A die falls out: shown in PWR_EXCL, its admission record cleared, its domains OFF (R396, R400, R410). -/
def State.dropDie (s : State) (x : Die) : State :=
  let s := { s with dieLost := s.dieLost.set x true }
  let s := s.setFld (.ext .pwrExcl) PWR_EXCL.DIES (s.fld (.ext .pwrExcl) PWR_EXCL.DIES ||| 2 ^ x.val)
  let s := s.updPower (fun p => { p with records := p.records.set x 0 })
  (s.setDoms (domsOfDie x) .off).dropOffConsumers

/-- Dies in service take the epoch as tag and record (R410). -/
def State.admitAll (s : State) : State :=
  let e := s.fld (.glob .gEpoch) EPOCH.EPOCH
  s.updPower (fun p => { p with
    tags := Vector.ofFn (fun x => if s.dieLost[x] then p.tags[x] else e)
    records := Vector.ofFn (fun x => if s.dieLost[x] then p.records[x] else e) })

/-- A Lamp die is exempt from service by PWR_EXCL.CHANNELS per channel: its CHD and DAC domains stay OFF (R400). -/
def State.chanExcluded (s : State) (c : ChanId) : Bool := bitOf (s.fld (.ext .pwrExcl) PWR_EXCL.CHANNELS) c.val

/-- The domains of a Lamp die that a start turns ON: those of an excluded channel stay OFF. -/
def State.lampDoms (s : State) (n : LampId) : List DomId :=
  (domsOfDie (Die.ofLamp n)).filter (fun y => (chansOfLamp n).all (fun c => !(s.chanExcluded c && (y == domChan c || y == domDac c))))

/-- The heartbeat of a Lamp die declared lost returns (R410, R411): with READMIT, the die's state is stale and is discarded, EPOCH_STALE is published, and the die is being readmitted. Its
record is 0, so its state is stale whatever its tag. -/
def State.lampReturns (s : State) (n : LampId) : State :=
  let x := Die.ofLamp n
  if s.dieLost[x] ∧ s.isSet (.ext .pwrCtrl) PWR_CTRL.READMIT ∧ 2 ≤ s.pwr ∧ ¬ s.halted then
    let src := Source.epochStale n
    let s := (s.dropLamp n).raise (.ext .pwrStatus) PWR_STATUS.STALE
    let s := if s.isSet src.reg' BCN_SRCs.EN then s.deliver (src.channel s) (Payload.mk src.num PWR_STATUS.STALE.mask none) else s
    s.updPower (fun p => { p with readmit := p.readmit.set n true })
  else s

/-- A channel store is written from PB3 (R273, R277, R281); with no image there it stays empty. -/
def State.reloadStore (s : State) (c : ChanId) : State :=
  match s.pb3[(0 : DomeId)].channel <|> s.pb3[(1 : DomeId)].channel with
  | some x => (s.updEngine c (fun e => { ChanEngine.reset with store := some x, word := x.firstWord, care := e.care })).storeShows c x
  | none => (s.updEngine c (fun e => { ChanEngine.reset with care := e.care })).storeState c 0

/-- The readmission of a Lamp die completes (R410, R411). Its dark code stays static up to the next LIT commit (R165). -/
def State.lampReadmitted (s : State) (n : LampId) : State :=
  let x := Die.ofLamp n
  if s.power.readmit[n] then
    let s := { s with dieLost := s.dieLost.set x false }
    let s := s.updPower (fun p => { p with readmit := p.readmit.set n false })
    let s := s.setFld (.ext .pwrExcl) PWR_EXCL.DIES (s.fld (.ext .pwrExcl) PWR_EXCL.DIES &&& (255 - 2 ^ x.val))
    let s := (s.setDoms (s.lampDoms n) .on).reloadDies [x]
    let s := (chansOfLamp n).foldl State.reloadStore s
    let e := s.fld (.glob .gEpoch) EPOCH.EPOCH
    let s := s.updPower (fun p => { p with tags := p.tags.set x e, records := p.records.set x e })
    ((s.raise (.ext .pwrStatus) PWR_STATUS.READMITTED).clockCheck).relayCheck
  else s

/-! ### Reset (R412) -/

/-- A full reset: DARK. Host memory, the fuses and the secure store, the flash and its ledger, the pins and what the environment last read are kept; so are the DAC supplies, and with them the
dark code, unless they fall too. -/
def State.fullReset (s : State) (dacFalls : Bool) : State :=
  let t : State :=
    { State.reset with
      pending := s.pending, resp := s.resp, free := s.free, flash := s.flash
      host := { HostIf.reset with mem := s.host.mem }
      ledger := { s.ledger with compacting := false, waiting := [] }
      sec := { s.sec with challenge := none, opening := false }
      power := { Power.reset with resetN := s.power.resetN, pg := s.power.pg, darkN := s.power.darkN } }
  if dacFalls then t else (List.finRange 4).foldl (fun t n => if s.power.dac[n] then t.dacValid n else t) t

/-! ### LAID-UP (R406 to R409) -/

/-- The TCLK edge at which an epoch starts: coarse counts and stamps count from it (R220, R409). The edges of before are forgotten. -/
def State.epochStart (s : State) : State :=
  let t := ceilDiv s.clock.now 4096 * 4096
  let s := s.updClock (fun c => { c with now := t, epochAt := t })
  { s with transit := s.transit.map (fun u => { u with inputs := u.inputs.map (fun i => { i with last := none }) }) }

/-- Why a request for LAID-UP is refused (R407). -/
def State.laidRefused (s : State) : Option Nat :=
  if s.halted ∨ s.pwr = 1 then some 4
  else if (List.finRange 16).any (fun c => s.chans[c].st.busy) then some 1
  else if (List.finRange 16).any s.attached then some 2
  else if s.host.txns.toList.any (fun t => t.phase != .closed) ∨ s.host.singles ≠ [] then some 3
  else if 2 ≤ s.pwr then none
  else some 4

/-- PWR_SAVE of a Dome. -/
def saveReg (d : DomeId) : Reg := if d = 0 then .ext .pwrSaveA else .ext .pwrSaveB

/-- A Dome saves its tables: EN, and the 16 MB region lies in its data space (R406). -/
def State.saves (s : State) (d : DomeId) : Bool :=
  !s.dieLost[Die.ofDome d] && s.isSet (saveReg d) PWR_SAVE_A.EN && decide (s.fld (saveReg d) PWR_SAVE_A.BASE * 2 ^ 20 + 2 ^ 24 ≤ s.dataBytes d)

/-- The active tables that come back: those every Dome in service that holds them saves (R406; DEDUCED for a mirrored table), each with its slot. -/
def State.savedTables (s : State) : List (ChanId × Fin 2 × Table) :=
  (List.finRange 16).filterMap (fun c =>
    let homes := s.domesUp.filter (fun d => homeNames (s.homeOf c) d)
    if s.chans[c].hasActive ∧ 0 < (s.table c).len ∧ homes ≠ [] ∧ homes.all s.saves then some (c, s.chans[c].activeSlot, s.table c) else none)

/-- What a domain becomes in LAID-UP (R23). -/
def laidDom (x : DomId) (v : DomState) : DomState :=
  if x = domAon 0 ∨ x = domAon 1 then v
  else if x = domTrn 0 ∨ x = domTrn 1 ∨ (List.finRange 2).any (fun d => (List.finRange 5).any (fun p => x == domPort d p)) then (if v = .on then .retain else v)
  else .off

/-- The entry to LAID-UP (R407, R409). The loops stop with their SYN domains (R191). -/
def State.enterLaidUp (s : State) : State :=
  let s := s.postAll.updHost (fun h => { h with drings := h.drings.map (fun r => { r with fetched := [] }) })
  let e := (s.fld (.glob .gEpoch) EPOCH.EPOCH + 1) % 2 ^ 32
  let s := (s.setFld (.glob .gEpoch) EPOCH.EPOCH e).publish (.epoch s.leader) e
  let saved := s.savedTables
  let s := s.updPower (fun p => { p with
    tags := Vector.ofFn (fun x => if x.val < 4 then e else p.tags[x])
    laidUps := p.laidUps + 1
    saved := saved })
  let s := s.domesUp.foldl (fun s d => s.srEnter d .laidUp) s.ageingEntries
  let s := s.toPwr 1
  let s := (List.finRange 2).foldl (fun s (f : Func) => s.wr (.hstLink f) 0) s
  let admitted := s.power.records
  let s := (((s.tclkStops.mapDoms laidDom).updPower (fun p => { p with records := admitted })).dropOffConsumers)
  let s := (List.finRange 2).foldl (fun s (m : MerId) =>
    (((s.setLoop m 0 0).setLoop m 1 0).setFld (.merState m) MER_STATE.DPLL 0).updMer m (fun x => { x with returns := .none, refValid := false, sync := none, gated := true, fired := none, echoed := none })) s
  let s := s.clockCheck
  let s := (List.finRange 16).foldl (fun s (c : ChanId) => s.updChan c (fun _ => Chan.reset)) s
  let s := { s with
    bias := Vector.replicate 32 BiasLine.reset, biasBlk := Vector.replicate 4 ⟨375, 0, 0⟩, looks := Vector.replicate 4 Lookout.reset, streams := Vector.replicate 16 Stream.reset
    engines := Vector.replicate 16 ChanEngine.reset, shadows := Vector.replicate 16 Shadow.reset, keepers := Vector.replicate 4 Keeper.reset
    pb3 := Vector.replicate 2 ⟨none, none, none⟩, ownerNew := none, plate := Vector.replicate 2 (Vector.replicate 6 Bank.reset), latches := [], snap := ⟨[], [], none, []⟩
    beats := Vector.replicate 2 ⟨false, false, 0⟩ }
  let s := ((s.wr .snapStatus 0).wr .snapTLo 0).wr .snapTHi 0
  s.reloadDies [2, 3, 4, 5, 6, 7]

/-- PWR_CTRL.REQ, written directly or through a SET item (R392, R393, R398, R407). A direct write of 2 takes the part LIT at the first granule edge after it. -/
def State.requestPower (s : State) (v : Nat) (direct : Bool) : State :=
  match v with
  | 1 => if s.halted then s.refuse 4 else if s.pwr = 2 then s else if s.pwr = 3 then s.toShuttered else s.refuse 4
  | 2 =>
    if s.halted then s.refuse 4
    else if s.pwr = 3 then s
    else if s.pwr = 2 ∧ s.litReady then (if direct then s.reachGran unitLamp (s.gran unitLamp + 1) else s).toLit
    else s.refuse 4
  | 3 => match s.laidRefused with
    | some cause => s.refuse cause
    | none => s.enterLaidUp
  | _ => s

/-! ### The commands -/

def execResetNLow (s : State) : Host.Outcome State Fault Refusal := .next ({ s with power := { s.power with resetN := false } }.fullReset false)
/-- PG_ANA is the power-good input of the analog supplies, the DAC supplies among them. -/
def execPowerGoodLow (pg : Fin 4) (s : State) : Host.Outcome State Fault Refusal :=
  .next ({ s with power := { s.power with pg := s.power.pg.set pg false } }.fullReset (pg == 3))
def execDieReturn (die : Die) (s : State) : Host.Outcome State Fault Refusal :=
  .next (match (List.finRange 4).find? (fun n => Die.ofLamp n == die) with | some n => s.lampReturns n | none => s)
def execReadmitDone (n : LampId) (s : State) : Host.Outcome State Fault Refusal := .next (s.lampReadmitted n)
def execAgeingLog (s : State) : Host.Outcome State Fault Refusal := s.act [Die.ofMerid s.leader] (·.ageing)
def execLedgerCompactDone (ok0 ok1 : Bool) (s : State) : Host.Outcome State Fault Refusal := s.act [Die.ofMerid s.leader] (·.compacted ok0 ok1)

end Sys2Proof.Machine
end

