-- ==== Sys2Proof/Machine/Start.lean ====
section
/-! DEFINITION. The start ST-1 to ST-15, its records and alternate forms, and the exit from LAID-UP (spec 15_start_and_states.md R395 to R411; R284, R289, R290). -/
namespace Sys2Proof.Machine
open Sys2Proof

/-! ### Start records (R397, R402, R403) -/

/-- The outcome of step `k` in a STEPS word. -/
def stepNibble (steps : QWord) (k : Nat) : Nat := bitsOf steps.toNat (4 * (k - 1)) 4
/-- A STEPS word with the outcome of step `k` programmed. -/
def setNibble (steps : QWord) (k v : Nat) : QWord := (steps &&& ~~~(BitVec.ofNat 64 (15 <<< (4 * (k - 1))))) ||| BitVec.ofNat 64 (v <<< (4 * (k - 1)))

/-- A record shows a step failed in its normal form: by its outcome, or, in an interrupted record, as the first step that never ran, up to ST-13 (R397). -/
def StartRec.failedNormal (r : StartRec) (k : Nat) : Bool :=
  stepNibble r.steps k == 0xA || stepNibble r.steps k == 6
  || (!r.closed && decide (k ≤ 13) && stepNibble r.steps k == 0xF && ((List.range (k - 1)).all (fun i => stepNibble r.steps (i + 1) != 0xF)))

/-- Step `k` has an alternate form (R396). -/
def hasAlternate (k : Nat) : Bool := k != 1 && k != 9 && k != 14 && k != 15

/-- Step `k` runs in its alternate form (R397): its sticky bit is set, or the last two records show it failed in its normal form. -/
def State.stepAlternate (s : State) (past : List StartRec) (k : Nat) : Bool :=
  hasAlternate k && (bitOf s.ledger.sticky (k - 1) || (decide (2 ≤ past.length) && (lastOf 2 past).all (·.failedNormal k)))

/-- The record of this start, while it is open, changed. -/
def State.updRecord (s : State) (f : StartRec → StartRec) : State :=
  let n := s.rd (.ext .ledgStart)
  s.updLedger (fun l => match l.records.getLast? with
    | some r => if n ≠ 0 ∧ r.startNo = n ∧ ¬ r.closed then { l with records := l.records.dropLast ++ [f r] } else l
    | none => l)

/-- STEPS of this start. -/
def State.steps (s : State) : QWord := BitVec.ofNat 64 (s.rd64 (.ext .ledgStepsLo) (.ext .ledgStepsHi))
/-- The outcome of a step is programmed (R402, R403). -/
def State.outcome (s : State) (k v : Nat) : State :=
  let x := setNibble s.steps k v
  (s.wr64 (.ext .ledgStepsLo) (.ext .ledgStepsHi) x.toNat).updRecord (fun r => { r with steps := x })

/-- The record is closed (R402). -/
def State.closeRecord (s : State) : State :=
  s.updRecord (fun r =>
    { r with
      steps := s.steps
      reason := s.fld (.glob .gStart) START.REASON
      alt := s.ledger.sticky
      exclCh := s.fld (.ext .pwrExcl) PWR_EXCL.CHANNELS
      exclDie := s.fld (.ext .pwrExcl) PWR_EXCL.DIES
      lookOff := ((List.finRange 4).map (fun n => if s.isSet (.lookCtrl n) LOOK_CTRL.EN then 0 else 2 ^ n.val)).sum
      links := ((List.finRange 9).map (fun l => if s.linkWorks ⟨l.val, by omega⟩ then 0 else 2 ^ l.val)).sum
      ports := ((List.finRange 2).map (fun d => ((List.finRange 5).map (fun p => if s.role d p = 2 ∨ s.role d p = 3 then 2 ^ (5 * d.val + p.val) else 0)).sum)).sum
      bootVer := s.sec.bootVer
      logCount := s.ledger.log.length
      closed := true })

/-- The record is closed, and LEDGER publishes (R254, R402). -/
def State.recordClosed (s : State) : State := s.closeRecord.publish (.ledger s.leader) (s.rd (.ext .ledgStatus)).toNat

/-- The start halts with a reason (R398): SHUTTERED in name, and SMB_ALERT_N. -/
def State.halt (s : State) (reason : Nat) : State :=
  let s := ((s.setFld (.glob .gStart) START.REASON reason).raise (.glob .gStart) START.HALTED).raise (.ext .pwrState) PWR_STATE.HALTED
  (s.recordClosed.updPower (fun p => { p with running := false, alert := true })).toPwr 2

/-! ### Replaying the log (R401, R404) -/

/-- The spare rows of a bank that repairs take. -/
def State.plateRepaired (s : State) (d : DomeId) (b : BankId) (row spare : Nat) : State :=
  let s := s.updBank d b (fun x => { x with repairs := (row, spare) :: x.repairs.filter (fun r => r.1 ≠ row) })
  s.setFld (.pbbState d b) PBb_STATE.SPARES_USED s.plate[d][b].repairs.length

/-- A store repair takes its place in the map of its engine: 0 to 15 a channel, 16 to 19 a keeper. -/
def State.storeRepaired (s : State) (engine word spare : Nat) : State :=
  let add := fun (x : StoreCare) => { x with repairs := (word, spare) :: x.repairs.filter (fun r => r.1 ≠ word) }
  if h : engine < 16 then
    let c : ChanId := ⟨engine, h⟩
    let s := s.updEngine c (fun e => { e with care := add e.care })
    s.setFld (.oryState c) ORY_STATE.SPARES s.engines[c].care.repairs.length
  else
    let k : KeeperId := Fin.ofNat 4 engine
    let s := s.updKeeper k (fun x => { x with care := add x.care })
    s.setFld (.kprCorr k) KPR_CORR.SPARES s.keepers[k].care.repairs.length

/-- An ageing value takes its counter. -/
def State.ageRestored (s : State) (index v : Nat) : State :=
  if index < 10 then s.setFld (.mpAge (Fin.ofNat 2 (index / 5)) (Fin.ofNat 5 index)) MP_AGE.HOURS v
  else if 16 ≤ index ∧ index < 32 then s.setFld (.outState (Fin.ofNat 16 index)) OUT_STATE.SWAPS v
  else if 32 ≤ index ∧ index < 54 then s.updLink (Fin.ofNat 22 (index - 32)) (fun l => { l with swaps := v })
  else s

/-- One log entry reapplied (R404). A second spare for one output shows that the first has failed. The roles and the map of the ports follow from the ports retired (R290), and the sticky mask is kept with the records. -/
def State.replay (s : State) (e : LogEntry) : State :=
  match e.kind with
  | 1 => s.plateRepaired (Fin.ofNat 2 e.die) (Fin.ofNat 6 (e.a / 0x2000)) (e.a % 0x2000) e.b
  | 2 => s.storeRepaired e.a (e.b / 0x40) (e.b % 0x40)
  | 3 => s.setRole (Fin.ofNat 2 e.die) (Fin.ofNat 5 e.a) 2
  | 5 =>
    let lane := e.b / 0x100
    let ret := decide (128 ≤ lane)
    s.updDir (Fin.ofNat 22 e.a) ret (fun x => { x with bad := x.bad ++ [lane % 128], spares := max x.spares (e.b % 0x100 + 1) })
  | 6 => { s with domains := s.domains.set (Fin.ofNat 76 e.a) .retired }
  | 7 =>
    let k : Fin 10 := Fin.ofNat 10 e.b
    s.updMer (Fin.ofNat 2 e.die) (fun m =>
      { m with
        spares := m.spares.set (Fin.ofNat 2 e.a) (some k)
        spareBad := Vector.ofFn (fun i => m.spareBad[i] || m.spares[i] == some k)
        failed := if k ∈ m.failed then m.failed else m.failed ++ [k] })
  | 8 => (s.setFld (.outCell (Fin.ofNat 16 e.a)) OUT_CELL.CELL e.b).raise (.outState (Fin.ofNat 16 e.a)) OUT_STATE.SPARE_USED
  | 9 => s.ageRestored e.a e.b
  | _ => s

/-! ### The work of the steps (R396) -/

/-- The records of the secure store that fail authentication on both devices are absent (R429): without the binding key no enrolment is in force and the attestation key stays sealed (DEDUCED, log entry 134). -/
def Security.without (x : Security) (bad : BitVec 5) : Security :=
  { x with
    enrolled := x.enrolled && !bad.getLsbD 0
    attKey := if bad.getLsbD 1 || (x.enrolled && bad.getLsbD 0) then none else x.attKey
    ownerFloor := if bad.getLsbD 2 then 0 else x.ownerFloor
    openings := if bad.getLsbD 3 then 0 else x.openings
    erasing := x.erasing && !bad.getLsbD 4 }

/-- ST-2: fuses, the ledger and its repairs, the start number and the epoch (R396, R401, R405, R409); an erasure left pending is completed (R433). With both copies of the ledger bad it starts
empty, ST-2 itself in the sticky mask (R397, R405). -/
def State.stFuses (s : State) (obs : StartObs) (alt : Bool) : State :=
  let both := obs.bad0 && obs.bad1
  let s := (s.setFlag (.ext .ledgStatus) LEDG_STATUS.FLASH0_BAD obs.bad0).setFlag (.ext .ledgStatus) LEDG_STATUS.FLASH1_BAD obs.bad1
  let s := if both then (s.updLedger (fun _ => ⟨0, [], [], false, [], 2⟩)).publish (.ledger s.leader) (s.rd (.ext .ledgStatus)).toNat else s
  let full := decide (64 ≤ s.ledger.records.length)
  let s := if full then (s.updLedger Ledger.compact).raise (.ext .ledgStatus) LEDG_STATUS.COMPACTED else s
  let s := s.setFld (.glob .gRev) REV.MINOR (Config.fuse 4).toNat
  let s := s.setFld (.glob .gRev) REV.MAJOR ((Config.fuse 4).toNat / 16)
  let s := (s.wr (.glob .serialLo) (Config.fuse 8)).wr (.glob .serialHi) (Config.fuse 12)
  let inputs : List TrnIn := (List.finRange 64).filter (fun i => decide (i.val < 40 ∨ (56 ≤ i.val ∧ i.val ≤ 59)))
  let s := inputs.foldl (fun s i => (List.finRange 2).foldl (fun s (m : MerId) => s.wr (.trnInOff m i) (Config.fuse (Reg.trnInOff m i).addr)) s) s
  let n : Word := (match s.ledger.records.getLast? with | some r => r.startNo | none => 0) + 1
  let s := s.wr (.ext .ledgStart) n
  let s := s.updLedger (fun l => { l with records := l.records ++ [⟨n, s.steps, 0, 0, 0, 0, 0, 0, 0, 0, 0, false⟩] })
  let s := s.setFld (.glob .gEpoch) EPOCH.EPOCH (n.toNat % 65536 * 65536)
  let s := (inForce s.ledger.log).foldl State.replay s
  let s := (s.setFlag (.ext .secStatus) SEC_STATUS.ROOT_ALT alt).setFlag (.ext .secStatus) SEC_STATUS.STORE_BAD (obs.storeBad != 0)
  let s := { s with sec := s.sec.without obs.storeBad }
  let s := if s.sec.erasing then { s with sec := { s.sec with erasing := false, erased := true, enrolled := false, attKey := none, openings := min 65535 (s.sec.openings + 1) } } else s
  s.updPower (fun p => { p with smbUp := true, smbAddr := obs.smbAddr })

/-- ST-3: the boot image in use (R427). -/
def State.stBoot (s : State) (obs : StartObs) : State :=
  let s := { s with sec := { s.sec with bootVer := obs.bootVer, bootSec := obs.bootSec.toNat, bootHash := (Config.bootHash obs.bootVer).toList } }
  s.setFld (.glob .gRev) REV.BOOT obs.bootVer.toNat

/-- ST-4: the loops lock, the leading Meridian leads, TCLK starts at the epoch start and the Lamp dividers are aligned (R35, R191, R203, R208, R220); a slave
measures its echo delay (R215). The band each search finds is a free value. -/
def State.stClocks (s : State) (obs : StartObs) : State :=
  let s := (List.finRange 2).foldl (fun s (m : MerId) => if bitOf obs.merid.toNat m.val then s.dropDie (Die.ofMerid m) else s) s
  let good := (List.finRange 2).filter (fun m => !s.dieLost[Die.ofMerid m])
  let s := s.mapDoms (fun x y => if good.any (fun m => dieOfDom x == Die.ofMerid m) then .on else y)
  let s := good.foldl (fun s (m : MerId) =>
    let (v, s) := s.fresh
    let s := ((s.setLoop m 0 3).setLoop m 1 3).setFld (.merState m) MER_STATE.FBAND (v.toNat % 64)
    let s := s.setFld (.merState m) MER_STATE.SBAND (v.toNat / 64 % 64)
    let s := s.setFld (.merState m) MER_STATE.DPLL 0
    s.updMer m (fun x => { x with delayNow := Vector.ofFn (fun k => s.fld (.merOut m k) MER_OUTk.DELAY) })) s
  let lead : MerId := if s.dieLost[Die.meridA] then 1 else 0
  let s := (s.setFld (.merState (twin lead)) MER_STATE.LEADER 0).setFld (.merState lead) MER_STATE.LEADER 1
  let s := if lead = 1 then s.setBoth .merSel MER_SEL.TWIN (2 ^ 10 - 1) else s
  (good.foldl State.echoTaken (s.epochStart.clockCheck)).internalAlign

/-- ST-5: the dies answer the roll-call; one that is missing is excluded (R396). -/
def State.stDies (s : State) (obs : StartObs) : State :=
  let s := ((List.finRange 8).filter (fun x => decide (2 ≤ x.val) && bitOf obs.dies.toNat x.val && !s.dieLost[x])).foldl State.dropDie s
  s.mapDoms (fun x y => if !s.dieLost[dieOfDom x] && (List.finRange 8).any (fun z => decide (2 ≤ z.val) && domOfDie z == x) then .on else y)

/-- The links whose work on a Lamp or Dome shows in a record. -/
def State.lampReached (s : State) (n : LampId) : Bool := (List.finRange 2).any (fun d => s.linkWorks (linkOf n d))

/-- ST-6: the links train; one that fails is lost, and a Lamp with none is excluded (R31, R396). In the alternate form the links of `slow` train at the reduced rate. -/
def State.stLinks (s : State) (obs : StartObs) (slow : List LinkId) : State :=
  let s := (List.finRange 22).foldl (fun s (l : LinkId) => s.updLink l (fun x =>
    { x with lost := x.lost || bitOf obs.links.toNat l.val, slow := slow.contains l, swapping := none, queued := [] })) s
  let s := ((List.finRange 4).filter (fun n => !s.dieLost[Die.ofLamp n] && !s.lampReached n)).foldl (fun s n => s.dropDie (Die.ofLamp n)) s
  s.mapDoms (fun x y =>
    let i := x.val
    let hawser := (i < 48 ∧ i % 12 = 11) ∨ (48 ≤ i ∧ i < 68 ∧ 8 ≤ (i - 48) % 10) ∨ i = 71 ∨ i = 75
    if hawser ∧ ¬ s.dieLost[dieOfDom x] then .on else y)

/-- ST-7: the plate banks; a Dome whose bank is short of spare rows is excluded (R396). -/
def State.stPlate (s : State) (obs : StartObs) : State :=
  let s := ((List.finRange 2).filter (fun d => bitOf obs.dies.toNat (2 + d.val) && !s.dieLost[Die.ofDome d])).foldl (fun s d => s.dropDie (Die.ofDome d)) s
  s.domesUp.foldl (fun s d => s.setDoms [domPlate d] .on) s

/-- The ports that MEM_MODE populates (R29). -/
def populated (half : Bool) (p : PortId) : Bool := !half || p == 0 || p == 1 || p == 4

/-- ST-8 leaves the timing sets of a trained port holding what its training found, which the spec does not number: the fields of the twelve words are free values (R289, R314, R318). -/
def State.trainTiming (s : State) (d : DomeId) (p : PortId) : State :=
  (List.finRange 2).foldl (fun (s : State) (x : Fin 2) =>
    ([Reg.mpTs0 d p x, .mpTs1 d p x, .mpTs2 d p x, .mpTs3 d p x, .mpTs4 d p x, .mpTs5 d p x] : List Reg).foldl (fun (s : State) (r : Reg) =>
      let (v, s) := s.fresh
      (Reg.fields r).foldl (fun (s : State) (f : FieldSpec) => s.setFld r f (v.toNat / 2 ^ f.lo % 2 ^ f.width)) s) s) s

/-- A record shows a port out of service at a step ST-8 that failed in its normal form (R289, R402, R403). -/
def StartRec.portFailed (r : StartRec) (d : DomeId) (p : PortId) : Bool := (stepNibble r.steps 8 == 0xA || stepNibble r.steps 8 == 6) && bitOf r.ports (5 * d.val + p.val)

/-- A port fails training: it stays out of service in this start, and is retired where it has failed in the normal form before and now in the alternate one (R289). -/
def State.trainFails (s : State) (past : List StartRec) (d : DomeId) (p : PortId) (alt : Bool) : State :=
  let s := ((s.setDoms [domPort d p] .on).raise (.mpStatus d p) MP_STATUS.TRAIN_FAIL).portEvent d p 15 0 0
  if alt && past.any (·.portFailed d p) then ((s.setRole d p 2).logLedger 3 (2 + d.val) p.val 0).retireDom (domPort d p)
  else (s.setRole d p 3).setDoms [domPort d p] .off

/-- ST-8 on one Dome (R287 to R289): the roles, the trained rates and the boot divider; a port that fails is out of service, and retired once it has failed in both forms. -/
def State.stPortsOf (s : State) (past : List StartRec) (d : DomeId) (obs : StartObs) (alt : Bool) : State :=
  let div := if alt then 6 else 4
  let s := (s.setFlag (.moorCfg d) MOOR_CFG.HALF obs.half).setFld (.moorCfg d) MOOR_CFG.DIV div
  let mask := if alt then 4 else s.fld (.moorCfg d) MOOR_CFG.TRAIN_MASK ||| 1
  let s := ((s.setFld (.moorCfg d) MOOR_CFG.TIMING_SET 0).setDivider (mclkOut d) div).updMoor d (fun m => { m with trained := BitVec.ofNat 6 mask, target := div, lost := [] })
  (List.finRange 5).foldl (fun s (p : PortId) =>
    let s := s.setFld (.mpState d p) MP_STATE.DENSITY obs.density.val
    if ¬ populated obs.half p then s.setRole d p 3
    else if s.role d p = 2 then s
    else if bitOf obs.ports.toNat (5 * d.val + p.val) then s.trainFails past d p alt
    else ((s.setRole d p (if p = 4 then 1 else 0)).setDoms [domPort d p] .on).trainTiming d p) s

/-- ST-8 on the Domes in service; the alternate form on those that failed. -/
def State.stPorts (s : State) (past : List StartRec) (obs : StartObs) (slow : List DomeId) : State := s.domesUp.foldl (fun s d => s.stPortsOf past d obs (slow.contains d)) s

/-- ST-9 on one Dome (R290): each position takes its port, or the unused spare, which the ledger records for a retired port; whether every position has one. -/
def State.assemble (s : State) (d : DomeId) : State × Bool :=
  let step := fun (a : State × Bool) (i : Fin 4) =>
    let s := a.1
    let p : PortId := ⟨i.val, by omega⟩
    if s.half d ∧ 2 ≤ i.val then (s.setFld (.moorMap d) (mapField i) 7, a.2)
    else if s.role d p = 0 then (s.setFld (.moorMap d) (mapField i) i.val, a.2)
    else if s.role d 4 = 1 ∧ ¬ s.isSet (.moorMap d) MOOR_MAP.SPARE_USED then
      let retired := s.role d p == 2
      let s := ((s.setFld (.moorMap d) (mapField i) 4).raise (.moorMap d) MOOR_MAP.SPARE_USED).setRole d 4 0
      (if retired then s.logLedger 4 (2 + d.val) i.val 4 else s, a.2)
    else (s, false)
  let (s, ok) := (List.finRange 4).foldl step (s.setFld (.moorMap d) MOOR_MAP.SPARE_USED 0, true)
  let s := if s.role d 4 = 1 then s.raise (.mpState d 4) MP_STATE.IN_SR else if s.role d 4 = 2 then s.raise (.moorMap d) MOOR_MAP.SPARE_USED else s
  (s.toSetState d 0, ok)

/-- ST-9 (R290): every Dome in service has a port for each position. -/
def State.stAssembly (s : State) : State × Bool := s.domesUp.foldl (fun a d => let (s, ok) := a.1.assemble d; (s, a.2 && ok)) (s, true)

/-- Vendor bindings (R264, R272): the routines of the vendor inputs are the image's. -/
def State.vendorBindings (s : State) : State :=
  (List.finRange 4).foldl (fun s (k : KeeperId) => (List.finRange 4).foldl (fun s (j : Fin 4) =>
    let r := Reg.kprBind k ⟨j.val, by omega⟩
    let s := (s.setFld r KPR_BINDi.ROUTINE ((Config.vendorRoutine j).toNat % 192)).raise r KPR_BINDi.EN
    s.toMaster r (s.rd r)) s) s

/-- ST-10 (R284): the vendor images of the flash go into PB3 and the stores, and the owner extension where an owner is enrolled, not in the alternate form. A flash that no image of the model has been put
into holds the vendor images it left the factory with. -/
def State.stStores (s : State) (alt : Bool) : State :=
  let s := s.mapDoms (fun x y => if (List.finRange 16).any (fun c => x == domChan c && !s.dieLost[Die.ofLamp (lampOf c)] && !s.chanExcluded c) then .on else y)
  let s := s.installChannel (s.flash.channel.getD (factoryImage true))
  let s := s.installKeeper (s.flash.keeper.getD (factoryImage false))
  let s := s.vendorBindings
  if alt ∨ ¬ s.sec.enrolled ∨ s.sec.erased then s
  else match s.flash.owner with
    | some x => if x.secVer.toNat < s.sec.ownerFloor then s.loadFailed else s.installOwner x
    | none => s

/-- ST-11 (R160, R206, R210, R225): a channel that fails is excluded, its domains retired for good (R25, R400; DEDUCED, log entry 131); delays, ball offsets, strobe offsets and the calibration of the shadow
dividers are measured, or, in the alternate form, the first three are taken from fuses. -/
def State.stTrims (s : State) (obs : StartObs) (alt : Bool) : State :=
  let failed := (List.finRange 16).filter (fun c => bitOf obs.channels.toNat c.val)
  let s := (failed.flatMap (fun c => [domChan c, domDac c])).foldl (fun s x => if s.domains[x] = .retired then s else s.retireDom x) s
  let gone := ((List.finRange 16).filter (fun c => s.domains[domChan c] == .retired || s.domains[domDac c] == .retired)).foldl (fun a c => a ||| 2 ^ c.val) 0
  let s := s.setFld (.ext .pwrExcl) PWR_EXCL.CHANNELS (s.fld (.ext .pwrExcl) PWR_EXCL.CHANNELS ||| gone)
  let s := s.mapDoms (fun x y =>
    if (List.finRange 16).any (fun c => (x == domDac c || x == domChan c) && s.chanExcluded c) then .off
    else if (List.finRange 16).any (fun c => x == domDac c && !s.dieLost[Die.ofLamp (lampOf c)]) || (List.finRange 4).any (fun n => x == domBias n && !s.dieLost[Die.ofLamp n]) then .on
    else y)
  let regs : List Reg := (List.finRange 2).flatMap (fun m => (List.finRange 16).map (fun c => Reg.merBall m c) ++ (List.range 16).map (fun i => Reg.trnInOff m (Fin.ofNat 64 (40 + i))))
  let s := regs.foldl (fun s r =>
    if alt then s.wr r (Config.fuse r.addr &&& (r.fields.foldl (fun m f => m ||| f.mask) 0))
    else let (v, s) := s.fresh; s.wr r (BitVec.ofNat 32 v.toNat &&& (r.fields.foldl (fun m f => m ||| f.mask) 0))) s
  (List.finRange 2).foldl (fun s (m : MerId) => (List.finRange 4).foldl (fun s (n : Fin 4) =>
    let k : Fin 12 := ⟨n.val, by omega⟩
    let (v, s) := if alt then (Config.fuse (Reg.merOut m k).addr |>.setWidth 64, s) else s.fresh
    let d := v.toNat % 2 ^ 10
    (s.setFld (.merOut m k) MER_OUTk.DELAY d).updMer m (fun x => { x with delayNow := x.delayNow.set k d, staged := { x.staged with delay := x.staged.delay.set k d } })) s) ((List.finRange 4).foldl State.twinCalibrated s)

/-- BLOCK as ST-12 sets it on a Lamp: min(32, floor(fs × 20 µs / 2,176)) (R183). -/
def State.blockAtStart (s : State) (n : LampId) : Nat := min 32 (20 * qUs * 32 * s.gcDen / (2176 * s.gcNum n))

/-- The response model of a channel as ST-12 finds it, in 1/2^16 steps: the spec gives no values, so its taps, gains and offsets are free values (R182). -/
def State.modelFound (s : State) (n : LampId) (k : Fin 4) : State :=
  let (a, s) := s.fresh
  let (b, s) := s.fresh
  let (c, s) := s.fresh
  let (g0, s) := s.fresh
  let (g1, s) := s.fresh
  let (o0, s) := s.fresh
  let (o1, s) := s.fresh
  { s with looks := s.looks.set n { s.looks[n] with models := s.looks[n].models.set k ⟨a.toInt, b.toInt, c.toInt, #v[g0.toInt, g1.toInt], #v[o0.toInt, o1.toInt]⟩ } }

/-- The lookout of a Lamp begins at ST-12: its response models, its LFSR seeded from the true random source, and its first slot (R181, R182). -/
def State.lookBegins (s : State) (n : LampId) : State :=
  let s := (List.finRange 4).foldl (fun s k => s.modelFound n k) s
  let (v, s) := s.fresh
  { s with looks := s.looks.set n { s.looks[n] with lfsr := BitVec.ofNat 16 (v.toNat % 65535 + 1), gran := s.gran n, slot := 0, frame := 0, inBlock := 0, samples := [] } }

/-- ST-12: the lookouts; one without a response model is disabled (R183, R396). -/
def State.stLooks (s : State) (obs : StartObs) : State :=
  let s := s.mapDoms (fun x y => if (List.finRange 4).any (fun n => x == domLook n && !s.dieLost[Die.ofLamp n]) then .on else y)
  (List.finRange 4).foldl (fun s (n : LampId) =>
    let r := Reg.lookCtrl n
    let s := (s.lookBegins n).setFld r LOOK_CTRL.BLOCK (s.blockAtStart n)
    let s := if bitOf obs.lookOff.toNat n.val then s.setFld r LOOK_CTRL.EN 0 else s
    s.toMaster r (s.rd r)) s

/-- ST-13: the links that came up complete configuration requests (R335, R336). -/
def State.stHost (s : State) (obs : StartObs) : State :=
  (List.finRange 2).foldl (fun s (f : Func) =>
    if s.dieLost[Die.ofDome f] ∨ obs.linkGen[f].val = 0 then s
    else
      let s := s.setDoms [domPcie f] .on
      let s := (s.setFld (.hstLink f) HST_LINK.GEN obs.linkGen[f].val).setFld (.hstLink f) HST_LINK.WIDTH obs.linkWidth[f]
      s.setFlag (.hstLink f) HST_LINK.FLIT (obs.linkGen[f].val == 6)) s

/-! ### A step of a start (R396, R397, R400) -/

/-- Whether a failed step can be skipped, on what it lost (R396). -/
def State.skippable (s : State) (obs : StartObs) (k : Nat) : Bool :=
  let lost := fun (x : Die) => s.dieLost[x] || bitOf obs.dies.toNat x.val
  match k with
  | 1 => obs.dies != 0 && obs.dies.toNat % 16 == 0
  | 4 => obs.merid == 1 || obs.merid == 2
  | 5 => obs.dies.toNat / 4 != 0 && !(lost Die.domeA && lost Die.domeB)
  | 6 => obs.links != 0 && (List.finRange 4).any (fun n => !s.dieLost[Die.ofLamp n] && (List.finRange 2).any (fun d => !bitOf obs.links.toNat (linkOf n d).val && !s.dieLost[Die.ofDome d]))
  | 7 => obs.dies.toNat / 4 % 4 != 0 && !(lost Die.domeA && lost Die.domeB)
  | 8 => !obs.mixed
  | 11 => true
  | 12 => true
  | 13 => (List.finRange 2).any (fun f => obs.linkGen[f].val != 0 && !s.dieLost[Die.ofDome f])
  | _ => false

/-- The halt reason of a step (R399). -/
def haltReason (k : Nat) : Nat := k * 0x100 + 1

/-- What a step found lost, counted only where it did not pass. -/
def foundBy (obs : StartObs) (passed : Bool) : StartObs :=
  if passed then { obs with dies := 0, channels := 0, lookOff := 0, links := 0, ports := 0, merid := 0 } else obs

/-- The latest record whose step `k` failed in a normal form. -/
def lastFailed (past : List StartRec) (k : Nat) : Option StartRec := past.reverse.find? (fun r => stepNibble r.steps k == 0xA || stepNibble r.steps k == 6)

/-- The links that train in the alternate form: those that failed (R396), as the records show them; all where none does. -/
def slowLinks (past : List StartRec) : List LinkId :=
  let all := List.finRange 22
  match lastFailed past 6 with
  | some r => let l := all.filter (fun l => decide (l.val < 9) && bitOf r.links l.val); if l = [] then all else l
  | none => all

/-- The Domes whose ports train in the alternate form: those with a populated port, not retired, that failed (R289, R396); both where the records show none. -/
def State.slowDomes (s : State) (past : List StartRec) (half : Bool) : List DomeId :=
  match lastFailed past 8 with
  | some r =>
    let l := (List.finRange 2).filter (fun d => (List.finRange 5).any (fun p => populated half p && s.role d p != 2 && bitOf r.ports (5 * d.val + p.val)))
    if l = [] then [0, 1] else l
  | none => [0, 1]

/-- The work of step `k` with what it found lost; ST-9 answers whether every position has a port. -/
def State.stepWork (s : State) (past : List StartRec) (k : Nat) (alt : Bool) (obs : StartObs) : State × Bool :=
  match k with
  | 1 => (((List.finRange 8).filter (fun x => bitOf obs.dies.toNat x.val)).foldl State.dropDie s, true)
  | 2 => (s.stFuses obs alt, true)
  | 3 => (s.stBoot obs, true)
  | 4 => (s.stClocks obs, true)
  | 5 => (s.stDies obs, true)
  | 6 => (s.stLinks obs (if alt then slowLinks past else []), true)
  | 7 => (s.stPlate obs, true)
  | 8 => (s.stPorts past obs (if alt then s.slowDomes past obs.half else []), true)
  | 9 => s.stAssembly
  | 10 => (s.stStores alt, true)
  | 11 => (s.stTrims obs alt, true)
  | 12 => (s.stLooks obs, true)
  | 13 => (s.stHost obs, true)
  | _ => (s, true)

/-- A step passes: as observed; ST-3 also needs the vendor floor (R428), and ST-2 a readable ledger copy or its alternate form (R405). -/
def State.stepPasses (s : State) (obs : StartObs) (k : Nat) : Bool :=
  (match obs.steps[k - 1]? with | some .passes => true | _ => false) && (k != 3 || decide (s.sec.vendorFloor ≤ obs.bootSec.toNat))

/-- One step of a start. -/
def State.startStep (obs : StartObs) (s : State) (k : Nat) : State :=
  if s.halted then s
  else
    let past := (s.ledger.records.filter (fun r => s.rd (.ext .ledgStart) = 0 ∨ r.startNo ≠ s.rd (.ext .ledgStart)))
    let alt := s.stepAlternate past k || (k == 2 && obs.bad0 && obs.bad1)
    let s := if alt then
        ((s.updLedger (fun l => { l with sticky := l.sticky ||| 2 ^ (k - 1) })).setFld (.ext .ledgAlt) LEDG_ALT.THIS (s.fld (.ext .ledgAlt) LEDG_ALT.THIS ||| 2 ^ (k - 1))).raise
          (.glob .gStart) START.DEGRADED
      else s
    let pass := s.stepPasses obs k
    if pass ∨ s.skippable obs k then
      let (s, ok) := s.stepWork past k alt (foundBy obs pass)
      if ok then
        let s := s.outcome k (if pass then (if alt then 0xC else 0xE) else if alt then 8 else 0xA)
        (if pass then s else s.raise (.glob .gStart) START.DEGRADED).setFld (.glob .gStart) START.STEP k
      else (s.outcome k (if alt then 4 else 6)).halt (haltReason k)
    else (s.outcome k (if alt then 4 else 6)).halt (haltReason k)

/-- A start begins (R395): DARK, no start under way, every pin high; the steps ST-1 to ST-13 run in order, and ST-14 waits for the host. -/
def State.startNowWith (s : State) (obs : StartObs) : State :=
  if s.pwr ≠ 0 ∨ s.power.running then s
  else
    let s := s.updPower (fun p => { p with running := true, resetN := true, pg := Vector.replicate 4 true, epochOk := decide (obs.steps[14] = .passes) })
    (List.range 13).foldl (fun s i => s.startStep obs (i + 1)) s

/-! ### ST-15 (R396, R400, R410, R428, R430) -/

/-- The degraded forms of R31 a start has entered. -/
def State.formsEntered (s : State) : List Nat :=
  (if (List.finRange 8).any (fun l => s.links[(⟨l.val, by omega⟩ : LinkId)].lost) then [3] else []) ++ (if s.links[linkDomes].lost then [4] else [])
  ++ (if s.domesUp.length < 2 then [5] else [])
  ++ (if s.domesUp.any (fun d => (List.finRange 5).any (fun p => s.role d p == 2)) then [6] else [])
  ++ (if s.dieLost[Die.meridA] || s.dieLost[Die.meridB] then [7] else []) ++ (if (List.finRange 4).any (fun n => s.dieLost[Die.ofLamp n]) then [8] else [])

/-- ST-14 has completed: ST-15 compares the epoch tags, closes the record, and the part is SHUTTERED and LIT-ready; the vendor floor follows the boot image, and the first start generates the
attestation key. Until ST-15 the dies carry the tags that it compares; a mismatch halts. -/
def State.completeStart (s : State) : State :=
  let s := (s.setFld (.glob .gStart) START.STEP 14).outcome 14 0xE
  if ¬ s.power.epochOk then (s.outcome 15 6).halt (haltReason 15)
  else
    let s := ((s.outcome 15 0xE).setFld (.glob .gStart) START.STEP 15).admitAll
    let s := { s with sec := { s.sec with vendorFloor := max s.sec.vendorFloor (min 64 s.sec.bootSec) } }
    let s := if s.sec.attKey.isNone ∧ (¬ s.sec.erased ∨ s.sec.enrolled) then s.raise (.ext .secStatus) SEC_STATUS.ATT_GEN else s
    let s := s.recordClosed.updPower (fun p => { p with running := false })
    let s := (s.raise (.ext .pwrState) PWR_STATE.LIT_READY).toPwr 2
    s.formsEntered.foldl (fun s f => s.asyncReport 0 0xF1 f) s

/-! ### The exit from LAID-UP (R408) -/

/-- The tables saved come back into PB1, each in the slot it was saved from (R406, R408; DEDUCED, log entry 100). -/
def State.tablesBack (s : State) : State :=
  let s := s.power.saved.foldl (fun s (p : ChanId × Fin 2 × Table) =>
    s.updChan p.1 (fun x => { x with slots := (Vector.replicate 2 Table.empty).set p.2.1 p.2.2, activeSlot := p.2.1, hasActive := true, heldOn := Vector.ofFn (fun d => homeNames (s.homeOf p.1) d) })) s
  s.updPower (fun p => { p with saved := [] })

/-- A step of the exit fails (R408). -/
def exitFails (obs : StartObs) : Bool :=
  (List.range 13).any (fun i => decide (3 ≤ i) && (match obs.steps[i]? with | some .passes => false | _ => true)) || (obs.linkGen[0].val == 0 && obs.linkGen[1].val == 0)

/-- The exit ends: ST-4 to ST-13 in the forms of R408, then SHUTTERED and WAKE; a step that fails, or the 65,536th entry of the start, leads to a full start (R408, R409). -/
def State.laidExit (s : State) (obs : StartObs) : State :=
  if ¬ s.isSet (.ext .pwrState) PWR_STATE.EXITING then s
  else if exitFails obs then (s.fullReset false).raise (.ext .pwrStatus) PWR_STATUS.EXIT_FAIL
  else if 65536 ≤ s.power.laidUps then s.fullReset false
  else
    let o := foundBy obs true
    let s := (((s.stClocks o).stDies o).stLinks o ((List.finRange 22).filter (fun l => s.links[l].slow))).reloadDies [2, 3, 4, 5, 6, 7]
    let again := fun (e : LogEntry) => e.kind == 1 || e.kind == 2 || e.kind == 8 || (e.kind == 9 && decide (16 ≤ e.a ∧ e.a < 32))
    let s := (((inForce s.ledger.log).filter again).foldl State.replay s).stPlate o
    let s := s.domesUp.foldl (fun (s : State) (d : DomeId) => (s.mapDoms (fun x y => if y = .retain ∧ (List.finRange 5).any (fun p => x == domPort d p) then .on else y)).srLeave d) s
    let s := ((s.stStores false).stTrims o false).stLooks o
    let s := (s.tablesBack.stHost obs).setFld (.ext .pwrState) PWR_STATE.EXITING 0
    let s := s.setFld (.bcnConsStat 204) BCN_CONSi_STAT.BUSY 0
    let s := (s.admitAll.toPwr 2).clockCheck
    s.publish (.wake s.leader) s.pwrWord

/-! ### The commands -/

def execStartBegin (obs : StartObs) (s : State) : Host.Outcome State Fault Refusal := .next (s.startNowWith obs)
def execLaidupExitDone (obs : StartObs) (s : State) : Host.Outcome State Fault Refusal := .next (s.laidExit obs)

end Sys2Proof.Machine
end

