-- ==== Sys2Proof/Machine/Views.lean ====
section
/-! DEFINITION. What the registers read: the read-only fields that show the state of a block at the moment of the read (the register tables of every chapter; R418 for the
availability conditions). A register not named here reads the value stored. -/
namespace Sys2Proof.Machine
open Sys2Proof

/-- A bit map of the indices below `n` at which `p` holds. -/
def bitMap (n : Nat) (p : Nat → Bool) : Nat := ((List.range n).map (fun i => if p i then 2 ^ i else 0)).sum

/-! ### Channels and jumps (R71, R103, R130, R187) -/

/-- CHAR_TABLE (R71). -/
def State.viewTable (s : State) (c : ChanId) : Nat :=
  (if s.chans[c].hasActive then (s.table c).len else 0) + s.chans[c].activeSlot.val * 2 ^ 15 + (s.staged c).len % 2 ^ 15 * 2 ^ 16 + (if s.stagedBusy c then 2 ^ 31 else 0)

/-- CHAR_POS (R71). -/
def State.viewPos (s : State) (c : ChanId) : Nat :=
  let x := s.chans[c]
  x.entry % 2 ^ 14 + x.frames.length % 16 * 2 ^ 14 + x.st.code * 2 ^ 18 + (if x.move.isSome then 2 ^ 21 else 0)

/-- Granules played since the start (CHAR_PLAYED). -/
def State.granulesPlayed (s : State) (c : ChanId) : Nat := s.playGran c
/-- The granule offset within the current iteration (CHAR_GOFF): a pause holds it (R151). -/
def State.granuleOffset (s : State) (c : ChanId) : Nat := (s.walkPlace c - s.chans[c].iterStart) / 32

/-- CHAR_LEAD.LEAD (R55). -/
def State.viewLead (s : State) (c : ChanId) : Nat :=
  match s.chans[c].st with
  | .playing => s.lead c
  | .priming => s.lead c
  | _ => 0
/-- CHAR_LEAD.LEAD_MIN: the least lead in PLAYING since it was last read, the present one included (R55). -/
def State.viewLeadMin (s : State) (c : ChanId) : Nat :=
  let v := s.fld (.charLead c) CHAR_LEAD.LEAD_MIN
  if s.chans[c].st = .playing then min v (s.lead c) else v

/-- JMP_PEND: the pending jump, as it will show in JMP_LAST (R103). Its take point moves with the boundary (R79, R151). -/
def State.viewPend (s : State) (c : ChanId) : Nat :=
  match s.chans[c].pend with
  | none => 0
  | some j => jumpWord { j with take := (s.pendTake c j).getD j.take } (j.regVisit != s.chans[c].visit)

/-- JMP_PEND_GC (R103). -/
def State.viewPendGc (s : State) (c : ChanId) : Nat :=
  match s.chans[c].pend with
  | none => 0
  | some j => (s.pendTake c j).getD j.take / 32

/-- JMP_READYk (R103). -/
def State.viewReady (s : State) (c : ChanId) (k : Nat) : Nat :=
  match s.chans[c].readyNow[k]? with
  | none => 0
  | some p => p.entry % 2 ^ 14 + 2 ^ 14 + (if p.held then 2 ^ 15 else 0)

/-- The NCO as it stands now. -/
def State.ncoNow (s : State) (c : ChanId) : Nco := s.chans[c].nco.sync (s.sampleNow c)

/-- LANT_NCO (R130). -/
def State.viewNco (s : State) (c : ChanId) : Nat :=
  let x := s.ncoNow c
  x.sector.val + (match x.chirp with | some h => 2 ^ 3 + h.sector.val * 2 ^ 4 | none => 0) + x.curveNo % 32 * 2 ^ 7

/-- OUT_STATE (R187): RANGE, RANGE_BUSY, DARK_SRC and SYNC_DARK beside the stored ageing counter. -/
def State.viewOut (s : State) (c : ChanId) : Nat :=
  (if s.chans[c].range then 1 else 0) + (if s.chans[c].changes.any (fun x => decide (x.first ≤ s.sampleNow c)) then 2 else 0) + s.darkSrc c * 2 ^ 2
  + s.fld (.outState c) OUT_STATE.SPARE_USED * 2 ^ 8 + (if s.syncDarkNow c then 2 ^ 9 else 0) + s.fld (.outState c) OUT_STATE.SWAPS * 2 ^ 16

/-- OUT_DARKN_GRAN: the granules counted, and those held dark since (R163, R187). -/
def State.viewDarkn (s : State) (c : ChanId) : Nat :=
  min OUT_DARKN_GRAN.GRANULES.top (s.fld (.outDarknGran c) OUT_DARKN_GRAN.GRANULES + (s.darkUpTo (lampOf c) - s.power.darkFrom[lampOf c]))

/-! ### Meridian, keepers and host (R200, R218, R219, R278, R366) -/

/-- The output a spare of a Meridian stands in for (R205). -/
def State.spareFor (s : State) (m : MerId) (k : Fin 12) : Option (Fin 12) := (s.mers[m].spares[(⟨(k.val - 10) % 2, by omega⟩ : Fin 2)]).map (fun x => ⟨x.val, by omega⟩)

/-- A staged DIV, EN or DELAY of an output differs from the value in force (R200); a spare shows its output's (R205). -/
def State.outPending (s : State) (m : MerId) (k : Fin 12) : Bool :=
  let j : Option (Fin 12) := if k.val < 10 then some k else s.spareFor m k
  match j with
  | none => false
  | some j =>
    let x := s.mers[m].staged
    let r := Reg.merOut m j
    decide (x.div[j] ≠ s.fld r MER_OUTk.DIV) || (x.en[j] != s.isSet r MER_OUTk.EN) || decide (x.delay[j] ≠ s.fld r MER_OUTk.DELAY)

/-- MER_OUTk: of the double-buffered values the copy written, but DIV in force; a spare shows the settings of its output (R200, R205, R219). -/
def State.viewMerOut (s : State) (m : MerId) (k : Fin 12) : Word :=
  let x := s.mers[m].staged
  let w :=
    if k.val < 10 then MER_OUTk.DELAY.put (MER_OUTk.EN.put (s.rd (.merOut m k)) (if x.en[k] then 1 else 0)) x.delay[k]
    else match s.spareFor m k with
      | some j => s.rd (.merOut m j)
      | none => s.rd (.merOut m k)
  MER_OUTk.PENDING.put w (if s.outPending m k then 1 else 0)

/-- A staged M or F differs from the value in force (R200). -/
def State.sfreqPending (s : State) (m : MerId) : Bool :=
  decide (s.mers[m].staged.m ≠ s.fld (.merSfreq m) MER_SFREQ.M ∨ s.mers[m].staged.f ≠ s.fld (.merSfreq m) MER_SFREQ.F)

/-- The part is healthy (R218): not halted, a fixed loop LOCKED, and every consumer on a Lamp or Dome die in service with a running clock; QUIET not set. -/
def State.healthy (s : State) : Bool :=
  !s.halted && (s.loopState 0 0 == 3 || s.loopState 1 0 == 3) && !s.isSet (.merLight s.leader) MER_LIGHT.QUIET
  && (List.finRange 10).all (fun k => !s.clock.dead[k] ||
      (if k.val < 4 then s.dieLost[Die.ofLamp ⟨k.val % 4, by omega⟩] else if k.val < 8 then s.dieLost[Die.ofDome ⟨k.val % 2, by omega⟩] else true))
/-- The leading Meridian drives LIGHT (R218). -/
def State.lightDrives (s : State) (m : MerId) : Bool := m == s.leader && decide (2 ≤ s.pwr) && s.litReady && s.healthy

/-- KPR_STATE (R285): the routine of the running input is the one bound to it. -/
def State.viewKeeper (s : State) (k : KeeperId) : Nat :=
  let x := s.keepers[k]
  match x.input with
  | none => 0
  | some i =>
    1 + i.val * 2 + s.fld (.kprBind k i) KPR_BINDi.ROUTINE * 2 ^ 5 + (if x.committed then 2 ^ 13 else 0) + (if x.waitEnd.isSome then 2 ^ 14 else 0)
    + (if x.releasing then 2 ^ 15 else 0) + x.word % 2 ^ 14 * 2 ^ 16

/-- STATE of HST_DRINGr and HST_RRINGr in the window of a Dome (R366). -/
def State.ringState (s : State) (d : DomeId) (up : Bool) (f : Func) : Nat := if !up then 0 else if !s.linkUp f then 3 else if f = d then 1 else 2

/-- HST_TXN (R355, R359): an armed slot is no longer open. -/
def State.viewTxn (s : State) : Nat :=
  bitMap 4 (fun t => match s.host.txns[t]? with | some x => x.phase == .open_ | none => false)
  + bitMap 4 (fun t => match s.host.txns[t]? with | some x => (match x.phase with | .armed _ => true | _ => false) | none => false) * 2 ^ 4
  + bitMap 4 (fun t => match s.host.txns[t]? with | some x => x.phase != .closed && x.func == 1 | none => false) * 2 ^ 8

/-- The field of a source's own block that names its channel, by the source's number (R240, R254); `Source.owned` gives the same by its name. -/
def ownerField (n : Nat) : Option (Reg × FieldSpec) :=
  if n < 384 then
    let lamp : LampId := ⟨n / 96 % 4, by omega⟩
    let l := n % 96
    if l < 72 then
      let c : ChanId := chanOfLamp lamp ⟨l / 18 % 4, by omega⟩
      let k := l % 18
      if 7 ≤ k ∧ k ≤ 10 then some (.jmpCtrl c, JMP_CTRL.EV_CH)
      else if k = 12 then some (.lantCtrl c, LANT_CTRL.EV_CH)
      else if k = 13 then some (.outCtrl c, OUT_CTRL.EV_CH)
      else if 14 ≤ k then some (.lookCtrl lamp, LOOK_CTRL.EV_CH)
      else none
    else if l = 72 then some (.outCtrl (chanOfLamp lamp 0), OUT_CTRL.EV_CH)
    else if l ≤ 80 then some (.biasCommon lamp, BIAS_COMMON.EV_CH)
    else if l ≤ 82 then some (.lookCtrl lamp, LOOK_CTRL.EV_CH)
    else none
  else if n < 544 then
    if (n - 384) % 80 < 64 then some (.tndCtrl ⟨8 * ((n - 384) / 80 % 2) + (n - 384) % 80 / 8 % 8, by omega⟩, TND_CTRL.EV_CH) else none
  else
    let i := (n - 544) % 48
    if i ≤ 8 then some (.merCtrl ⟨(n - 544) / 48 % 2, by omega⟩, MER_CTRL.EV_CH)
    else if i ≤ 24 then some (.trnPort (Fin.ofNat 16 (i - 9)), TRN_PORTp.CH)
    else if i ≤ 34 then some (.trnCtrl, TRN_CTRL.EV_CH)
    else if i ≤ 38 then some (.bcnTmrCtrl (Fin.ofNat 4 (i - 35)), BCN_TMRt_CTRL.CH)
    else if i = 45 then some (.bcnInject, BCN_INJECT.CH)
    else none

/-! ### Features (R340) -/

/-- An owner key is enrolled. -/
def State.ownerEnrolled (s : State) : Bool := s.sec.enrolled && !s.sec.erased
/-- FEAT_OFFER as a number of 256 bits: features 0 to 4, 7 and 8 always; 5 and 33 with an owner key; 6 while dark-code fuses are unprogrammed; 32 in HALF; 34 in a degraded form (R340). -/
def State.offered (s : State) : Nat :=
  0x19F + (if s.ownerEnrolled then 2 ^ 5 + 2 ^ 33 else 0) + (if s.sec.darkFuses.toList.any (·.isNone) then 2 ^ 6 else 0)
  + (if s.domesUp.any s.half then 2 ^ 32 else 0) + (if s.formsEntered ≠ [] then 2 ^ 34 else 0)
/-- FEAT_OFFERk. -/
def State.offer (s : State) (k : Fin 8) : Nat := s.offered / 2 ^ (32 * k.val) % 2 ^ 32
/-- Feature `b` is accepted and in force: FEAT_ACCEPT0 has been written (R340, R389). -/
def State.feature (s : State) (b : Nat) : Bool := bitOf (s.rd (.glob (.featAccept 0))).toNat b && decide (14 ≤ s.fld (.glob .gStart) START.STEP)

/-! ### The availability conditions (R418) -/

def State.lampsInService (s : State) : List LampId := (List.finRange 4).filter (fun n => !s.dieLost[Die.ofLamp n])

/-- The Mirroring condition of one channel. -/
def State.mirrored (s : State) (c : ChanId) : Bool :=
  (s.chans[c].st != .priming && s.chans[c].st != .playing)
  || (s.homeOf c == 2 && (s.table c).entries.all (fun p => !memFormat p.2.format || p.2.home == 2))

/-- Whether condition `i` of AVAIL_COND holds. -/
def State.condition (s : State) (i : Nat) : Bool :=
  match i with
  | 0 => s.lampsInService.all (fun n => s.isSet (.lookCtrl n) LOOK_CTRL.EN && !s.looks[n].stopped)
  | 1 => s.domesUp.all (fun d => s.isSet (.pbCtrl d) PB_CTRL.TEST_EN && decide (s.fld (.pbCtrl d) PB_CTRL.INTERVAL ≤ 100))
  | 2 => s.domesUp.all (fun d => decide (1 ≤ s.fld (.moorScrub d) MOOR_SCRUB.DUTY))
  | 3 => s.domesUp.all s.spareFree
  | 4 => (List.finRange 22).all (fun l => !s.linkWorks l || ([false, true].all (fun r => decide (s.links[l].dirs[dirOf r].spares < (linkLanes l r).2.1))))
  | 5 => (List.finRange 16).all (fun c => !s.domainOn (domDac c) || !s.isSet (.outState c) OUT_STATE.SPARE_USED)
  | 6 => s.domesUp.all (fun d => (List.finRange 6).all (fun b => decide (s.fld (.pbbState d b) PBb_STATE.SPARES_USED < s.fld (.pbbState d b) PBb_STATE.SPARES_TOTAL)))
  | 7 => (List.finRange 4).all (fun k => s.dieLost[Die.ofDome (domeOfKeeper k)] || decide (s.keepers[k].care.repairs.length < 64))
      && (List.finRange 16).all (fun c => s.dieLost[Die.ofLamp (lampOf c)] || decide (s.engines[c].care.repairs.length < 64))
  | 8 => !s.dieLost[Die.meridA] && !s.dieLost[Die.meridB]
  | 9 => let t := toSigned 12 (s.fld (.ext .telCase) TEL_CASE.CASE); decide (-640 ≤ t ∧ t ≤ 1520)
  | 10 => (List.finRange 16).all s.mirrored
  | _ => false

/-- AVAIL_COND; ALL is evaluated from ST-15. -/
def State.viewAvail (s : State) : Nat :=
  let m := bitMap 11 s.condition
  m + (if m = 2 ^ 11 - 1 ∧ s.litReady then 2 ^ 31 else 0)

/-- A fall of ALL is counted (AVAIL_LAPSES); the register keeps what it showed last. -/
def State.noteAvail (s : State) : State :=
  let v := s.viewAvail
  let s := if s.isSet (.ext .availCond) AVAIL_COND.ALL ∧ v < 2 ^ 31 then s.bump (.ext .availLapses) AVAIL_LAPSES.COUNT else s
  s.wr (.ext .availCond) (BitVec.ofNat 32 v)

/-! ### Power, ledger and security (R413, R431 to R436) -/

/-- PWR_DOMj (R413). -/
def State.viewDoms (s : State) (j : Nat) : Nat :=
  ((List.range 16).map (fun i => (match s.domains[16 * j + i]? with | some .off => 0 | some .retain => 1 | some .on => 2 | some .retired => 3 | none => 0) * 4 ^ i)).sum

/-- Four bytes of a byte string, byte 4k in bits [7:0]. -/
def wordOf (b : List Byte) (k : Nat) : Nat := fromBytes ((b.drop (4 * k)).take 4)

/-- The hash of the attestation key in force: of its modulus and the exponent 65,537 (R425, R430). -/
def State.attHash (s : State) : List Byte := match s.sec.attKey with | some n => (Config.sha512 ((Config.attModulus n).toList ++ [0, 1, 0, 1])).toList | none => []

/-- SEC_STATUS (R436). -/
def State.viewSec (s : State) : Nat :=
  let r := Reg.ext .secStatus
  s.fld r SEC_STATUS.ROOT_ALT + (if s.ownerEnrolled then 2 else 0) + (if s.sec.ownerHash.isSome then 4 else 0) + (if s.sec.erased then 8 else 0)
  + (if s.sec.attKey.isSome then 16 else 0) + s.fld r SEC_STATUS.ATT_GEN * 2 ^ 5 + s.fld r SEC_STATUS.STORE_BAD * 2 ^ 6 + s.fld r SEC_STATUS.HATCH_OPEN * 2 ^ 7
  + (if s.sec.erasing then 2 ^ 8 else 0)

/-! ### The value a register reads -/

/-- A word with one field replaced by what it shows now. -/
def State.shown (s : State) (r : Reg) (f : FieldSpec) (v : Nat) : Word := f.put (s.rd r) v

/-- What a register reads: of the double-buffered values the copy written, but DIV in force (R200, R219). Through a function (R387: FUNC answers for the function that carries the read; a keeper reads as its Dome's function, DEDUCED). -/
def State.live (s : State) (by_ : Func) (r : Reg) : Word :=
  match r with
  | .charTable c => BitVec.ofNat 32 (s.viewTable c)
  | .charPos c => BitVec.ofNat 32 (s.viewPos c)
  | .charIter c => BitVec.ofNat 32 (s.chans[c].iter % 2 ^ 24)
  | .charGoff c => BitVec.ofNat 32 (s.granuleOffset c)
  | .charPlayedLo c => BitVec.ofNat 32 (s.granulesPlayed c)
  | .charPlayedHi c => BitVec.ofNat 32 (s.granulesPlayed c / 2 ^ 32)
  | .charLead c => CHAR_LEAD.LEAD_MIN.put (s.shown r CHAR_LEAD.LEAD (min (2 ^ 16 - 1) (s.viewLead c))) (s.viewLeadMin c)
  | .charForever c => BitVec.ofNat 32 (bitMap 8 (fun k => match s.chans[c].frames.reverse[k]? with | some f => f.forever | none => false))
  | .charFrame c k => BitVec.ofNat 32 (match s.chans[c].frames.reverse[k.val]? with | some f => f.remaining | none => 0)
  | .jmpGroup c => s.shown r JMP_GROUP.LEADER (if s.leads c then 1 else 0)
  | .jmpPend c => BitVec.ofNat 32 (s.viewPend c)
  | .jmpPendGc c => BitVec.ofNat 32 (s.viewPendGc c)
  | .jmpReady c k => BitVec.ofNat 32 (s.viewReady c k.val)
  | .lantNco c => BitVec.ofNat 32 (s.viewNco c)
  | .lantLatency c => BitVec.ofNat 32 (s.lg c)
  | .lantRateLo c => BitVec.ofNat 32 (s.ncoNow c).rate.toNat
  | .lantRateHi c => BitVec.ofNat 32 ((s.ncoNow c).rate.toNat / 2 ^ 32)
  | .lantSecFreqLo c k => BitVec.ofNat 32 (s.ncoNow c).freq[k].toNat
  | .lantSecFreqHi c k => s.shown r LANT_SECk_FREQ_HI.FREQ_HI ((s.ncoNow c).freq[k].toNat / 2 ^ 32)
  | .lantSecPhase c k => BitVec.ofNat 32 ((s.ncoNow c).acc[k].toNat / 2 ^ 16)
  | .tndState st => BitVec.ofNat 32 s.streams[st].st.code
  | .tndFill st => BitVec.ofNat 32 (s.streams[st].fill % 2 ^ 17)
  | .tndPosLo st => BitVec.ofNat 32 (s.streamPos st)
  | .tndPosHi st => BitVec.ofNat 32 (s.streamPos st / 2 ^ 32)
  | .tndLanded st => BitVec.ofNat 32 s.streams[st].total
  | .outState c => BitVec.ofNat 32 (s.viewOut c)
  | .outDarknGran c => s.shown r OUT_DARKN_GRAN.GRANULES (s.viewDarkn c)
  | .merApply m => s.shown r MER_APPLY.SFREQ_PENDING (if s.sfreqPending m then 1 else 0)
  | .merSfreq m => MER_SFREQ.F.put (MER_SFREQ.M.put 0 s.mers[m].staged.m) s.mers[m].staged.f
  | .merOut m k => s.viewMerOut m k
  | .merLight m => s.shown r MER_LIGHT.DRIVING (if s.lightDrives m then 1 else 0)
  | .trnNowLo m => if s.timebase m then BitVec.ofNat 32 s.coarse else s.rd r
  | .trnNowHi m => if s.timebase m then BitVec.ofNat 32 (s.coarse / 2 ^ 32) else s.rd r
  | .eng m e .ctrl => s.shown r ENG_CTRL.RUN (if s.engBusy m e then 1 else 0)
  | .bcnSrc sr => match ownerField sr.val with
    | some (o, f) => s.shown r BCN_SRCs.CH (s.fld o f)
    | none => s.rd r
  | .kprState k => BitVec.ofNat 32 (s.viewKeeper k)
  | .kprBind k i => s.shown r KPR_BINDi.PROTECT (if s.protectedRun k i then 1 else 0)
  | .kprShadow k => BitVec.ofNat 32 (bitMap 16 (fun c => s.shadowsLamp k ⟨c / 4 % 4, by omega⟩))
  | .moorWq d => s.shown r MOOR_WQ.FILL (((List.finRange 5).map (fun p => s.writeFill d p)).foldl max 0)
  | .hstTxn => BitVec.ofNat 32 s.viewTxn
  | .hstDring d q => BitVec.ofNat 32 (s.ringState d s.host.drings[q].up s.host.drings[q].func + s.consumerOf q % 2 ^ 16 * 2 ^ 16)
  | .hstRring d q => BitVec.ofNat 32 (s.ringState d s.host.rrings[q].up s.host.rrings[q].func
      + (if s.host.rrings[q].up && s.rringFull q 0 && s.host.rrings[q].waiting.any (fun x => !x.async) then 4 else 0) + s.host.rrings[q].prod % 2 ^ 16 * 2 ^ 16)
  | .glob .gFunc => BitVec.ofNat 32 (by_.val + (if s.linkUp (twin by_) then 2 else 0))
  | .glob (.featOffer k) => BitVec.ofNat 32 (s.offer k)
  | .glob .regStatus => s.shown r REG_STATUS.TEST_ACTIVE (if (List.finRange 8).any s.underTest then 1 else 0)
  | .ext .ledgStatus => s.shown r LEDG_STATUS.LOG_FREE (logSize - s.ledger.log.length)
  | .ext .ledgAlt => s.shown r LEDG_ALT.STICKY s.ledger.sticky
  | .ext .availCond => BitVec.ofNat 32 s.viewAvail
  | .ext (.pwrDom j) => BitVec.ofNat 32 (s.viewDoms j.val)
  | .ext .secStatus => BitVec.ofNat 32 s.viewSec
  | .ext .secFloors => BitVec.ofNat 32 s.sec.vendorFloor
  | .ext .secOwnerFloor => BitVec.ofNat 32 s.sec.ownerFloor
  | .ext .secHatch => s.shown r SEC_HATCH.OPENINGS (min 65535 s.sec.openings)
  | .ext (.secOwnerHash k) => BitVec.ofNat 32 (wordOf (s.sec.ownerHash.getD []) k.val)
  | .ext (.secAttHash k) => BitVec.ofNat 32 (wordOf s.attHash k.val)
  | .ext (.secAttKey k) => BitVec.ofNat 32 (match s.sec.attKey with | some n => wordOf (Config.attModulus n).toList.reverse k.val | none => 0)
  | r => s.rd r

end Sys2Proof.Machine
end

