-- ==== Sys2Proof/Machine/Regs.lean ====
section
/-! DEFINITION. Register writes and reads: access codes, locks, claims, masked writes, the actions of fields, clearing reads, latches, the vote of three copies and parity
(spec 14_register_conventions.md R368 to R382, R389, R390). -/
namespace Sys2Proof.Machine
open Sys2Proof

/-! ### Locks (R373 and the chapter of each block) -/

/-- A channel is PRIMING, PLAYING or in FAULT, and not one of those that stop first. -/
def State.busyBut (s : State) (stops : List ChanId) (c : ChanId) : Bool := s.chans[c].st.busy && !stops.contains c
def State.anyBusyBut (s : State) (stops : List ChanId) : Bool := (List.finRange 16).any (s.busyBut stops)

/-- A task input of a keeper is busy (R245). -/
def State.keeperInputBusy (s : State) (k : KeeperId) (i : Fin 16) : Bool := s.inputBusy ⟨16 * k.val + i.val, by omega⟩

/-- Whether a field is locked, once the channels of `stops` have stopped (R71, R103, R130, R157, R176, R187, R219, R232, R236, R255, R285, R318, R388, R390). TRAIN_MASK has no lock condition. -/
def State.lockedAfter (s : State) (stops : List ChanId) (r : Reg) (f : FieldSpec) : Bool :=
  match r with
  | .charCtrl c => f.access == .lk && s.busyBut stops c
  | .jmpGroup c => f.access == .lk && s.busyBut stops c
  | .outCtrl c => f.access == .lk && s.busyBut stops c
  | .lantCtrl c => f.access == .lk && (s.busyBut stops (evenOf c) || s.busyBut stops (oddOf c))
  | .tndCtrl st => f.access == .lk && s.attached st
  | .tndRegion st => f.access == .lk && s.attached st
  | .tndRingLo st => f.access == .lk && s.attached st
  | .tndRingHi st => f.access == .lk && s.attached st
  | .tndConsLo st => f.access == .lk && s.attached st
  | .tndConsHi st => f.access == .lk && s.attached st
  | .tndWmA st => f.access == .lk && s.attached st
  | .biasClampLo b => f.access == .lk && s.fld (.biasCtrl b) BIAS_CTRL.CLASS != 0
  | .biasClampHi b => f.access == .lk && s.fld (.biasCtrl b) BIAS_CTRL.CLASS != 0
  | .merCtrl _ => f.access == .lk && s.anyBusyBut stops
  | .merSfreq _ => f.access == .lk && s.anyBusyBut stops
  | .merOut _ _ => f.access == .lk && s.anyBusyBut stops
  | .merSyncCtrl _ => f.access == .lk && s.anyBusyBut stops
  | .trnLogCtrl => f.access == .lk && s.isSet .trnLogCtrl TRN_LOG_CTRL.EN
  | .eng m e _ => f.access == .lk && s.engBusy m e
  | .bcnCons i => f == BCN_CONSi.EN && (match s.host.txns[i.val - 208]? with | some x => decide (208 ≤ i.val) && x.phase != .closed | none => false)
  | .kprBind k i => f.access == .lk && (decide (i.val < 4) || s.keeperInputBusy k i)
  | .mpTs0 d _ x => f.access == .lk && s.timingSet d == x
  | .mpTs1 d _ x => f.access == .lk && s.timingSet d == x
  | .mpTs2 d _ x => f.access == .lk && s.timingSet d == x
  | .mpTs3 d _ x => f.access == .lk && s.timingSet d == x
  | .mpTs4 d _ x => f.access == .lk && s.timingSet d == x
  | .mpTs5 d _ x => f.access == .lk && s.timingSet d == x
  | .glob .dbLo => f.access == .lk && decide (14 ≤ s.fld (.glob .gStart) START.STEP)
  | .glob .dbHi => f.access == .lk && decide (14 ≤ s.fld (.glob .gStart) START.STEP)
  | .glob .dring0Lo => f.access == .lk && s.isSet (.glob .dring0Cfg) DRING0_CFG.EN
  | .glob .dring0Hi => f.access == .lk && s.isSet (.glob .dring0Cfg) DRING0_CFG.EN
  | .glob .dring0Cfg => f.access == .lk && s.isSet (.glob .dring0Cfg) DRING0_CFG.EN && (f != DRING0_CFG.FUNC || s.linkUp s.host.drings[(0 : RingId)].func)
  | .glob .rring0Lo => f.access == .lk && s.isSet (.glob .rring0Cfg) RRING0_CFG.EN
  | .glob .rring0Hi => f.access == .lk && s.isSet (.glob .rring0Cfg) RRING0_CFG.EN
  | .glob .rring0Cfg => f.access == .lk && s.isSet (.glob .rring0Cfg) RRING0_CFG.EN && (f != RRING0_CFG.FUNC || s.linkUp s.host.rrings[(0 : RingId)].func)
  | _ => false

/-- A field is locked now. -/
def State.fieldLocked (s : State) (r : Reg) (f : FieldSpec) : Bool := s.lockedAfter [] r f

/-! ### Who writes (R264, R353, R356, R358) -/

/-- The writer of a register: a function over BAR0, a keeper routine, or a transaction of a function at its effect granule. -/
inductive Writer where
  | func (f : Func) | keeper (k : KeeperId) | txn (f : Func)
deriving DecidableEq, Repr

/-- The function that owns what the write sets up: a keeper's is that of its Dome; the owner of a stream that a keeper attaches is its home Dome's (R353). -/
def Writer.owner (w : Writer) : Func := match w with | .func f => f | .keeper k => domeOfKeeper k | .txn f => f
def Writer.isTxn (w : Writer) : Bool := match w with | .txn _ => true | _ => false

/-- The register a SET item names, its mask and its value (R347, R381): a MASKED item names the half-word HIGH tells. -/
def setItemReg (i : SetItem) : Option Reg := if i.masked ∧ 0x800000 ≤ i.offset.toNat then none else Reg.ofAddr? i.offset.toNat
def halfMask (high : Bool) (v : Word) : Word := if high then v &&& 0xFFFF0000 else v >>> 16
def halfValue (high : Bool) (v : Word) : Word := if high then v <<< 16 else v &&& 0xFFFF
def setItemMask (i : SetItem) : Word := if i.masked then halfMask i.high i.value else 0xFFFFFFFF
def setItemVal (i : SetItem) : Word := if i.masked then halfValue i.high i.value else i.value

/-- A transaction is open, armed or waits for its effect granule. -/
def Txn.live (x : Txn) : Bool := x.phase != .closed
/-- A transaction claims a register, or a channel. -/
def Txn.claimsReg (x : Txn) (r : Reg) : Bool := x.sets.any (fun i => setItemReg i == some r)
def Txn.startChans (x : Txn) : List ChanId := x.starts.flatMap (fun i => i.entries.map (·.1))
def Txn.chans (x : Txn) : List ChanId := x.startChans ++ x.stops ++ x.swaps.map (·.1)
/-- Every transaction that claims its targets: those of the slots, and the one-item ones. -/
def State.liveTxns (s : State) : List Txn := s.host.txns.toList.filter Txn.live ++ s.host.singles
/-- A register is claimed by a transaction (R356). -/
def State.claimed (s : State) (r : Reg) : Bool := s.liveTxns.any (fun x => x.claimsReg r)

/-! ### Voted copies and parity (R378 to R380) -/

def Reg.lampOf? (r : Reg) : Option LampId := if h : 4 ≤ r.die.val then some ⟨r.die.val - 4, by have := r.die.isLt; omega⟩ else none
/-- A Lamp die publishes REG_VOTE or, for another cause, REG_PARITY, a Dome REG; a Meridian correction is counted only. The information word is the bit of REG_STATUS that the cause sets (R254). -/
def State.regEvent (s : State) (r : Reg) (cause : FieldSpec) : State :=
  let info := cause.mask.toNat
  match r.lampOf? with
  | some n => s.publish (if cause = REG_STATUS.VOTE_CORR then .regVote n else .regParity n) info
  | none => if r.die.val < 2 then s else s.publish (.reg ⟨(r.die.val - 2) % 2, by omega⟩) info

/-- The value copy `i` of a voted field holds. -/
def State.copyOf (s : State) (r : Reg) (f : FieldSpec) (i : Fin 3) : Nat :=
  match s.copies.find? (fun x => x.reg == r && x.lo == f.lo && x.copy == i) with
  | some x => x.value % 2 ^ f.width
  | none => s.fld r f

/-- The copies of a voted field are compared: two that agree give the value and rewrite the third; three that differ leave copy 0 in force (R378, R379). -/
def State.voteField (s : State) (r : Reg) (f : FieldSpec) : State :=
  if f.voted ∧ s.copies.any (fun x => x.reg == r && x.lo == f.lo) then
    let a := s.copyOf r f 0
    let b := s.copyOf r f 1
    let c := s.copyOf r f 2
    if a = b ∨ a = c ∨ b = c then
      let s := if a = b ∧ b = c then s
        else (((s.bump (.glob (.voteCorr r.die)) VOTE_CORRd.COUNT).raise (.glob .regStatus) REG_STATUS.VOTE_CORR).regEvent r REG_STATUS.VOTE_CORR)
      let s := s.setFld r f (if a = b ∨ a = c then a else b)
      { s with copies := s.copies.filter (fun x => !(x.reg == r && x.lo == f.lo)) }
    else
      let s := (s.setFld r f a).raise (.glob .regStatus) REG_STATUS.VOTE_FAIL
      let s := (s.setFld (.glob .parityAddr) PARITY_ADDR.OFFSET r.addr).regEvent r REG_STATUS.VOTE_FAIL
      { s with copies := s.copies.filter (fun x => !(x.reg == r && x.lo == f.lo)) ++ [⟨r, f.lo, 1, b⟩, ⟨r, f.lo, 2, c⟩] }
  else s

/-- The parity of a register without voted fields is checked; the register keeps acting on its stored value (R380). -/
def State.parityCheck (s : State) (r : Reg) : State :=
  if s.badPar.contains r then
    let s := ((s.raise (.glob .regStatus) REG_STATUS.PARITY).setFld (.glob .parityAddr) PARITY_ADDR.OFFSET r.addr).bump (.glob (.parityErr r.die)) PARITY_ERRd.COUNT
    s.regEvent r REG_STATUS.PARITY
  else s

/-- What a read or the sweep checks in one register. -/
def State.checkReg (s : State) (r : Reg) : State := (r.fields.foldl (fun s f => s.voteField r f) s).parityCheck r

/-- A write sets all three copies, and forms new parity (R378, R380). -/
def State.sound (s : State) (r : Reg) (mask : Word) : State :=
  if s.copies = [] ∧ s.badPar = [] then s
  else { s with
    copies := s.copies.filter (fun x => !(x.reg == r && r.fields.any (fun f => f.lo == x.lo && f.mask &&& mask != 0)))
    badPar := s.badPar.filter (fun x => x != r) }

/-! ### Ring 0 (R343, R390) -/

/-- The base of a ring is aligned to the smaller of 4 KB and its size in bytes, of entries of `entry` bytes. -/
def ringAligned (base log2 entry : Nat) : Bool := base % min 4096 (2 ^ log2 * entry) == 0
/-- The doorbell address has been written: it is not 0 (DESIGN CHOICE, log entry 21). -/
def State.doorbellSet (s : State) : Bool := s.doorbell != 0

/-- A ring 0 EN write is refused. -/
def State.ringCfgRefused (s : State) : State := s.raise (.glob .regStatus) REG_STATUS.RING_CFG

/-- A write of EN to DRING0_CFG that changes it (R390). -/
def State.dring0En (s : State) (on : Bool) : State :=
  let r := Reg.glob .dring0Cfg
  if on then
    let base := s.rd64 (.glob .dring0Lo) (.glob .dring0Hi)
    let n := s.fld r DRING0_CFG.SIZE_LOG2
    let q : RingId := Fin.ofNat 64 (s.fld r DRING0_CFG.DEF_RRING)
    if ringAligned base n 64 ∧ 4 ≤ n ∧ n ≤ 16 ∧ s.doorbellSet ∧ s.host.rrings[q].up then
      let i := s.slotAt 0
      (s.updDring 0 (fun _ => ⟨true, Fin.ofNat 2 (s.fld r DRING0_CFG.FUNC), base, n, q, i, i, [], none, []⟩)).setFld r DRING0_CFG.EN 1
    else s.ringCfgRefused
  else if s.host.drings[(0 : RingId)].began.isSome ∨ s.ringStalled 0 ∨ s.host.drings[(0 : RingId)].prod ≠ s.host.drings[(0 : RingId)].cons then s.ringCfgRefused
  else (s.updDring 0 (fun _ => HostIf.reset.drings[(0 : RingId)])).setFld r DRING0_CFG.EN 0

/-- A report ring is the default of a dispatch ring that is set up (R343). -/
def State.isDefault (s : State) (q : RingId) : Bool := s.host.drings.toList.any (fun x => x.up && x.defReport == q)

/-- A write of EN to RRING0_CFG that changes it (R390). -/
def State.rring0En (s : State) (on : Bool) : State :=
  let r := Reg.glob .rring0Cfg
  if on then
    let base := s.rd64 (.glob .rring0Lo) (.glob .rring0Hi)
    let n := s.fld r RRING0_CFG.SIZE_LOG2
    if ringAligned base n 32 ∧ 4 ≤ n ∧ n ≤ 16 ∧ s.doorbellSet then
      let i := s.slotAt 64
      (s.updRring 0 (fun _ => ⟨true, Fin.ofNat 2 (s.fld r RRING0_CFG.FUNC), base, n, 0, 0, 0, i, i, [], 0, none⟩)).setFld r RRING0_CFG.EN 1
    else s.ringCfgRefused
  else if s.isDefault 0 then s.ringCfgRefused
  else (s.updRring 0 (fun _ => HostIf.reset.rrings[(0 : RingId)])).setFld r RRING0_CFG.EN 0

/-- A dispatch ring is rebound to a function, its indices unchanged; the reports kept for it are posted (R28, R354, R390). -/
def State.rebindDring (s : State) (r : RingId) (f : Func) : State :=
  let kept := s.host.drings[r].kept
  kept.foldl (fun s p => s.queueReport p.1 p.2) (s.updDring r (fun x => { x with func := f, kept := [] }))
/-- A report ring is rebound. -/
def State.rebindRring (s : State) (r : RingId) (f : Func) : State := s.updRring r (fun x => { x with func := f })

/-! ### Features (R340, R374, R389) -/

/-- A write of a FEAT_ACCEPT register: kept to its offered bits; fixed once FEAT_ACCEPT0 has been written, which with BASE among them completes ST-14. FEAT_ACCEPT0 counts as written when the
negotiation is closed: `closed`. -/
def State.featWrite (s : State) (k : Fin 8) (mask v : Word) : State :=
  let r := Reg.glob (.featAccept k)
  let new := ((s.rd r &&& ~~~mask) ||| (v &&& mask)) &&& BitVec.ofNat 32 (s.offer k)
  let closed := s.power.negotiated
  if closed then
    if new = s.rd r then s
    else (s.raise (.glob .regStatus) REG_STATUS.LOCK_VIOL).setFld (.glob .violAddr) VIOL_ADDR.OFFSET r.addr
  else
    let s := s.wr r new
    if k = 0 then
      let s := s.updPower (fun p => { p with negotiated := true })
      if bitOf new.toNat 0 ∧ s.fld (.glob .gStart) START.STEP = 13 ∧ ¬ s.halted then s.completeStart else s
    else s

/-! ### What a write stores (R372, R373, R381) -/

/-- A field is named by a mask. -/
def FieldSpec.named (f : FieldSpec) (mask : Word) : Bool := f.mask &&& mask != 0

/-- Fields whose own rules set them, or ignore some values: TABLE_HOME (R38), reserved SWAP_MODE (R40), ATTACH and FILL_MODE (R157), the limit and the watermarks (R144, R152), the
double-buffered values (R200), write-queue marks (R299), a channel that BCN_SRCs only mirrors (R240), EN of ring 0 (R390), and the sector and curvature registers of CH(2k+1) of a pair (R130; DEDUCED,
log entry 116). -/
def State.ownWay (s : State) (r : Reg) (f : FieldSpec) (new : Word) : Bool :=
  match r with
  | .charCtrl _ => f == CHAR_CTRL.TABLE_HOME || (f == CHAR_CTRL.SWAP_MODE && decide (2 ≤ f.get new))
  | .tndCtrl st => f == TND_CTRL.ATTACH || (f == TND_CTRL.FILL_MODE && s.attached st && f.get new == 3)
  | .tndLimit _ => true
  | .tndWmA _ => true
  | .tndWmB _ => true
  | .lantSecFreqLo c _ => s.pairSlave c
  | .lantSecFreqHi c _ => s.pairSlave c
  | .lantCurve c _ => s.pairSlave c
  | .merSfreq _ => true
  | .merOut _ _ => f.access == .lk || f.access == .rw
  | .moorWq _ => f.access == .rw && !(decide (8 ≤ MOOR_WQ.LOW.get new) && decide (MOOR_WQ.LOW.get new < MOOR_WQ.HIGH.get new) && decide (MOOR_WQ.HIGH.get new ≤ 120))
  | .bcnSrc sr => f == BCN_SRCs.CH && chOwned sr.val
  | .glob .dring0Cfg => f == DRING0_CFG.EN
  | .glob .rring0Cfg => f == RRING0_CFG.EN
  | _ => false

/-- A field that its register's table makes read-only for this register: the channel of a transaction slot's input (R255). -/
def Reg.fixed (r : Reg) (f : FieldSpec) : Bool := match r with | .bcnCons i => f == BCN_CONSi.CH && decide (208 ≤ i.val) | _ => false

/-- A field takes a write: RW and its kinds, LK while unlocked. -/
def State.takes (s : State) (r : Reg) (f : FieldSpec) : Bool :=
  !r.fixed f &&
  match f.access with
  | .rw => !s.fieldLocked r f
  | .rsv => true
  | .act => true
  | .staged => true
  | .lk => !s.fieldLocked r f
  | _ => false

/-- The fields of a register that a write names and that take it. -/
def State.taken (s : State) (r : Reg) (mask : Word) : List FieldSpec := r.fields.filter (fun f => f.named mask && s.takes r f)

/-- The bits a write stores. -/
def State.storeMask (s : State) (r : Reg) (mask new : Word) : Word :=
  ((s.taken r mask).filter (fun f => f.access != .act && f.access != .staged && !s.ownWay r f new)).foldl (fun m f => m ||| f.mask) 0

/-! ### The actions and consequences of a write -/

/-- A write of 1 to a field that acts, or any write of a field that does. -/
def asks (taken : List FieldSpec) (f : FieldSpec) (new : Word) : Bool := taken.contains f && f.get new == 1

/-- The value a taken field is written with, else the one it has. -/
def written (taken : List FieldSpec) (f : FieldSpec) (new : Word) (old : Nat) : Nat := if taken.contains f then f.get new else old

/-- The granule edge of a channel's Lamp at which a word takes effect (R119): that of a transaction's effect, else within 4 gc of the write, where a free value says. -/
def State.freqEdge (s : State) (w : Writer) (c : ChanId) : Nat × State :=
  match w with
  | .txn _ => (s.nextEdge c, s)
  | _ => let (v, s) := s.fresh; (s.granC c + 1 + v.toNat % 4, s)

/-- Writes to the double-buffered values (R200, R205): the shared ones through the leading Meridian's window, which both hold; each Meridian's own delays. -/
def State.stageOut (s : State) (m : MerId) (k : Fin 12) (taken : List FieldSpec) (new : Word) : State :=
  if 10 ≤ k.val then s
  else
    let s := if m = s.leader then
        (List.finRange 2).foldl (fun (s : State) (i : MerId) => s.updMer i (fun x => { x with staged := { x.staged with
          div := if 6 ≤ k.val then x.staged.div else x.staged.div.set k (written taken MER_OUTk.DIV new x.staged.div[k])
          en := x.staged.en.set k (written taken MER_OUTk.EN new (if x.staged.en[k] then 1 else 0) == 1) } })) s
      else s
    s.updMer m (fun x => { x with staged := { x.staged with delay := x.staged.delay.set k (written taken MER_OUTk.DELAY new x.staged.delay[k]) } })

def State.stageFreq (s : State) (m : MerId) (taken : List FieldSpec) (new : Word) : State :=
  if m = s.leader then
    (List.finRange 2).foldl (fun (s : State) (i : MerId) => s.updMer i (fun x => { x with staged := { x.staged with
      m := written taken MER_SFREQ.M new x.staged.m, f := written taken MER_SFREQ.F new x.staged.f } })) s
  else s

/-- What follows from a write, once its fields are stored: `taken` are the fields it wrote, `new` the word it gave them, `old` the word that stood before. -/
def State.afterWrite (s : State) (w : Writer) (r : Reg) (taken : List FieldSpec) (new old : Word) : State :=
  match r with
  | .charCtrl c =>
    let s := if taken.contains CHAR_CTRL.TABLE_HOME then s.changeHome c (CHAR_CTRL.TABLE_HOME.get new) else s
    if asks taken CHAR_CTRL.SWAP_CANCEL new then s.cancelSwap c else s
  | .lantSecFreqLo c k => s.freqHold c k new
  | .lantSecFreqHi c k => let (g, s) := s.freqEdge w c; s.freqWrite c k (LANT_SECk_FREQ_HI.FREQ_HI.get new) g
  | .lantTrim c => let (g, s) := s.freqEdge w c; s.lantWritten c g
  | .lantPoff c => let (g, s) := s.freqEdge w c; s.lantWritten c g
  | .lantDdsAmp c => let (g, s) := s.freqEdge w c; s.lantWritten c g
  | .lantCtrl c =>
    let (g, s) := s.freqEdge w c
    let s := s.lantWritten c g
    if c = evenOf c then s.pairChanged c (LANT_CTRL.PAIR.get old == 1) else s
  | .tndCtrl st =>
    if taken.contains TND_CTRL.ATTACH then
      s.writeAttach st (TND_CTRL.ATTACH.get new == 1) (match w with | .keeper _ => domeOfStream st | _ => w.owner)
    else s
  | .tndLimit st => if taken = [] then s else s.writeLimit st new
  | .tndWmA st => if taken = [] then s else s.writeMarks st false new
  | .tndWmB st => if taken = [] then s else s.writeMarks st true new
  | .outCtrl c => s.markersWritten c
  | .outMkDelay c => s.markersWritten c
  | .outCell c => if asks taken OUT_CELL.SWAP_NOW new then s.swapAsked c else s
  | .biasCtrl b => s.biasClassWritten b (BIAS_CTRL.CLASS.get old)
  | .biasPdata b => if taken.contains BIAS_PDATA.DATA then s.pdataWrite b (BIAS_PDATA.DATA.get new) else s
  | .merSfreq m => s.stageFreq m taken new
  | .merOut m k => s.stageOut m k taken new
  | .merApply m => if asks taken MER_APPLY.NOW new then s.applyStaged m else s
  | .merDpllCmd m =>
    let s := if asks taken MER_DPLL_CMD.SLEW new then s.slewAsked m else s
    if asks taken MER_DPLL_CMD.STEP_SYNC new then s.stepAsked m else s
  | .merSyncCtrl m =>
    let s := if asks taken MER_SYNC_CTRL.FIRE new then s.syncFires m else s
    if asks taken MER_SYNC_CTRL.MEASURE_ECHO new then s.echoTaken m else s
  | .eng m e .ctrl => if taken.contains ENG_CTRL.RUN then (if ENG_CTRL.RUN.get new = 1 then s.engStart m e else s.engAbort m e) else s
  | .bcnInject => if taken = [] then s else s.publish (.inject s.leader) (s.fld .bcnInject BCN_INJECT.INFO)
  | .bcnTmrCtrl t =>
    let s := if asks taken BCN_TMRt_CTRL.STOP new then s.timerStop t else s
    if asks taken BCN_TMRt_CTRL.START new then s.timerStart t else s
  | .kprBind k i => if taken.contains KPR_BINDi.EN then s.setFld (.kprBind k i) KPR_BINDi.FAILED 0 else s
  | .moorMig d => if asks taken MOOR_MIG.START new then s.migrationAsked d else s
  | .moorFreq d => if asks taken MOOR_FREQ.GO new then s.freqStart d (s.fld (.moorFreq d) MOOR_FREQ.TARGET_DIV) else s
  | .glob .dring0Cfg =>
    let s := if taken.contains DRING0_CFG.FUNC ∧ s.isSet r DRING0_CFG.EN then s.rebindDring 0 (Fin.ofNat 2 (s.fld r DRING0_CFG.FUNC)) else s
    if taken.contains DRING0_CFG.EN ∧ DRING0_CFG.EN.get new ≠ s.fld r DRING0_CFG.EN then s.dring0En (DRING0_CFG.EN.get new == 1) else s
  | .glob .rring0Cfg =>
    let s := if taken.contains RRING0_CFG.FUNC ∧ s.isSet r RRING0_CFG.EN then s.rebindRring 0 (Fin.ofNat 2 (s.fld r RRING0_CFG.FUNC)) else s
    if taken.contains RRING0_CFG.EN ∧ RRING0_CFG.EN.get new ≠ s.fld r RRING0_CFG.EN then s.rring0En (RRING0_CFG.EN.get new == 1) else s
  | .ext .ledgCtrl =>
    let s := if taken.contains LEDG_CTRL.CLEAR_ALT then s.clearAlt (LEDG_CTRL.CLEAR_ALT.get new) else s
    if asks taken LEDG_CTRL.COMPACT new then s.compactAsked else s
  | .ext .pwrCtrl =>
    let s := if taken.contains PWR_CTRL.REQ then s.requestPower (PWR_CTRL.REQ.get new) (!w.isTxn) else s
    if asks taken PWR_CTRL.RESET new then s.fullReset false else s
  | _ => s

/-- The word the master store keeps of a write (R406): a frequency word as written; ATTACH is kept by the stream. -/
def State.masterWord (s : State) (r : Reg) (new : Word) : Word :=
  match r with
  | .lantSecFreqLo _ _ => new
  | .lantSecFreqHi _ _ => new
  | .tndCtrl _ => TND_CTRL.ATTACH.put (s.rd r) 0
  | r => s.rd r

/-- A value brought to the nearer limit of a range. -/
def clampTo (lo hi v : Nat) : Nat := max lo (min hi v)
/-- The word a write gives a register whose field is clamped to its range (R187, R188, R189, R237, R318, R333, R367). -/
def Reg.clamped (r : Reg) (w : Word) : Word :=
  match r with
  | .outCtrl _ => OUT_CTRL.SETTLE.put w (clampTo 50 10000 (OUT_CTRL.SETTLE.get w))
  | .biasCommon _ => BIAS_COMMON.TICK.put w (max 64 (BIAS_COMMON.TICK.get w))
  | .lookCtrl _ => LOOK_CTRL.BLOCK.put w (clampTo 8 32 (LOOK_CTRL.BLOCK.get w))
  | .trnInCtrl _ => TRN_INk_CTRL.HOLDOFF.put w (min 4000 (TRN_INk_CTRL.HOLDOFF.get w))
  | .trnInStuck _ => TRN_INk_STUCK.TIME.put w (min 1000000 (TRN_INk_STUCK.TIME.get w))
  | .moorRef _ => MOOR_REF.NBR_K.put w (clampTo 6 12 (MOOR_REF.NBR_K.get w))
  | .pbCtrl _ => PB_CTRL.INTERVAL.put w (max 20 (PB_CTRL.INTERVAL.get w))
  | .hstCtrl _ => HST_CTRL.POLL.put w (clampTo 5 10000 (HST_CTRL.POLL.get w))
  | _ => w

/-- A write acts on a register field by field (R372, R373): `mask` names its bits, all ones for a plain write; a field named in part is written whole, with its unmasked bits as they read (R381). A
power request is copied into the master store before it acts. -/
def State.putReg (s : State) (w : Writer) (r : Reg) (mask v : Word) : State :=
  let old := s.live w.owner r
  let new := r.clamped ((old &&& ~~~mask) ||| (v &&& mask))
  let taken := s.taken r mask
  let hit := r.fields.any (fun f => f.named mask && s.fieldLocked r f)
  let store := s.storeMask r mask new
  let s := if hit then s.bump (.glob .lockedWr) LOCKED_WR.COUNT else s
  let s := (s.wr r ((s.rd r &&& ~~~store) ||| (new &&& store))).sound r (taken.foldl (fun m f => m ||| f.mask) 0)
  match r with
  | .ext .pwrCtrl => (s.toMaster r (s.rd r)).afterWrite w r taken new old
  | _ => let s := s.afterWrite w r taken new old; s.toMaster r (s.masterWord r new)

/-- A write to a register: one to a register that an open transaction claims is ignored and counted (R356, R373). -/
def State.writeReg (s : State) (w : Writer) (r : Reg) (mask v : Word) : State :=
  if ¬ r.fields.any (fun f => f.named mask) then s
  else if !w.isTxn && s.claimed r then s.bump (.glob .lockedWr) LOCKED_WR.COUNT
  else match r with
    | .glob (.featAccept k) => s.featWrite k mask v
    | r => s.putReg w r mask v

/-! ### Reads (R376, R377) -/

/-- The HI registers a read of a LO register latches (R377). -/
def Reg.latches : Reg → List Reg
  | .charPlayedLo c => [.charPlayedHi c]
  | .lantRateLo c => [.lantRateHi c]
  | .lantSecFreqLo c k => [.lantSecFreqHi c k]
  | .tndPosLo st => [.tndPosHi st]
  | .merSyncStampLo m => [.merSyncStampHi m]
  | .merFovTimeLo m => [.merFovTimeHi m]
  | .trnNowLo m => [.trnNowHi m]
  | .trnInLast m i w => if w = 0 then [.trnInLast m i 1, .trnInLast m i 2, .trnInLast m i 3] else []
  | .eng m e .pLo => [.eng m e .pHi]
  | .eng m e .t0Lo => [.eng m e .t0Hi]
  | .eng m e .meanLo => [.eng m e .meanHi]
  | .eng m e .minLo => [.eng m e .minHi]
  | .eng m e .maxLo => [.eng m e .maxHi]
  | .snapTLo => [.snapTHi]
  | _ => []

/-- What a requester has latched of a register. -/
def State.latched (s : State) (q : Requester) (r : Reg) : Option Word := (s.latches.find? (fun x => x.who == q && x.reg == r)).map (·.value)
/-- A requester latches a value. -/
def State.latch (s : State) (q : Requester) (r : Reg) (v : Word) : State :=
  { s with latches := s.latches.filter (fun x => !(x.who == q && x.reg == r)) ++ [⟨q, r, v⟩] }

/-- The function a requester's read counts as (R387; DEDUCED for a keeper, its Dome's, and for the HATCH, DOME_A's). -/
def reqFunc (q : Requester) : Func := match q with | .func f => f | .keeper k => domeOfKeeper k | .hatch => 0

/-- The RC fields of a register (R376). -/
def Reg.rcMask (r : Reg) : Word := (r.fields.filter (fun f => f.access == .rc)).foldl (fun m f => m ||| f.mask) 0
/-- The RC fields cleared to their reset values. -/
def State.clearRc (s : State) (r : Reg) : State := s.wr r ((s.rd r &&& ~~~r.rcMask) ||| (r.reset &&& r.rcMask))

/-- The gap of a stream counted up to now (R149). -/
def State.gapNow (s : State) (st : StreamId) : State :=
  let c := s.chanOf st
  if s.chans[c].st = .playing ∧ entryStream (s.entryOf c) = some st then s.streamSync st (s.playPos c) else s

/-- What is counted up to the moment of a read: the least lead, the saturated samples, a running gap, the granules held dark, the availability
conditions. -/
def State.upToNow (s : State) (r : Reg) : State :=
  match r with
  | .charLead c => s.noteLead c
  | .lantStatus c => s.pipeNow (s.walkerOf c)
  | .lantSat c => s.pipeNow (s.walkerOf c)
  | .tndGapLast st => s.gapNow st
  | .tndGapTotal st => s.gapNow st
  | .outDarknGran c => s.darkCount (lampOf c)
  | .ext .availCond => s.noteAvail
  | .ext .availLapses => s.noteAvail
  | _ => s

/-- A read by a requester: the value, and the state with RC fields cleared and HI registers latched (R376 to R380). -/
def State.readReg (s : State) (q : Requester) (r : Reg) : Word × State :=
  let s := (s.upToNow r).checkReg r
  let v := (s.latched q r).getD (s.live (reqFunc q) r)
  let s := r.latches.foldl (fun s h => s.latch q h (s.live (reqFunc q) h)) s
  (v, if r.rcMask = 0 then s else s.clearRc r)

/-! ### BAR0 (R336, R369, R370, R381, R385, R398) -/

/-- A register marked reserved in a register table: it reads 0 and ignores writes (R369). -/
def reservedAddr (x : Nat) : Bool :=
  (decide (0x400000 ≤ x ∧ x < 0x800000) && (let y := x % 0x100000; decide (0x20000 ≤ y ∧ y < 0x24000) && (let z := y % 0x1000; decide (0x90C ≤ z ∧ z < 0xB00) && z % 16 == 12)))
  || (decide (0x80200C ≤ x ∧ x < 0x802040) && x % 16 == 12)

/-- The register whose snapshot the holding window shows at an offset (R385). -/
def holdingReg (x : Nat) : Option Reg :=
  if 0xA00000 ≤ x ∧ x < 0xA20000 then Reg.ofAddr? (x - 0xA00000 + 0x100000)
  else if 0xA20000 ≤ x ∧ x < 0xA40000 then Reg.ofAddr? (x - 0xA20000 + 0x180000)
  else if 0xA40000 ≤ x ∧ x < 0xA50000 then Reg.ofAddr? (x - 0xA40000 + 0x800000)
  else if 0xB00000 ≤ x ∧ x < 0xD00000 then Reg.ofAddr? (x - 0xB00000 + 0x200000)
  else if 0xD00000 ≤ x ∧ x < 0xF00000 then Reg.ofAddr? (0x400000 + (x - 0xD00000) / 0x80000 * 0x100000 + (x - 0xD00000) % 0x80000)
  else none

/-- What an offset of BAR0 names. -/
inductive Bar0 where
  | reg (r : Reg) | reserved | holding (r : Reg) | aliasLo (r : Reg) | aliasHi (r : Reg) | aliasReserved | deadAlias | outside
deriving DecidableEq, Repr

/-- The decoding of a BAR0 offset (R368 to R370, R382, R385). -/
def bar0Of (x : Nat) : Bar0 :=
  if x % 4 ≠ 0 ∨ 0x2000000 ≤ x then .outside
  else if 0x1000000 ≤ x then
    let y := x % 0x800000
    match Reg.ofAddr? y with
    | some r => if x < 0x1800000 then .aliasLo r else .aliasHi r
    | none => if reservedAddr y then .aliasReserved else .deadAlias
  else match Reg.ofAddr? x with
    | some r => .reg r
    | none => if reservedAddr x then .reserved else match holdingReg x with | some r => .holding r | none => .outside

/-- The die whose window an offset lies in: GLOBAL and the beacon block belong to the part (R368, R387). -/
def windowDie (x : Nat) : Option Die :=
  if 0x100000 ≤ x ∧ x < 0x180000 then some Die.meridA
  else if 0x180000 ≤ x ∧ x < 0x200000 then some Die.meridB
  else if 0x200000 ≤ x ∧ x < 0x300000 then some Die.domeA
  else if 0x300000 ≤ x ∧ x < 0x400000 then some Die.domeB
  else if 0x400000 ≤ x ∧ x < 0x800000 then some ⟨4 + (x - 0x400000) / 0x100000 % 4, by omega⟩
  else none

/-- The die of an offset's window answers. -/
def State.windowUp (s : State) (x : Nat) : Bool := match windowDie x with | some d => s.dieUp d | none => true
/-- A halted part serves GLOBAL and the MERID windows only (R398). -/
def haltedServes (x : Nat) : Bool := decide (x < 0x200000)
/-- The registers that MERID_B's window shows but does not write while MERID_A leads (R200, R237, R413): the always-on block and the mirrored Transit fields. -/
def State.mirrorOnly (s : State) (x : Nat) (r : Reg) : Bool :=
  decide (0x180000 ≤ x ∧ x < 0x200000) && s.leader == 0
  && (match r with
    | .ext _ => true | .trnCtrl => true | .trnLogCtrl => true | .trnLogWr => true | .trnLogRd => true | .trnLogDrop => true | .trnPort _ => true | .trnInCtrl _ => true
    | .trnInStuck _ => true | .trnTiLevel _ => true | _ => false)

/-- A write to the register that offset `x` of a window names. -/
def State.windowWrite (s : State) (w : Writer) (x : Nat) (r : Reg) (mask v : Word) : State :=
  if (s.halted && !haltedServes x) || !s.windowUp x || s.mirrorOnly x r then s else s.writeReg w r mask v

/-- A function serves BAR0: configuration has completed (R336), the link is up and not in D3hot (R335). -/
def State.bar0Up (s : State) (f : Func) : Bool := s.linkUp f && decide (13 ≤ s.fld (.glob .gStart) START.STEP || s.halted)

/-- A single-DW write through a function (R370, R381): a partial one is discarded, and BAD_ACCESS set. -/
def State.bar0Write (s : State) (f : Func) (off : Nat) (v : Word) (be : BitVec 4) : State :=
  if ¬ s.bar0Up f then { s with resp := .none }
  else match bar0Of off with
    | .outside => { s with resp := .unsupported }
    | .deadAlias => { s with resp := .unsupported }
    | b =>
      let s := { s with resp := .none }
      if be ≠ 15 then s.raise (.glob .regStatus) REG_STATUS.BAD_ACCESS
      else match b with
        | .reg r => s.windowWrite (.func f) off r 0xFFFFFFFF v
        | .aliasLo r => s.windowWrite (.func f) (off % 0x800000) r (halfMask false v) (halfValue false v)
        | .aliasHi r => s.windowWrite (.func f) (off % 0x800000) r (halfMask true v) (halfValue true v)
        | _ => s

/-- The holding window reads 0 for a register that a snapshot does not include (R385). -/
def State.heldValue (s : State) (r : Reg) : Word := if r.inSnapshot then (match s.snap.window.lookup r with | some w => w | none => 0) else 0

/-- The value at an offset for a requester: of a die that is lost or OFF, a free value. -/
def State.mapRead (s : State) (q : Requester) (off : Nat) : Option Word × State :=
  match bar0Of off with
  | .outside => (none, s)
  | .reg r =>
    if s.halted ∧ ¬ haltedServes off then (some 0, s)
    else if ¬ s.windowUp off then let (v, s) := s.fresh; (some (v.setWidth 32), s)
    else let (v, s) := s.readReg q r; (some v, s)
  | .holding r => (some (if s.halted then 0 else s.heldValue r), s)
  | _ => (some 0, s)

/-- A requester can read the map: a function over its link, a keeper of a Dome in service, the HATCH while it is open. -/
def State.canRead (s : State) (q : Requester) : Bool :=
  match q with
  | .func f => s.bar0Up f
  | .keeper k => !s.dieLost[Die.ofDome (domeOfKeeper k)] && s.domainOn (domDctl (domeOfKeeper k))
  | .hatch => s.isSet (.ext .secStatus) SEC_STATUS.HATCH_OPEN

/-- A read of the map by a requester, and its answer. -/
def State.bar0Read (s : State) (q : Requester) (off : Nat) : State :=
  if s.canRead q then
    match s.mapRead q off with
    | (some v, s) => { s with resp := .data v }
    | (none, s) => { s with resp := .unsupported }
  else { s with resp := .none }

end Sys2Proof.Machine
end

