-- ==== Sys2Proof/Machine/Commit.lean ====
section
/-! DEFINITION. The checks of COMMIT: items and states, tables, streams, features, bandwidth and the event graph (spec 13_host_rings.md R357, R460; 02 R47, R49; 03 R101; 04 R129; 05 R156;
01 R30; 11 R315; 09 R251). -/
namespace Sys2Proof.Machine
open Sys2Proof

/-- What a check answers: nothing wrong, or a reason with its DETAIL, and for EVENT_LOOP the channel on the cycle. -/
structure Refused where
  reason : Nat
  detail : Nat
  loop   : Option Nat
deriving DecidableEq, Repr

/-- The DETAIL of a failed commit (R349): entry, channel, stream; none of a kind reads all ones. -/
def detailOf (entry : Option Nat) (c : Option ChanId) (st : Option StreamId) : Nat :=
  entry.getD 0xFFFF + (match c with | some c => c.val | none => 0xFF) * 2 ^ 16 + (match st with | some st => st.val | none => 0xFF) * 2 ^ 24

/-! ### The configuration as it would stand after the transaction (R357) -/

/-- A SET item in the configuration: the fields that take a write, save those with a way of their own; ATTACH attaches or detaches the stream. Nothing else follows from it. -/
def State.cfgSet (s : State) (i : SetItem) : State :=
  match setItemReg i with
  | none => s
  | some r =>
    let mask := setItemMask i
    let new := (s.rd r &&& ~~~mask) ||| (setItemVal i &&& mask)
    let store := (r.fields.filter (fun f => f.named mask && (f.access == .rw || f.access == .lk || f.access == .rsv) && !s.ownWay r f new)).foldl (fun m f => m ||| f.mask) 0
    let s := s.wr r ((s.rd r &&& ~~~store) ||| (new &&& store))
    match r with
    | .tndCtrl st =>
      if ¬ TND_CTRL.ATTACH.named mask then s
      else if TND_CTRL.ATTACH.get new = 1 then (if s.attached st then s else s.attachStream st 0)
      else if s.detachRefused st then s
      else s.updStream st (fun _ => Stream.reset)
    | _ => s

/-- The channels of the STOP items, stopped. -/
def State.cfgStops (s : State) (x : Txn) : State := x.stops.foldl (fun s c => s.updChan c (fun y => { y with st := .idle, swap := none })) s
/-- The configuration after the transaction's STOP and SET items. -/
def State.configured (s : State) (x : Txn) : State := x.sets.foldl State.cfgSet (s.cfgStops x)

/-! ### Check 1: SET items, and the states of the channels (R357, R360, R398, R38) -/

/-- A SET item would change a locked field, or a feature word that is fixed (R357, R374): `s` is the configuration after the items before it. -/
def State.setLocked (s : State) (i : SetItem) (r : Reg) : Bool :=
  let mask := setItemMask i
  let new := (s.rd r &&& ~~~mask) ||| (setItemVal i &&& mask)
  r.fields.any (fun f => f.named mask && s.fieldLocked r f && f.get new != s.fld r f)
  || (match r with
    | .glob (.featAccept k) => s.power.negotiated && (new &&& BitVec.ofNat 32 (s.offer k)) != s.rd r
    | _ => false)

/-- The reason the first failing SET item gives: REG_ADDRESS where its offset names no register of a decoded block, then REG_LOCKED. -/
def State.setsFail (s : State) : List SetItem → Option Nat
  | [] => none
  | i :: rest => match setItemReg i with
    | none => if reservedAddr i.offset.toNat ∧ ¬ i.masked then s.setsFail rest else some Reason.regAddress
    | some r => if s.setLocked i r then some Reason.regLocked else (s.cfgSet i).setsFail rest

/-- START and SWAP items in ascending channel number: CHANNEL_STATE, and TABLE_BUSY for a channel whose tables move (R38). -/
def State.itemsFail (s : State) (x : Txn) : Option (Nat × ChanId) :=
  (List.finRange 16).findSome? (fun c =>
    let st := s.chans[c].st
    if c ∈ x.startChans then
      if s.halted ∨ (st ≠ .idle ∧ st ≠ .ended) then some (Reason.channelState, c)
      else if s.chans[c].move.isSome then some (Reason.tableBusy, c)
      else none
    else if c ∈ x.swaps.map (·.1) then (if st = .priming ∨ st = .playing then none else some (Reason.channelState, c))
    else none)

/-! ### Check 2: the tables (R47, R101, R129, R460) -/

/-- A table that a transaction makes active or swaps in: its channel, the entry it is entered at, and whether it is swapped. -/
structure Entering where
  c     : ChanId
  table : Table
  entry : Nat
  swap  : Bool
deriving DecidableEq, Repr

/-- The tables the transaction enters, in ascending channel number. -/
def State.entering (s : State) (x : Txn) : List Entering :=
  (List.finRange 16).filterMap (fun c =>
    match (x.starts.flatMap (·.entries)).lookup c with
    | some i => some ⟨c, if (s.staged c).len = 0 then s.table c else s.staged c, i, false⟩
    | none => (x.swaps.lookup c).map (fun i => ⟨c, s.staged c, i, true⟩))

/-- The beacon channels on which an enabled port, its source enabled, publishes the stamps of an enabled input (R101, R230, R240). -/
def State.timedChannels (s : State) : List BeaconCh :=
  (List.finRange 16).filterMap (fun p =>
    if s.isSet (.trnPort p) TRN_PORTp.EN ∧ s.isSet (Source.port s.leader p).reg' BCN_SRCs.EN ∧ (List.finRange 60).any (fun (i : Fin 60) =>
        let r := Reg.trnInCtrl ⟨i.val, by omega⟩
        s.isSet r TRN_INk_CTRL.EN && s.isSet r TRN_INk_CTRL.PUB && s.fld r TRN_INk_CTRL.PORT == p.val)
    then some (Fin.ofNat 256 (s.fld (.trnPort p) TRN_PORTp.CH)) else none)

/-- The TIMED slots of an entry that are enabled. -/
def EntryWords.timedSlots (e : EntryWords) : List Nat := ((List.finRange 4).map e.slot).filter (fun w => slotEnable w && slotMode w == 2)
/-- A window that a TIMED slot may not name (R101). -/
def State.windowBad (s : State) (c : ChanId) (k : Fin 32) : Bool :=
  let close := (s.rd (.winClose c k)).toNat
  (close != 0 && decide (close ≤ (s.rd (.winOpen c k)).toNat)) || decide ((s.rd (.winDelay c k)).toNat < 2048)

/-- MAX_INTERP of a channel: that of CH(2k) in pair mode. -/
def State.maxInterp (s : State) (c : ChanId) : Nat := s.fld (.lantCtrl (if s.paired c then evenOf c else c)) LANT_CTRL.MAX_INTERP
/-- The members of a channel's coherence group (R97). -/
def State.members (s : State) (c : ChanId) : List ChanId :=
  match s.groupOf c with
  | none => []
  | some g => (List.finRange 16).filter (fun d => s.groupOf d == some g)
/-- The members of a channel's group do not agree on `p`: the lowest-numbered of them. -/
def State.groupFails (s : State) (c : ChanId) (p : ChanId → Nat) : Option (Option Nat × ChanId) :=
  match s.members c with
  | [] => none
  | d :: ds => if ds.any (fun e => p e != p d) then some (none, d) else none

/-- A row about entries: the first entry of the table that fails it. -/
def Entering.row (t : Entering) (ok : EntryWords → Bool) : Option (Option Nat × ChanId) := (t.table.firstBad ok).map (fun i => (some i, t.c))

/-- The rows of R47, R101 and R129 in their order: each answers the failing entry and channel of one table. -/
def State.tableRows (s : State) : List (Nat × (Entering → Option (Option Nat × ChanId))) :=
  [(Reason.charField, fun t => t.row EntryWords.fieldsOk),
   (Reason.charIndex, fun t => t.row (EntryWords.indexOk t.table.len)),
   (Reason.charIndex, fun t => if t.entry < t.table.len then none else some (some t.entry, t.c)),
   (Reason.charSegment, fun t => t.row s.segmentOk),
   (Reason.markerRange, fun t => t.row EntryWords.markerOk),
   (Reason.frameDepth, fun t => (depthFail t.table t.entry).map (fun i => (some i, t.c))),
   (Reason.readyFull, fun t => t.table.readyEntries[8]?.map (fun i => (some i, t.c))),
   (Reason.readyStream, fun t => t.row (fun e => !(e.home == 3 && e.readyHint))),
   (Reason.jumpChannels, fun t => t.table.channelsFail.map (fun i => (some i, t.c))),
   (Reason.timedSource, fun t => t.row (fun e => e.timedSlots.all (fun w => slotChannel w == 0 || s.timedChannels.contains (slotChannel w)))),
   (Reason.jumpWindow, fun t => t.row (fun e => e.timedSlots.all (fun w => !s.windowBad t.c (slotWindow w)))),
   (Reason.groupClock, fun t => s.groupFails t.c (fun d => s.nsOf (lampOf d))),
   (Reason.lantInterp, fun t => t.row (fun e => decide (e.interp ≤ s.maxInterp t.c))),
   (Reason.groupLatency, fun t => s.groupFails t.c s.maxInterp),
   (Reason.pairSlave, fun t => if ¬ t.swap ∧ s.pairSlave t.c then some (none, evenOf t.c) else none)]

/-- The first row that fails for any table, with the lowest-numbered channel for which it fails (R460). -/
def rowsFail (rows : List (Nat × (Entering → Option (Option Nat × ChanId)))) (ts : List Entering) : Option Refused :=
  rows.findSome? (fun r =>
    (ts.filterMap r.2).foldl (fun (best : Option Refused × ChanId) p =>
      if best.1.isNone ∨ p.2 < best.2 then (some ⟨r.1, detailOf p.1 (some p.2) none, none⟩, p.2) else best) (none, 0) |>.1)

/-! ### Check 3: streams and fallbacks (R156) -/

/-- The streams bound to a channel that are attached. -/
def State.boundStreams (s : State) (c : ChanId) : List StreamId := (List.finRange 16).filter (fun st => s.attached st && s.chanOf st == c)

/-- A fallback entry is sound (R147, R156): a source without samples, or a ready entry of a memory format that is no stream, with an INTERP within MAX_INTERP. -/
def State.fallbackOk (s : State) (c : ChanId) (t : Table) (i : Nat) : Bool :=
  let e := t.entry i
  decide (i < t.len) && (e.format == 0x20 || e.format == 0x3F || (memFormat e.format && e.readyHint && e.home != 3)) && decide (e.interp ≤ s.maxInterp c)

/-- The rows of R156 about entries; a fallback is used under FILL_MODE FALLBACK. -/
def State.streamRows (s : State) : List (Nat × (Entering → Option (Option Nat × ChanId))) :=
  [(Reason.streamInterp, fun t => t.row (fun e => match entryStream e with | some st => e.interp == s.fld (.tndCtrl st) TND_CTRL.INTERP | none => true)),
   (Reason.streamBound, fun t => t.row (fun e => match entryStream e with | some st => s.chanOf st == t.c | none => true)),
   (Reason.tenderFallback, fun t => ((s.boundStreams t.c).find? (fun st => s.fld (.tndCtrl st) TND_CTRL.FILL_MODE == 0 && !s.fallbackOk t.c t.table (s.fld (.tndFallback st) TND_FALLBACK.ENTRY))).map
      (fun st => (some (s.fld (.tndFallback st) TND_FALLBACK.ENTRY), t.c)))]

/-- What a stream draws at its stored sample rate on its channel's Lamp, in the unit of `State.drawOf`. -/
def State.streamDraw (s : State) (st : StreamId) : Nat :=
  32 / 2 ^ (s.fld (.tndCtrl st) TND_CTRL.INTERP) * storedBits (s.fld (.tndCtrl st) TND_CTRL.FORMAT) * 4 * 6144 * s.gcDen * (s.gcProduct / max 1 (s.gcNum (lampOf (s.chanOf st))))
/-- `n` Gbit/s in that unit. -/
def State.gbits (s : State) (n : Nat) : Nat := 4 * n * s.gcProduct
/-- The streams attached on a Dome, and their data rate. -/
def State.streamsOn (s : State) (d : DomeId) : List StreamId := (List.finRange 16).filter (fun st => s.attached st && domeOfStream st == d)
def State.streamRate (s : State) (d : DomeId) : Nat := ((s.streamsOn d).map s.streamDraw).sum

/-- The rows of R156 about streams. TENDER_RATE names the stream that takes the sum over its limit. -/
def State.streamsFail (s : State) (x : Txn) : Option Refused :=
  let all := (List.finRange 16).filter s.attached
  let region := all.find? (fun st => !s.regionOk st (s.rd (.tndRegion st)).toNat)
  let beyond := (List.finRange 16).find? (fun st =>
    let d := domeOfStream st
    s.attached st && decide (s.gbits (if s.half d then 100 else 950) < (((s.streamsOn d).filter (fun o => o.val ≤ st.val)).map s.streamDraw).sum))
  let keeps := (List.finRange 16).findSome? (fun c => if (s.groupOf c).isSome then ((s.boundStreams c).find? s.keepsPosition).map (fun st => (c, st)) else none)
  let unfilled := all.find? (fun st => s.streams[st].st == .filling && x.startChans.contains (s.chanOf st))
  match region with
  | some st => some ⟨Reason.tenderRegion, detailOf none none (some st), none⟩
  | none => match beyond with
    | some st => some ⟨Reason.tenderRate, detailOf none none (some st), none⟩
    | none => match keeps with
      | some (c, st) => some ⟨Reason.tenderGroup, detailOf none (some c) (some st), none⟩
      | none => unfilled.map (fun st => ⟨Reason.tenderUnfilled, detailOf none (some (s.chanOf st)) (some st), none⟩)

/-! ### Check 4: feature gates (R340) -/

/-- A binding that a SET item writes names a routine of the owner area. -/
def State.bindsOwner (s : State) (x : Txn) : Bool :=
  x.sets.any (fun i => match setItemReg i with
    | some (.kprBind k j) => s.isSet (.kprBind k j) KPR_BINDi.EN && decide (192 ≤ s.fld (.kprBind k j) KPR_BINDi.ROUTINE)
    | _ => false)

/-- A SET item makes a Meridian MASTER or SLAVE. -/
def State.setsRole (s : State) (x : Txn) : Bool :=
  x.sets.any (fun i => match setItemReg i with
    | some (.merSyncCtrl m) => MER_SYNC_CTRL.ROLE.named (setItemMask i) && (s.fld (.merSyncCtrl m) MER_SYNC_CTRL.ROLE == 1 || s.fld (.merSyncCtrl m) MER_SYNC_CTRL.ROLE == 2)
    | _ => false)

/-- The gates of SET items: MULTI_UNIT and OWNER_EXT. -/
def State.rolesFail (s : State) (x : Txn) : Option Refused :=
  if (s.setsRole x ∧ ¬ s.feature 4) ∨ (s.bindsOwner x ∧ ¬ s.feature 5) then some ⟨Reason.noFeatures, noDetail, none⟩ else none

/-- A feature that the configuration needs and the driver has not accepted. -/
def State.featuresFail (s : State) (x : Txn) (ts : List Entering) : Option Refused :=
  let entries := rowsFail [(Reason.noFeatures, fun t => t.row (fun e => (e.home != 3 || s.feature 1) && (e.timedSlots.isEmpty || s.feature 2)))] ts
  match entries with
  | some r => some r
  | none =>
    match (List.finRange 16).find? (fun c => s.isSet (.jmpGroup c) JMP_GROUP.GROUP_EN) with
    | some c => if s.feature 3 then s.rolesFail x else some ⟨Reason.noFeatures, detailOf none (some c) none, none⟩
    | none => s.rolesFail x
/-! ### Check 5: bandwidth (R30, R49, R315) -/

/-- The largest rate a table's reached entries draw on a Dome (R49), in the unit of `State.drawOf`. -/
def State.tableDraw (s : State) (c : ChanId) (t : Table) (entry : Nat) (d : DomeId) : Nat :=
  ((depthsFrom t entry).map (fun p =>
    let e := t.entry p.1
    if s.readDome c e = d then s.drawOf c e else 0)).foldl max 0

/-- The demand of each channel on a Dome: of the table the transaction enters, else of the one the channel plays, or is to play after a committed swap. CH(2k+1) of a pair has none. -/
def State.demand (s : State) (ts : List Entering) (d : DomeId) (c : ChanId) : Nat :=
  if s.pairSlave c then 0
  else match ts.find? (fun t => t.c == c) with
    | some t => s.tableDraw c t.table t.entry d
    | none =>
      if ¬ s.chans[c].st.busy then 0
      else match s.chans[c].swap with
        | some w => s.tableDraw c (s.staged c) w.entry d
        | none => s.tableDraw c (s.table c) s.chans[c].startEntry d

/-- R30 on a Dome in HALF: its demand is above 0.75 Tbit/s. -/
def State.halfOver (s : State) (ts : List Entering) (d : DomeId) : Bool := s.half d && decide (s.gbits 750 < ((List.finRange 16).map (s.demand ts d)).sum)
/-- R49 on a link: what the transaction enters does not fit beside what plays; a channel admitted before is no cause. -/
def State.linkOver (s : State) (ts : List Entering) (n : LampId) (d : DomeId) : Bool :=
  let cs := chansOfLamp n
  let new := ((cs.filter (fun c => ts.any (fun t => t.c == c))).map (s.demand ts d)).sum
  decide (0 < new) && decide (9 * s.payload (linkOf n d) < 10 * (cs.map (s.demand ts d)).sum)
/-- R315 on a Dome: the demand on its ports, in thirds of a percent of a Gbit/s and of the divider. -/
def State.memOver (s : State) (ts : List Entering) (d : DomeId) : Bool :=
  let div := max 1 (s.fld (.moorCfg d) MOOR_CFG.DIV)
  let data := ((List.finRange 16).map (s.demand ts d)).sum + s.streamRate d
  let migrate := 3 * s.fld (.moorMig d) MOOR_MIG.SHARE * s.gbits 4608
  if s.half d then decide (255 * s.gbits 4608 < 300 * div * data + migrate) else decide (1020 * s.gbits 4608 < 400 * div * data + migrate)

/-- The lowest-numbered channel with a demand on a Dome, of those given. -/
def State.lowestOn (s : State) (ts : List Entering) (d : DomeId) (cs : List ChanId) : Option ChanId := cs.find? (fun c => decide (0 < s.demand ts d c))
/-- The lowest-numbered of some channels. -/
def lowestChan (cs : List ChanId) : Option ChanId := (List.finRange 16).find? (fun c => cs.contains c)

/-- Check 5 in its order. -/
def State.bandwidthFails (s : State) (ts : List Entering) : Option Refused :=
  let domes : List DomeId := List.finRange 2
  let half := domes.filter (s.halfOver ts)
  let links := (List.finRange 4).flatMap (fun n => (domes.filter (s.linkOver ts n)).map (fun d => (n, d)))
  let mem := domes.filter (s.memOver ts)
  if half ≠ [] then some ⟨Reason.bandwidth, detailOf none (lowestChan (half.filterMap (fun d => s.lowestOn ts d (List.finRange 16)))) none, none⟩
  else if links ≠ [] then some ⟨Reason.bandwidth, detailOf none (lowestChan (links.filterMap (fun p => s.lowestOn ts p.2 (chansOfLamp p.1)))) none, none⟩
  else if mem ≠ [] then some ⟨Reason.memRate, detailOf none (lowestChan (mem.filterMap (fun d => s.lowestOn ts d (List.finRange 16)))) none, none⟩
  else none

/-! ### Check 6: the event graph (R251) -/

/-- The enable that the block of a source gives it, where it has one (R103, R127, R144, R228, R232, R236, R254). -/
def State.blockEnables (s : State) : Source → Bool
  | .chan c .primeGap => s.isSet (.charCtrl c) CHAR_CTRL.PRIME_GAP_EV
  | .chan c .jmpTaken => s.isSet (.jmpCtrl c) JMP_CTRL.TAKEN_EV
  | .chan c .jmpLate => s.isSet (.jmpCtrl c) JMP_CTRL.LATE_EV
  | .chan c .jmpDegraded => s.isSet (.jmpCtrl c) JMP_CTRL.DEGRADE_EV
  | .chan c .jmpDropped => s.isSet (.jmpCtrl c) JMP_CTRL.DROP_EV
  | .chan c .lantSat => s.isSet (.lantCtrl c) LANT_CTRL.SAT_EV
  | .biasLine b => s.isSet (.biasCtrl b) BIAS_CTRL.EV_EN
  | .stream st .block => s.isSet (.tndCtrl st) TND_CTRL.BLOCK_EV
  | .stuck _ => s.isSet .trnCtrl TRN_CTRL.STUCK_EV
  | .log _ => s.isSet .trnCtrl TRN_CTRL.LOG_EV
  | .done m e => s.isSet (.eng m e .ctrl) ENG_CTRL.DONE_EV
  | _ => true

/-- The channels that sources can publish on: enabled, in the fabric and in their block, and not channel 0. -/
def State.canPublish (s : State) (l : List Source) : List Nat := ((l.filter (fun x => s.isSet x.reg' BCN_SRCs.EN && s.blockEnables x)).map (fun x => (x.channel s).val)).filter (· != 0)
/-- The port channels of Transit inputs. -/
def State.portChannels (s : State) (l : List TrnIn) : List Nat :=
  (l.filter (fun i => s.isSet (.trnInCtrl i) TRN_INk_CTRL.EN && s.isSet (.trnInCtrl i) TRN_INk_CTRL.PUB)).flatMap (fun i =>
    let p : Fin 16 := Fin.ofNat 16 (s.fld (.trnInCtrl i) TRN_INk_CTRL.PORT)
    if s.isSet (.trnPort p) TRN_PORTp.EN then s.canPublish [.port s.leader p] else [])

/-- The Transit taps of a channel's markers (R224). -/
def markerTaps (c : ChanId) : List TrnIn := [markerTap c 0, markerTap c 1]

/-- The sources of the characteristic, jump, Lantern, output and lookout blocks of a channel. -/
def charSources (c : ChanId) : List Source := [.chan c .chanEnd, .chan c .primeGap, .chan c .walkFault, .chan c .swapDone, .chan c .segLost, .chan c .relayShort]
def jumpSources (c : ChanId) : List Source := [.chan c .jmpTaken, .chan c .jmpLate, .chan c .jmpDegraded, .chan c .jmpDropped, .chan c .group]
def lookSources (c : ChanId) : List Source := [.chan c .lookFail, .chan c .cellSwap, .chan c .cellSwapDue, .chan c .cellExhausted]

/-- The sources of a Meridian's clock block. -/
def merSources (m : MerId) : List Source := [.lockLost, .refLost, .phaseBeyond, .stepped, .syncDone, .syncRefused, .failover, .twinRange, .spareIn].map (.mer m)

/-- The PUB_CH of every entry of a table. -/
def State.pubChannels (s : State) (c : ChanId) (t : Table) : List Nat :=
  if s.isSet (Source.chan c .visitPub).reg' BCN_SRCs.EN then ((List.range t.len).map (fun i => (t.entry i).pubCh.val)).filter (· != 0) else []

/-- The tables a channel plays or is to play: its own, one committed to be swapped in, and one the transaction enters. -/
def State.graphTables (s : State) (ts : List Entering) (c : ChanId) : List Table :=
  (if s.chans[c].st.busy then [s.table c] else []) ++ (if s.chans[c].swap.isSome then [s.staged c] else []) ++ (ts.filter (fun t => t.c == c)).map (·.table)

/-- The channels on which the Lamp sources of a channel, and its taps, can publish. -/
def State.lampOuts (s : State) (ts : List Entering) (c : ChanId) : List Nat :=
  s.canPublish (charSources c ++ jumpSources c ++ [.chan c .lantSat, .chan c .rangeDone] ++ lookSources c)
  ++ (s.graphTables ts c).flatMap (s.pubChannels c)
  ++ s.portChannels (strobeTap c :: markerTaps c)

/-- The publish list of a routine on a keeper (R265). -/
def State.publishList (s : State) (k : KeeperId) (n : Nat) : List Nat :=
  let src := Source.keep k
  if s.isSet src.reg' BCN_SRCs.EN then
    (((List.finRange 16).filter (fun p => bitOf (s.routineOf k n).mask p.val)).map (fun p => s.fld (.kprPub k p) KPR_PUBp.CH)).filter (· != 0)
  else []

/-- The channels on which the block of a register can publish (R251). -/
def State.blockOuts (s : State) (ts : List Entering) (r : Reg) : List Nat :=
  let off := r.addr % 0x100000
  if h : 4 ≤ r.die.val ∧ r.addr < 0x800000 then
    let n : LampId := ⟨r.die.val - 4, by have := r.die.isLt; omega⟩
    let c := chanOfLamp n (Fin.ofNat 4 (off % 0x10000 / 0x1000))
    match off / 0x10000 with
    | 2 =>
      if off % 0x1000 < 0x800 then s.canPublish (charSources c) ++ (s.graphTables ts c).flatMap (s.pubChannels c) ++ s.portChannels [strobeTap c]
      else s.canPublish (jumpSources c)
    | 3 => s.canPublish [.chan c .lantSat]
    | 4 => s.canPublish [.chan c .rangeDone, .darkN n] ++ s.portChannels (markerTaps c)
    | 5 => s.canPublish ((linesOfLamp n).map .biasLine)
    | 6 => s.canPublish ([.biasDev n, .selfFail n] ++ (chansOfLamp n).flatMap lookSources)
    | _ => s.canPublish [.storeFault n]
  else if 0x200000 ≤ r.addr ∧ r.addr < 0x400000 then
    let d : DomeId := if r.addr < 0x300000 then 0 else 1
    if off < 0x70000 then
      let st := streamOfDome d (Fin.ofNat 8 (off % 0x10000 / 0x100))
      s.canPublish ([.filled, .low, .resumed, .high, .underrun, .drained, .lost, .block].map (.stream st))
    else if off < 0x80000 then
      let k := keeperOfDome d (Fin.ofNat 2 (off % 0x10000 / 0x1000))
      s.canPublish [.keep k, .shadow d] ++ (List.finRange 16).flatMap (fun i => s.publishList k (s.fld (.kprBind k i) KPR_BINDi.ROUTINE))
    else if off < 0x90000 then s.canPublish ((List.finRange 5).map (.memPort d))
    else if off < 0xA0000 then s.canPublish [.pbCollide d, .pbEcc d]
    else s.canPublish [.pcie d, .ring d]
  else match r with
    | .merCtrl m => s.canPublish (merSources m)
    | .merDpll m => s.canPublish (merSources m)
    | .merSlew m => s.canPublish (merSources m)
    | .merDpllCmd m => s.canPublish (merSources m)
    | .merSfreq m => s.canPublish (merSources m)
    | .merApply m => s.canPublish (merSources m)
    | .merOut m _ => s.canPublish (merSources m)
    | .merSyncCtrl m => s.canPublish (merSources m)
    | .merSyncLat m => s.canPublish (merSources m)
    | .merSyncComp m => s.canPublish (merSources m)
    | .merLight m => s.canPublish (merSources m)
    | .bcnTmrCtrl t => s.canPublish [.timer s.leader t]
    | .bcnTmrDelay t => s.canPublish [.timer s.leader t]
    | .bcnTmrMinp t => s.canPublish [.timer s.leader t]
    | .bcnInject => s.canPublish [.inject s.leader]
    | .ext .pwrCtrl => s.canPublish [.pwrState s.leader, .ledger s.leader, .epoch s.leader]
    | .ext .ledgCtrl => s.canPublish [.ledger s.leader]
    | r => if 0x110000 ≤ r.addr ∧ r.addr < 0x200000 then s.canPublish ([.stuck s.leader, .log s.leader] ++ (List.finRange 8).map (.done s.leader)) ++ s.portChannels (List.finRange 64) else []

/-- The channels on which what an armed transaction changes can publish. -/
def State.txnOuts (s : State) (ts : List Entering) (x : Txn) : List Nat :=
  (x.sets.filterMap setItemReg).flatMap (s.blockOuts ts) ++ x.chans.flatMap (s.lampOuts ts)

/-- The edges of the event graph: of the channel engines, the keeper inputs, the timers that give no loop credit, and the transaction slots. -/
def State.graphEdges (s : State) (ts : List Entering) (armed : List (Nat × Txn)) : List (Nat × Nat) :=
  let engines := (List.finRange 16).flatMap (fun c =>
    let outs := s.lampOuts ts c
    (s.graphTables ts c).flatMap (fun t => t.channels.flatMap (fun a => outs.map (fun b => (a.val, b)))))
  let keepers := (List.finRange 64).flatMap (fun (i : Fin 64) =>
    let k : KeeperId := ⟨i.val / 16, by omega⟩
    let j : Fin 16 := ⟨i.val % 16, by omega⟩
    match s.consChannel ⟨i.val, by omega⟩ with
    | some a => if s.isSet (.kprBind k j) KPR_BINDi.EN then (s.publishList k (s.fld (.kprBind k j) KPR_BINDi.ROUTINE)).map (fun b => (a.val, b)) else []
    | none => [])
  let timers := (List.finRange 4).flatMap (fun t =>
    match s.consChannel (consOfTimer t) with
    | some a => if 100 ≤ s.fld (.bcnTmrMinp t) BCN_TMRt_MINP.MINP then [] else (s.canPublish [.timer s.leader t]).map (fun b => (a.val, b))
    | none => [])
  let slots := armed.flatMap (fun p => if p.1 = 0 then [] else (s.txnOuts ts p.2).map (fun b => (p.1, b)))
  engines ++ keepers ++ timers ++ slots

/-- Channels reached from those of a list by the edges, after at most `n` rounds. -/
def reachedFrom (edges : List (Nat × Nat)) : Nat → List Nat → List Nat
  | 0, l => l
  | n + 1, l =>
    let new := ((edges.filter (fun e => l.contains e.1)).map (·.2)).eraseDups.filter (fun b => !l.contains b)
    if new = [] then l else reachedFrom edges n (l ++ new)

/-- A channel on a cycle: the lowest-numbered (DESIGN CHOICE, log entry 55). -/
def cycleOf (edges : List (Nat × Nat)) : Option Nat :=
  (List.range 256).find? (fun a => (reachedFrom edges 256 ((edges.filter (fun e => e.1 == a)).map (·.2)).eraseDups).contains a)

/-- The transactions armed, and the one that is to be. -/
def State.armedTxns (s : State) (x : Txn) (on : Option BeaconCh) : List (Nat × Txn) :=
  (s.host.txns.toList.filterMap (fun y => match y.phase with | .armed ch => some (ch.val, y) | _ => none)) ++ (match on with | some ch => [(ch.val, x)] | none => [])

/-! ### The whole (R357) -/

/-- Checks 1 to 6 of a COMMIT; `on` is the channel of ON_CHANNEL. -/
def State.checkTxn (s : State) (x : Txn) (on : Option BeaconCh) : Option Refused :=
  match (s.cfgStops x).setsFail x.sets with
  | some reason => some ⟨reason, noDetail, none⟩
  | none => match s.itemsFail x with
    | some (reason, c) => some ⟨reason, detailOf none (some c) none, none⟩
    | none =>
      let k := s.configured x
      let ts := k.entering x
      match rowsFail k.tableRows ts with
      | some r => some r
      | none => match rowsFail k.streamRows ts with
        | some r => some r
        | none => match k.streamsFail x with
          | some r => some r
          | none => match k.featuresFail x ts with
            | some r => some r
            | none => match k.bandwidthFails ts with
              | some r => some r
              | none => (cycleOf (k.graphEdges ts (k.armedTxns x on))).map (fun a => ⟨Reason.eventLoop, noDetail + a * 2 ^ 32, some a⟩)

end Sys2Proof.Machine
end

