-- ==== Sys2Proof/Machine/Txn.lean ====
section
/-! DEFINITION. Configuration transactions: items, COMMIT, the effect granule, roll-back (spec 13_host_rings.md R355 to R360). -/
namespace Sys2Proof.Machine
open Sys2Proof

/-! ### Items and claims (R355, R356) -/

/-- One item as it joins a transaction: SET items, or the channels of a START, STOP or SWAP. -/
inductive TxnItem where
  | sets (l : List SetItem) | start (entries : List (ChanId × Nat)) (delay : Nat) | stop (l : List ChanId) | swap (l : List (ChanId × Nat))
deriving DecidableEq, Repr

/-- The registers and channels an item claims. -/
def TxnItem.regs : TxnItem → List Reg
  | .sets l => l.filterMap setItemReg
  | _ => []
def TxnItem.chans : TxnItem → List ChanId
  | .sets _ => []
  | .start es _ => es.map (·.1)
  | .stop l => l
  | .swap es => es.map (·.1)

/-- A transaction with the item added. -/
def Txn.add (x : Txn) (i : TxnItem) : Txn :=
  match i with
  | .sets l => { x with sets := x.sets ++ l }
  | .start es delay => { x with starts := x.starts ++ [⟨es, delay⟩] }
  | .stop l => { x with stops := x.stops ++ l }
  | .swap es => { x with swaps := x.swaps ++ es }

/-- The item goes beyond 1,024 SET items, or beyond one START, STOP or SWAP item of a channel. -/
def Txn.full (x : Txn) (i : TxnItem) : Bool :=
  match i with
  | .sets l => decide (1024 < x.sets.length + l.length)
  | i => i.chans.any (fun c => x.chans.contains c)

/-- Another transaction has claimed a target of the item. -/
def conflicts (others : List Txn) (i : TxnItem) : Bool := others.any (fun y => i.regs.any y.claimsReg || i.chans.any (fun c => y.chans.contains c))

/-! ### The effect granule (R358) -/

/-- The checks end: within 20 µs of their beginning; when is a free value (R357). -/
def State.checksEnd (s : State) : State := let (v, s) := s.fresh; s.reachTime (s.clock.now + v.toNat % (20 * qUs + 1))

/-- WHEN of a COMMIT. -/
inductive When where
  | immediate | atUgc (ugc : Nat) | onChannel (ch : BeaconCh)
deriving DecidableEq, Repr
def When.channel : When → Option BeaconCh | .onChannel ch => some ch | _ => none

/-- BCN_LOOP and LOOP_REJECT show a rejected cycle (R251). -/
def State.showLoop (s : State) (r : Refused) : State :=
  match r.loop with
  | some a => ((s.setFld .bcnLoop BCN_LOOP.CH a).raise .bcnLoop BCN_LOOP.VALID).raise .bcnStatus BCN_STATUS.LOOP_REJECT
  | none => s

/-- A commit waits for its effect granule: its slot's task input is busy (R245, R358). -/
def State.commitWaits (s : State) (t : TxnId) (ref : DescRef) (g : Nat) (atUgc : Bool) : State :=
  (s.updTxn t (fun x => { x with phase := .due g, commit := some ref, atUgc := atUgc })).setFld (.bcnConsStat ⟨208 + t.val, by omega⟩) BCN_CONSi_STAT.BUSY 1

/-- A COMMIT of an open slot of its function: the checks, then the effect granule is set or the slot is armed; or the transaction rolls back (R357 to R359). -/
def State.commitSlot (s : State) (ref : DescRef) (w : When) : State :=
  let t := ref.hdr.txnId
  let x := s.host.txns[t]
  if x.phase ≠ .open_ ∨ x.func ≠ ref.func then s.complete ref Reason.txnState noDetail
  else match s.checkTxn x w.channel with
    | some r => ((s.showLoop r).updTxn t (fun _ => Txn.reset)).complete ref r.reason r.detail
    | none =>
      let s := s.checksEnd
      match w with
      | .immediate => s.commitWaits t ref (s.edgeAfter unitLamp (s.clock.now + 2 * qUs)) false
      | .atUgc u =>
        let g := s.clock.ugcBase[unitLamp] + u
        if s.edgeTime unitLamp g < s.clock.now + 2 * qUs then (s.updTxn t (fun _ => Txn.reset)).complete ref Reason.commitLate noDetail
        else s.commitWaits t ref g true
      | .onChannel ch =>
        let i : ConsId := ⟨208 + t.val, by omega⟩
        ((s.updTxn t (fun x => { x with phase := .armed ch, commit := some ref })).setFld (.bcnCons i) BCN_CONSi.CH ch.val).setFld (.bcnCons i) BCN_CONSi.EN 1

/-- An item descriptor: added to its open transaction, or a one-item transaction committed IMMEDIATE (R346, R355). -/
def State.itemDescriptor (s : State) (ref : DescRef) (i : TxnItem) : State :=
  if ref.hdr.txn then
    let t := ref.hdr.txnId
    let x := s.host.txns[t]
    let others := ((List.finRange 4).filter (fun o => o != t && s.host.txns[o].live)).map (fun o => s.host.txns[o]) ++ s.host.singles
    if x.phase ≠ .open_ ∨ x.func ≠ ref.func then s.complete ref Reason.txnState 0
    else if x.full i then s.complete ref Reason.txnFull 0
    else if conflicts others i then s.complete ref Reason.txnConflict 0
    else (s.updTxn t (fun x => { x.add i with refs := x.refs ++ [ref] })).complete ref Reason.ok 0
  else if conflicts s.liveTxns i then s.complete ref Reason.txnConflict noDetail
  else
    let x := { Txn.reset with func := ref.func, commit := some ref }.add i
    match s.checkTxn x none with
    | some r => (s.showLoop r).complete ref r.reason r.detail
    | none =>
      let s := s.checksEnd
      s.updHost (fun h => { h with singles := h.singles ++ [{ x with phase := .due (s.edgeAfter unitLamp (s.clock.now + 2 * qUs)) }] })

/-! ### At the effect granule (R40, R358, R360, R393) -/

/-- A SWAP item: SWAP_ENTRY is written, and the swap is pending under SWAP_MODE as it stands, from the granule of the walk at which its effect falls; a channel no longer PRIMING or PLAYING keeps its tables. -/
def State.applySwap (s : State) (f : Func) (c : ChanId) (entry : Nat) : State :=
  let s := s.writeReg (.txn f) (.charSwap c) CHAR_SWAP.SWAP_ENTRY.mask (BitVec.ofNat 32 entry)
  let x := s.chans[c]
  if x.st = .priming ∨ x.st = .playing then
    let u := if x.st = .playing then s.nextEdge c - x.startGran else x.stopPos / 32
    let t := s.staged c
    s.updChan c (fun x => { x with swap := some ⟨u, s.fld (.charCtrl c) CHAR_CTRL.SWAP_MODE == 1, entry⟩, readyNext := some (readyOf t) })
  else s.raise (.charStatus c) CHAR_STATUS.SWAP_CANCELLED

/-- A START item: each channel on a Lamp die in service goes to PRIMING at the granule edge of its Lamp; with DELAY 0 its channels start together. -/
def State.applyStart (s : State) (f : Func) (i : StartItem) : State :=
  let withs := if i.delay = 0 then i.entries.map (·.1) else []
  i.entries.foldl (fun s p =>
    let g := s.nextEdge p.1
    if s.dieUp (Die.ofLamp (lampOf p.1)) then s.beginPriming p.1 p.2 (if i.delay = 0 then none else some (g + i.delay)) withs f g else s) s

/-- A SET item takes effect. -/
def State.applySet (s : State) (f : Func) (i : SetItem) : State :=
  match setItemReg i with
  | some r => s.windowWrite (.txn f) i.offset.toNat r (setItemMask i) (setItemVal i)
  | none => s

/-- A transaction applies at granule edge `g` of the unit's count: the COMMIT is reported, then STOP, SET, SWAP and START items in that order; one with a START takes a LIT-ready part LIT (R393). -/
def State.applyTxn (s : State) (x : Txn) (g : Nat) : State :=
  let s := match x.commit with
    | some ref => s.complete ref Reason.ok (g - s.clock.ugcBase[unitLamp])
    | none => s
  let s := x.stops.foldl State.toIdle s
  let s := x.sets.foldl (fun s i => s.applySet x.func i) s
  if s.pwr < 2 then s
  else
    let s := if x.starts ≠ [] ∧ s.pwr = 2 ∧ s.litReady then s.toLit else s
    let s := x.swaps.foldl (fun s p => s.applySwap x.func p.1 p.2) s
    (x.starts.foldl (fun s i => s.applyStart x.func i) s).relayCheck

/-- The dies on which a transaction acts: that of its function, and those of its targets. -/
def Txn.dies (x : Txn) : List Die := Die.ofDome x.func :: (x.sets.filterMap setItemReg).map Reg.die ++ x.chans.map (fun c => Die.ofLamp (lampOf c))

/-- The transaction that the effect of slot `t` concerns: the slot's, where its effect granule is set; else the one-item transaction whose effect granule is set first. -/
def State.dueTxn (s : State) (t : TxnId) : Option (Txn × Nat) :=
  match s.host.txns[t].phase with
  | .due g => some (s.host.txns[t], g)
  | _ => match s.host.singles with
    | [] => none
    | x :: _ => match x.phase with | .due g => some (x, g) | _ => none

/-- That transaction takes effect, and closes. -/
def State.takeEffect (s : State) (t : TxnId) : State :=
  match s.dueTxn t with
  | none => s
  | some (x, g) =>
    if ¬ s.clock.runs[unitLamp] then s
    else
      let s := s.reachGran unitLamp g
      let s := match s.host.txns[t].phase with
        | .due _ => (s.updTxn t (fun _ => Txn.reset)).slotFreed t
        | _ => s.updHost (fun h => { h with singles := h.singles.drop 1 })
      s.applyTxn x g

/-- The activation of an armed slot's input at its channel (R358, R359): the effect is the first edge 1 µs or more after it. -/
def State.slotTriggered (s : State) (t : TxnId) : State := s.updTxn t (fun x => { x with phase := .due (s.edgeAfter unitLamp (s.clock.now + qUs)) })

/-! ### Roll-back (R355, R359, R361) -/

/-- One-item transactions that satisfy `p` roll back with a reason. -/
def State.rollSingles (s : State) (p : Txn → Bool) (reason : Nat) : State :=
  let gone := s.host.singles.filter p
  let s := s.updHost (fun h => { h with singles := h.singles.filter (fun x => !p x) })
  gone.foldl (fun s x => match x.commit with | some ref => s.complete ref reason noDetail | none => s) s

/-- Every transaction that satisfies `p` rolls back with a reason. -/
def State.rollAll (s : State) (p : Txn → Bool) (reason : Nat) : State :=
  ((List.finRange 4).foldl (fun s t => if s.host.txns[t].live && p s.host.txns[t] then s.rollBack t reason else s) s).rollSingles p reason

/-- ROLLBACK of an open or armed transaction of its function: reported on each item's report and on an armed COMMIT's (R359, R361). -/
def State.rollbackSlot (s : State) (ref : DescRef) : State :=
  let t := ref.hdr.txnId
  let x := s.host.txns[t]
  if x.phase = .closed ∨ x.func ≠ ref.func then s.complete ref Reason.txnState 0
  else
    let s := s.rollBack t Reason.rolledBack
    let s := x.refs.foldl (fun s (i : DescRef) =>
      s.queueReport (s.reportRingOf i.hdr) ⟨i.code, false, i.func, Reason.rolledBack, i.hdr.tag, i.hdr.ring, i.index, s.host.drings[i.hdr.ring].cons, 0, i.hdr.irq⟩) s
    s.complete ref Reason.ok 0

/-! ### The commands -/

/-- The channels of a mask, and their entries. -/
def maskChans (mask : BitVec 16) : List ChanId := (List.finRange 16).filter (fun c => mask.getLsbD c.val)
def maskEntries (mask : BitVec 16) (entries : Vector (BitVec 14) 16) : List (ChanId × Nat) := (maskChans mask).map (fun c => (c, entries[c].toNat))

def execStart (h : DescHdr) (mask : BitVec 16) (entries : Vector (BitVec 14) 16) (delay : Nat) (s : State) : Host.Outcome State Fault Refusal :=
  s.act [s.ringDie h] (·.descriptor h 0x07 false (fun ref s => s.itemDescriptor ref (.start (maskEntries mask entries) delay)))
def execStop (h : DescHdr) (mask : BitVec 16) (s : State) : Host.Outcome State Fault Refusal :=
  s.act [s.ringDie h] (·.descriptor h 0x08 false (fun ref s => s.itemDescriptor ref (.stop (maskChans mask))))
def execSwap (h : DescHdr) (mask : BitVec 16) (entries : Vector (BitVec 14) 16) (s : State) : Host.Outcome State Fault Refusal :=
  s.act [s.ringDie h] (·.descriptor h 0x09 false (fun ref s => s.itemDescriptor ref (.swap (maskEntries mask entries))))
def execBeginTxn (h : DescHdr) (s : State) : Host.Outcome State Fault Refusal :=
  s.act [s.ringDie h] (·.descriptor h 0x10 false (fun ref s =>
    if s.host.txns[h.txnId].phase = .closed then (s.updTxn h.txnId (fun _ => { Txn.reset with phase := .open_, func := ref.func })).complete ref Reason.ok 0
    else s.complete ref Reason.txnState 0))
/-- SET holds 1 to 6 items, each with a 4-aligned offset; otherwise it ends with BAD_FIELD (R347, R348). -/
def execSetItems (h : DescHdr) (items : List SetItem) (s : State) : Host.Outcome State Fault Refusal :=
  s.act [s.ringDie h] (·.descriptor h 0x11 false (fun ref s =>
    if 1 ≤ items.length ∧ items.length ≤ 6 ∧ items.all (fun i => i.offset.toNat % 4 == 0) then s.itemDescriptor ref (.sets items) else s.complete ref Reason.badField 0))
def execCommitImmediate (h : DescHdr) (s : State) : Host.Outcome State Fault Refusal :=
  s.act [s.ringDie h] (·.descriptor h 0x12 false (fun ref s => s.commitSlot ref .immediate))
def execCommitAtUgc (h : DescHdr) (ugc : Nat) (s : State) : Host.Outcome State Fault Refusal :=
  s.act [s.ringDie h] (·.descriptor h 0x12 false (fun ref s => s.commitSlot ref (.atUgc ugc)))
def execCommitOnChannel (h : DescHdr) (ch : BeaconCh) (s : State) : Host.Outcome State Fault Refusal :=
  s.act [s.ringDie h] (·.descriptor h 0x12 false (fun ref s => s.commitSlot ref (.onChannel ch)))
def execRollback (h : DescHdr) (s : State) : Host.Outcome State Fault Refusal :=
  s.act [s.ringDie h] (·.descriptor h 0x13 false (fun ref s => s.rollbackSlot ref))
def execTxnApply (t : TxnId) (s : State) : Host.Outcome State Fault Refusal :=
  s.act (match s.dueTxn t with | some p => p.1.dies | none => []) (·.takeEffect t)

end Sys2Proof.Machine
end

