-- ==== Sys2Proof/Machine/Snapshot.lean ====
section
/-! DEFINITION. Snapshots: the instant, the latching of the dies, the holding window and the host copy (spec 14_register_conventions.md R383 to R386; 13_host_rings.md R347). -/
namespace Sys2Proof.Machine
open Sys2Proof

/-- The bit of the die mask that takes a register into a snapshot (R383): the BEACON block goes with MERID_A. -/
def Reg.snapDie (r : Reg) : Option Die := if 0x800000 ≤ r.addr ∧ r.addr < 0xA00000 then some Die.meridA else windowDie r.addr

/-- The registers that snapshots of a die include. -/
def snapRegs (d : Die) : List Reg := Reg.all.filter (fun r => r.inSnapshot && r.snapDie == some d)

/-- The state with the snapshot part changed. -/
def State.updSnap (s : State) (f : Snap → Snap) : State := { s with snap := f s.snap }

/-- A coarse count, in q since the part came out of reset. -/
def State.coarseTime (s : State) (t : Nat) : Nat := s.clock.epochAt + t * 4096

/-- A snapshot begins (R384): T is W2, or the first count at least 2 µs from now where W2 asks for none or lies before that. -/
def State.snapBegin (s : State) (w : SnapWait) : State :=
  let soon := ceilDiv (s.sinceEpoch + 2 * qUs) 4096
  let late := w.at_ && decide (s.coarseTime w.t < s.clock.now + 2 * qUs)
  let t := if w.at_ && !late then w.t else soon
  let s := if late then s.raise .snapStatus SNAP_STATUS.LATE else s
  (s.raise .snapStatus SNAP_STATUS.BUSY).updSnap (fun x => { x with next := [], job := some ⟨t, w.dies, 0, w.addr, late, w.ref⟩ })

/-- The next snapshot that waits begins, where none is being taken. -/
def State.snapNext (s : State) : State :=
  match s.snap.job, s.snap.queue with
  | none, w :: rest => (s.updSnap (fun x => { x with queue := rest })).snapBegin w
  | _, _ => s

/-- A SNAPSHOT is taken at once, or after those being taken. -/
def State.snapAsked (s : State) (w : SnapWait) : State := (s.updSnap (fun x => { x with queue := x.queue ++ [w] })).snapNext

/-- A die in scope latches its included registers at T (R383, R384): from then on VALID is 0. -/
def State.snapLatch (s : State) (d : Die) : State :=
  match s.snap.job with
  | none => s
  | some j =>
    if ¬ bitOf j.scope.toNat d.val ∨ bitOf j.latched.toNat d.val ∨ ¬ s.dieUp d then s
    else
      let s := (s.reachTime (s.coarseTime j.t)).setFld .snapStatus SNAP_STATUS.VALID 0
      let values := (snapRegs d).map (fun r => (r, (s.upToNow r).live 0 r))
      s.updSnap (fun x => { x with next := x.next ++ values.filter (fun p => p.2 != 0), job := some { j with latched := j.latched ||| BitVec.ofNat 8 (2 ^ d.val) } })

/-- Records in ascending BAR0 offset. -/
def insertRecord (p : Nat × Word) : List (Nat × Word) → List (Nat × Word)
  | [] => [p]
  | q :: rest => if p.1 < q.1 then p :: q :: rest else q :: insertRecord p rest

/-- The host copy (R386): a header, and a record for each included register in scope. -/
def State.snapCopy (s : State) (t scope seq : Nat) : List Byte :=
  let regs := ((List.finRange 8).filter (fun d => bitOf scope d.val)).flatMap snapRegs
  let records := (regs.map (fun r => (r.addr, s.heldValue r))).foldl (fun l p => insertRecord p l) []
  toBytes 8 (0x50414E53 + records.length * 2 ^ 32) ++ toBytes 8 (4096 * t) ++ toBytes 8 (scope + seq * 2 ^ 8) ++ List.replicate 40 0
  ++ records.flatMap (fun p => toBytes 8 (p.2.toNat + p.1 * 2 ^ 32))

/-- The snapshot is complete (R383, R384): the holding window takes the values, 0 for a die OFF or lost; VALID, the host copy and the report follow; and the next one begins. -/
def State.snapDone (s : State) : State :=
  match s.snap.job with
  | none => s
  | some j =>
    let up := (List.finRange 8).filter (fun d => bitOf j.scope.toNat d.val && s.dieUp d)
    if ¬ up.all (fun d => bitOf j.latched.toNat d.val) then s
    else
      let scope := (up.map (fun d => 2 ^ d.val)).sum
      let seq := (s.fld .snapStatus SNAP_STATUS.SEQ + 1) % 2 ^ 16
      let keep : Reg × Word → Bool := fun p => match p.1.snapDie with | some d => !bitOf j.scope.toNat d.val | none => false
      let taken : Reg × Word → Bool := fun p => match p.1.snapDie with | some d => up.contains d | none => false
      let s := s.updSnap (fun x => { x with window := x.window.filter keep ++ x.next.filter taken, next := [], job := none })
      let s := ((s.raise .snapStatus SNAP_STATUS.VALID).setFld .snapStatus SNAP_STATUS.BUSY 0).setFld .snapStatus SNAP_STATUS.SCOPE scope
      let s := (s.setFld .snapStatus SNAP_STATUS.SEQ seq).wr64 .snapTLo .snapTHi j.t
      let s := if j.addr ≠ 0 ∧ s.linkUp j.ref.func then s.hostWrite j.addr (s.snapCopy j.t scope seq) else s
      (s.complete j.ref Reason.ok (4096 * j.t)).snapNext

def execSnapshot (h : DescHdr) (dies : BitVec 8) (at_ : Bool) (t : QWord) (addr : QWord) (s : State) : Host.Outcome State Fault Refusal :=
  s.act [s.ringDie h] (·.descriptor h 0x0A false (fun ref s => s.snapAsked ⟨dies, at_, t.toNat, addr.toNat, ref⟩))
def execSnapshotLatch (die : Die) (s : State) : Host.Outcome State Fault Refusal := s.act [die] (·.snapLatch die)
def execSnapshotComplete (s : State) : Host.Outcome State Fault Refusal :=
  s.act (match s.snap.job with | some j => (List.finRange 8).filter (fun d => bitOf j.scope.toNat d.val) | none => []) State.snapDone

end Sys2Proof.Machine
end

