-- ==== Sys2Proof/Machine/Host.lean ====
section
/-! DEFINITION. Commands of the host interface: the doorbell poll, DMA of segments, tables, images and streams, rings, reports and vectors, links, ABORT and the watchdog
(spec 13_host_rings.md R337 to R354, R362 to R364). -/
namespace Sys2Proof.Machine
open Sys2Proof

/-! ### Descriptors as the host wrote them (R346 to R348) -/

/-- Word W0 read as a header, on its ring. -/
def hdrOf (r : RingId) (w0 : QWord) : DescHdr :=
  let n := w0.toNat
  { ring := r, report := bitOf n 8, irq := bitOf n 9, fence := bitOf n 10, txn := bitOf n 11, txnId := Fin.ofNat 4 (bitsOf n 12 2), reportRing := Fin.ofNat 64 (bitsOf n 16 6)
    tag := BitVec.ofNat 32 (bitsOf n 32 32) }

/-- The bits of W1 to W7 that hold fields, by opcode; the others are reserved. -/
def opcodeFields (code : Nat) (w1 : Nat) : Option (List Nat) :=
  let all := 2 ^ 64 - 1
  let lanes := 0x3FFF3FFF3FFF3FFF
  match code with
  | 0x00 => some [0, 0, 0, 0, 0, 0, 0]
  | 0x01 => some [all, 2 ^ 42 - 1, 2 ^ 32 - 1, 0, 0, 0, 0]
  | 0x02 => some [all, 2 ^ 42 - 1, 2 ^ 32 - 1, 0, 0, 0, 0]
  | 0x03 => some [all, 0xFFFF3FFF001F, 0, 0, 0, 0, 0]
  | 0x04 => some [all, 2 ^ 34 - 1, 0, 0, 0, 0, 0]
  | 0x05 => some [0xFFFFFFFF0000000F, all, all, all, all, 2 ^ 32 - 1, 0]
  | 0x06 => some [15, 0, 0, 0, 0, 0, 0]
  | 0x07 => some [0xFFFF, lanes, lanes, lanes, lanes, 2 ^ 32 - 1, 0]
  | 0x08 => some [0xFFFF, 0, 0, 0, 0, 0, 0]
  | 0x09 => some [0xFFFF, lanes, lanes, lanes, lanes, 0, 0]
  | 0x0A => some [0x1FF, all, all, 0, 0, 0, 0]
  | 0x0B => some [2 ^ 32 - 1, 0, 0, 0, 0, 0, 0]
  | 0x0C => some (match w1 % 256 with
    | 0 => [0xFFF, 0, 0, 0, 0, 0, 0] | 1 => [0xFFF, 0, 0, 0, 0, 0, 0] | 2 => [0x1FF, 0, 0, 0, 0, 0, 0] | 3 => [0xFF, 0xFFFFFFFF00FFFFFF, 0, 0, 0, 0, 0] | _ => [0, 0, 0, 0, 0, 0, 0])
  | 0x0D => some (match w1 % 256 with
    | 0 => [0xFF, all, 0, 0, 0, 0, 0] | 1 => [0xFF, all, all, all, all, all, 0] | 2 => [0xFFFF00FF, all, all, all, all, 0, 0] | _ => [0, 0, 0, 0, 0, 0, 0])
  | 0x10 => some [0, 0, 0, 0, 0, 0, 0]
  | 0x11 => some [all, all, all, all, all, all, 7]
  | 0x12 => some [0xFF03, all, 0, 0, 0, 0, 0]
  | 0x13 => some [0, 0, 0, 0, 0, 0, 0]
  | 0x14 => some [if bitOf w1 0 then 0xFFFFFF7F1FFF else 0x3F1FFF, all, 0, 0, 0, 0, 0]
  | 0x15 => some [0x7F, 0, 0, 0, 0, 0, 0]
  | 0x16 => some [all, 3, 0, 0, 0, 0, 0]
  | 0x17 => some [0xFFFF0001, 0, 0, 0, 0, 0, 0]
  | _ => none

/-- A bit outside the fields is set. -/
def reservedSet (fields : List Nat) (words : List Nat) : Bool := (fields.zip words).any (fun p => p.2 &&& (2 ^ 64 - 1 - p.1) != 0)

/-- Whether a base, a size and a ring number make a ring (R343). -/
def ringSound (report : Bool) (ring : Nat) (log2 base : Nat) : Bool := ring != 0 && decide (4 ≤ log2 ∧ log2 ≤ 16) && ringAligned base log2 (if report then 32 else 64)

/-- A field lies outside its stated range (R347, R348). -/
def rangeBad (code : Nat) (w : Vector QWord 8) : Bool :=
  let w1 := w[1].toNat
  let w2 := w[2].toNat
  let seg := fun (n : Nat) => w1 % 64 != 0 || bitsOf w2 0 40 % 64 != 0 || decide (n < bitsOf w2 40 2) || w[3].toNat % 2 ^ 32 % 64 != 0 || w[3].toNat % 2 ^ 32 == 0
  match code with
  | 0x01 => seg 2
  | 0x02 => seg 1
  | 0x03 => bitsOf w2 32 16 == 0 || decide (16384 < bitsOf w2 16 14 + bitsOf w2 32 16)
  | 0x04 => bitsOf w2 32 2 == 3
  | 0x05 => !bitOf w1 32 || bitsOf w1 34 2 == 3 || decide ((BitVec.ofNat 32 (w1 / 2 ^ 32)) &&& (Reg.reservedMask (.tndCtrl 0)) ≠ 0)
  | 0x0C => decide (3 < w1 % 256) || (w1 % 256 == 0 && decide (5 < bitsOf w1 8 3)) || (w1 % 256 == 3 && decide (3 < w2 % 16))
  | 0x0D => decide (2 < w1 % 256)
  | 0x11 =>
    let n := w[7].toNat % 8
    n == 0 || n == 7 || (List.range 6).any (fun i =>
      let item := (w[i + 1]?.getD 0).toNat
      if i < n then item % 4 != 0 || bitsOf item 27 5 != 0 else item != 0)
  | 0x12 => bitsOf w1 0 2 == 3
  | 0x14 => !ringSound (bitOf w1 0) (bitsOf w1 1 6) (bitsOf w1 8 5) w2
  | 0x15 => bitsOf w1 1 6 == 0
  | 0x16 => bitsOf w2 0 2 == 3
  | _ => false

/-- A descriptor needs a feature that is not accepted (R340). -/
def State.featureMissing (s : State) (code : Nat) (w : Vector QWord 8) : Bool :=
  match code with
  | 0x04 => bitsOf w[2].toNat 32 2 == 0 && !s.feature 5
  | 0x05 => !s.feature 1
  | 0x0C => w[1].toNat % 256 == 3 && !s.feature 7
  | 0x0D => w[1].toNat % 256 == 2 && !s.feature 6
  | 0x16 => bitsOf w[2].toNat 0 2 == 2 && !s.feature 8
  | _ => false

/-- Why a descriptor is invalid, if it is (R348). -/
def State.invalidReason (s : State) (w : Vector QWord 8) : Option Nat :=
  let n := w[0].toNat
  let code := n % 256
  match opcodeFields code w[1].toNat with
  | none => some Reason.badOpcode
  | some fields =>
    if bitsOf n 14 2 ≠ 0 ∨ bitsOf n 22 10 ≠ 0 ∨ reservedSet fields ((w.toList.drop 1).map BitVec.toNat) ∨ rangeBad code w then some Reason.badField
    else if s.featureMissing code w then some Reason.noFeatures
    else none

/-- DETAIL of a failure by opcode: the coded one for a COMMIT, a one-item transaction, STREAM_ATTACH and STREAM_DETACH (R349). -/
def failDetail (code : Nat) (h : DescHdr) : Nat :=
  if code = 0x05 ∨ code = 0x06 ∨ code = 0x12 ∨ ((code = 0x07 ∨ code = 0x08 ∨ code = 0x09 ∨ code = 0x11) ∧ ¬ h.txn) then noDetail else 0

/-- A descriptor with an unknown opcode, a bad field or an unaccepted feature ends without effect (R348). -/
def State.invalidEnds (s : State) (r : RingId) (w : Vector QWord 8) : State :=
  match s.invalidReason w with
  | none => s
  | some reason => s.descriptor (hdrOf r w[0]) (w[0].toNat % 256) false (fun ref s =>
      s.complete ref reason (if w[0].toNat % 256 = 0x05 ∨ w[0].toNat % 256 = 0x06 then detailOf none none (some (Fin.ofNat 16 w[1].toNat)) else failDetail ref.code.toNat ref.hdr))

/-! ### The doorbell poll (R136, R155, R341, R342, R345) -/

/-- A ring's producer index is read, and up to 64 descriptors are fetched ahead. -/
def State.fetchAhead (r : RingId) : Nat → State → State
  | 0, s => s
  | n + 1, s =>
    let x := s.host.drings[r]
    let i := x.cons + (if x.began.isSome then 1 else 0) + x.fetched.length
    if 64 ≤ x.fetched.length ∨ i % 2 ^ 64 = x.prod then s
    else
      let w0 := BitVec.ofNat 64 (Memory.readLE s.host.mem (x.base + i % 2 ^ x.log2 * 64) 8)
      let s := s.updDring r (fun x => { x with fetched := x.fetched ++ [⟨s.host.seq, w0, false⟩] })
      State.fetchAhead r n (s.updHost (fun h => { h with seq := h.seq + 1 }))

/-- A dispatch ring that a Dome serves is polled. -/
def State.pollRing (s : State) (r : RingId) : State := State.fetchAhead r 64 (s.updDring r (fun x => { x with prod := s.slotAt r.val }))

/-- A stream's producer index is read, and blocks are pulled (R136, R137). -/
def State.pollStream (s : State) (st : StreamId) : State :=
  State.pullBlocks st 16 (s.updStream st (fun x => { x with prod := s.slotAt (128 + st.val) }))

/-- The watched consumer index has advanced, or no report waits for the host: the watch starts anew (R364). -/
def State.watchAgain (s : State) : State :=
  s.updHost (fun h => { h with wd := h.wd.map (fun w =>
    let cons := s.slotAt (64 + w.ring.val)
    if cons ≠ w.cons ∨ cons = s.host.rrings[w.ring].prod then { w with cons := cons, since := s.clock.now } else w) })

/-- A poll of a Dome over its own link, once ST-14 is complete: its rings, its own streams, and the other Dome's while that one's link is down. -/
def State.poll (s : State) (d : DomeId) : State :=
  if s.linkUp d ∧ s.serves then
    let rings := (List.finRange 64).filter (fun r => s.host.drings[r].up && s.host.drings[r].func == d)
    let sts := (List.finRange 16).filter (fun st => s.attached st && s.streamLink st == some d)
    (sts.foldl State.pollStream (rings.foldl State.pollRing s)).watchAgain
  else s

/-! ### Segments (R347, R310) -/

/-- The Dome of a function reaches a Dome's memory: its own, or the other's over the Dome–Dome link. -/
def State.memReached (s : State) (f : Func) (d : DomeId) : Bool := !s.dieLost[Die.ofDome d] && (f == d || s.linkWorks linkDomes)

/-- Where HOME 0, 1 or 2 puts bytes: on the named Dome, or on every Dome in service. -/
def State.segHomes (s : State) (home : Nat) : List DomeId := if home < 2 then [Fin.ofNat 2 home] else s.domesUp

/-- The mirror copy of a write cannot be made: the Dome–Dome link is lost while both Domes are alive (R31). -/
def State.mirrorDown (s : State) (home : Nat) : Bool := decide (2 ≤ home) && s.domesUp.length == 2 && s.links[linkDomes].lost

/-- The range of a segment is sound: aligned, nonempty, within the data space of each home. -/
def State.segRange (s : State) (addr : QWord) (data home len : Nat) : Bool :=
  addr.toNat % 64 == 0 && data % 64 == 0 && len % 64 == 0 && len != 0 && decide (home ≤ 2) && (s.segHomes home).all (fun d => decide (data + len ≤ s.dataBytes d))

/-- LOAD_SEG: bytes move from host memory to the data space of the home, or of both. -/
def State.loadSegment (s : State) (ref : DescRef) (addr : QWord) (data home len : Nat) : State :=
  if ¬ s.segRange addr data home len then s.complete ref Reason.badField 0
  else if s.mirrorDown home then s.complete ref Reason.mirrorDown 0
  else if ¬ (s.segHomes home).all (s.memReached ref.func) then (s.raise (.hstStatus ref.func) HST_STATUS.DMA_FAULT).complete ref Reason.dmaFault 0
  else ((s.segHomes home).foldl (fun (s : State) (d : DomeId) => s.dataWrite d data (s.hostRead addr.toNat len)) s).complete ref Reason.ok len

/-- The units of a range that cannot be read (R310). -/
def State.unreadable (s : State) (d : DomeId) (data len : Nat) : List Nat :=
  if s.moor[d].poison = [] ∧ s.moor[d].lost = [] then [] else ((List.range (len / 64)).map (fun i => data + 64 * i)).filter (fun a => !s.readable d a)

/-- READ_SEG: bytes move from the data space of one home to host memory; a unit that cannot be read is counted and published, and ends it with an error report (R310). -/
def State.readSegment (s : State) (ref : DescRef) (addr : QWord) (data home len : Nat) : State :=
  let d : DomeId := Fin.ofNat 2 home
  if ¬ s.segRange addr data home len ∨ 2 ≤ home then s.complete ref Reason.badField 0
  else if ¬ s.memReached ref.func d then (s.raise (.hstStatus ref.func) HST_STATUS.DMA_FAULT).complete ref Reason.dmaFault 0
  else match s.unreadable d data len with
    | [] => (s.hostWrite addr.toNat (Memory.read s.moor[d].data data len)).complete ref Reason.ok len
    | bad =>
      let s := bad.foldl (fun s a => s.poisonRead d (placeOf (s.half d) a).stripe) s
      (s.raise (.hstStatus ref.func) HST_STATUS.DMA_FAULT).complete ref Reason.dmaFault 0

/-! ### Tables (R36 to R40, R347) -/

/-- An entry from its 64 bytes. -/
def entryAt (b : List Byte) (i : Nat) : EntryWords :=
  let w := fun (k : Nat) => BitVec.ofNat 64 (fromBytes ((b.drop (64 * i + 8 * k)).take 8))
  ⟨w 0, w 1, w 2, w 3, w 4, w 5, w 6, w 7⟩

/-- A table with entries loaded from `first` up; its length becomes the larger of its value and their end. -/
def Table.load (t : Table) (first count : Nat) (b : List Byte) : Table :=
  { len := max t.len (first + count)
    entries := t.entries.filter (fun p => decide (p.1 < first)) ++ (List.range count).map (fun i => (first + i, entryAt b i)) ++ t.entries.filter (fun p => decide (first + count ≤ p.1)) }

/-- A load would raise the blocks in use on a Dome that holds the tables above 1,024 (R39). -/
def State.pb1Over (s : State) (c : ChanId) (t : Table) : Bool :=
  (List.finRange 2).any (fun d => homeNames (s.homeOf c) d && decide (1024 < s.blocksUsed d - (s.staged c).blocks + t.blocks))

/-- LOAD_TABLE: entries move from host memory into the staged table. -/
def State.loadEntries (s : State) (ref : DescRef) (addr : QWord) (c : ChanId) (slot : Fin 2) (first count : Nat) : State :=
  let t := (s.staged c).load first count (s.hostRead addr.toNat (64 * count))
  if count = 0 ∨ 16384 < first + count then s.complete ref Reason.badField 0
  else if slot ≠ s.stagedSlot c then s.complete ref Reason.activeTable 0
  else if s.chans[c].move.isSome ∨ s.stagedBusy c then s.complete ref Reason.tableBusy 0
  else if s.mirrorDown (s.homeOf c) then s.complete ref Reason.mirrorDown 0
  else if s.pb1Over c t then s.complete ref Reason.pb1Full 0
  else (s.updChan c (fun x => { x with slots := x.slots.set slot t })).complete ref Reason.ok (64 * count)

/-! ### Images (R273, R347) -/

/-- LOAD_IMAGE: an image is checked and loaded; a vendor image needs every channel IDLE or ENDED; an owner image waits while an owner routine runs. -/
def State.loadImageBytes (s : State) (ref : DescRef) (addr : QWord) (len : Nat) (target : Fin 4) : State :=
  let kind : ImageKind := if target = 0 then .owner else if target = 1 then .keeper else .channel
  let fails := fun (s : State) (reason : Nat) => (s.loadFailed).complete ref reason 0
  if target = 3 then s.complete ref Reason.badField 0
  else if target = 0 ∧ ¬ s.feature 5 then s.complete ref Reason.noFeatures 0
  else if target ≠ 0 ∧ (List.finRange 16).any (fun c => s.chans[c].st.busy) then s.complete ref Reason.imageBusy 0
  else match s.imageOf kind (s.hostRead addr.toNat len) with
    | .error reason => fails s reason
    | .ok x =>
      let s := match kind with
        | .channel => s.installChannel x
        | .keeper => s.installKeeper x
        | .owner => if s.ownerRuns then { s with ownerNew := some x } else s.installOwner x
      s.complete ref Reason.ok len

/-! ### Streams (R143, R157, R347) -/

/-- STREAM_ATTACH: the registers take the values and the stream attaches, or it is refused with its reason. -/
def State.attachWith (s : State) (ref : DescRef) (st : StreamId) (ctrl region fallback ringLo ringHi : Word) (cons : QWord) (wmA wmB limit : Word) : State :=
  let detail := detailOf none none (some st)
  let rsv := fun (r : Reg) (w : Word) => decide (w &&& r.reservedMask ≠ 0)
  if ¬ s.feature 1 then s.complete ref Reason.noFeatures detail
  else if TND_CTRL.ATTACH.get ctrl = 0 ∨ rsv (.tndCtrl st) ctrl ∨ rsv (.tndRegion st) region ∨ rsv (.tndFallback st) fallback ∨ rsv (.tndRingLo st) ringLo ∨ cons.toNat % 8 ≠ 0 then
    s.complete ref Reason.badField detail
  else if s.attached st then s.complete ref Reason.tenderBusy detail
  else match s.attachRefused st ctrl.toNat region.toNat wmA.toNat wmB.toNat with
    | some reason => s.complete ref reason detail
    | none =>
      let put := fun (s : State) (p : Reg × Word) => (s.wr p.1 p.2).toMaster p.1 p.2
      let s := [((.tndRegion st : Reg), region), (.tndFallback st, fallback), (.tndRingLo st, ringLo), (.tndRingHi st, ringHi), (.tndConsLo st, BitVec.ofNat 32 cons.toNat),
        (.tndConsHi st, BitVec.ofNat 32 (cons.toNat / 2 ^ 32)), (.tndWmA st, wmA), (.tndWmB st, wmB), (.tndLimit st, limit)].foldl put s
      let s := (s.wr (.tndCtrl st) ctrl).toMaster (.tndCtrl st) (TND_CTRL.ATTACH.put ctrl 0)
      (s.attachStream st ref.func).complete ref Reason.ok 0

/-- STREAM_DETACH: nothing for a detached stream; refused while the bound channel is busy. -/
def State.detachWith (s : State) (ref : DescRef) (st : StreamId) : State :=
  if ¬ s.attached st then s.complete ref Reason.ok 0
  else if s.detachRefused st then s.complete ref Reason.tenderBusy (detailOf none none (some st))
  else (s.detachStream st).complete ref Reason.ok 0

/-! ### Rings (R343, R28) -/

/-- RING_SETUP: of a ring not set up; of one whose link is down it rebinds it to the function named, its indices unchanged (R28, R390 for ring 0). -/
def State.setUpRing (s : State) (ref : DescRef) (report : Bool) (ring : RingId) (func : Func) (log2 : Fin 32) (defReport : RingId) (vector : Fin 128) (coalCount : Byte) (coalTime : BitVec 16)
    (base : QWord) : State :=
  let slot := s.slotAt (ring.val + if report then 64 else 0)
  if ¬ ringSound report ring.val log2.val base.toNat then s.complete ref Reason.badField 0
  else if report then
    let x := s.host.rrings[ring]
    if x.up ∧ s.linkUp x.func then s.complete ref Reason.ringState 0
    else if x.up then (s.rebindRring ring func).complete ref Reason.ok 0
    else (s.updRring ring (fun _ => ⟨true, func, base.toNat, log2.val, vector, coalCount.toNat, coalTime.toNat, slot, slot, [], 0, none⟩)).complete ref Reason.ok 0
  else
    let x := s.host.drings[ring]
    if x.up ∧ s.linkUp x.func then s.complete ref Reason.ringState 0
    else if x.up then (s.rebindDring ring func).complete ref Reason.ok 0
    else if ¬ s.host.rrings[defReport].up then s.complete ref Reason.ringState 0
    else (s.updDring ring (fun _ => ⟨true, func, base.toNat, log2.val, defReport, slot, slot, [], none, []⟩)).complete ref Reason.ok 0

/-- RING_TEARDOWN. -/
def State.tearDownRing (s : State) (ref : DescRef) (report : Bool) (ring : RingId) : State :=
  if ring = 0 then s.complete ref Reason.badField 0
  else if report then
    if ¬ s.host.rrings[ring].up ∨ s.isDefault ring ∨ s.host.rrings[ring].waiting ≠ [] then s.complete ref Reason.ringState 0
    else (s.updRring ring (fun _ => HostIf.reset.rrings[ring])).complete ref Reason.ok 0
  else
    let x := s.host.drings[ring]
    if ¬ x.up ∨ x.began.isSome ∨ s.ringStalled ring ∨ x.prod ≠ x.cons then s.complete ref Reason.ringState 0
    else (s.updDring ring (fun _ => HostIf.reset.drings[ring])).complete ref Reason.ok 0

/-! ### ABORT (R345, R362, R363) -/

/-- The channel of a register of a Lamp die's channel blocks. -/
def Reg.chanOf? (r : Reg) : Option ChanId :=
  let a := r.addr
  if 0x400000 ≤ a ∧ a < 0x800000 ∧ 0x20000 ≤ a % 0x100000 ∧ a % 0x100000 < 0x50000 then some ⟨((a - 0x400000) / 0x100000 % 4) * 4 + a / 0x1000 % 4, by omega⟩ else none

/-- A channel shows the dark code with its markers inactive and goes to IDLE; a recovery stops. -/
def State.abortChan (s : State) (c : ChanId) : State :=
  let s := ((s.dropMarkers c).toIdle c).cutLines c
  let s := if s.shadows[c].declared.isSome then s.reloadStore c else s
  (s.updChan c (fun x => { x with resume := false, kept := none })).updShadow c (fun x => { x with declared := none })

/-- What is begun for a function and answers one of its descriptors ends with it: a snapshot, attestations waiting for a key. -/
def State.dropJobs (s : State) (f : Func) : State :=
  let mine : Bool := match s.snap.job with | some j => j.ref.func == f | none => false
  let s := if mine then s.setFld .snapStatus SNAP_STATUS.BUSY 0 else s
  let s := s.updSnap (fun x => { x with job := bif mine then none else x.job, queue := x.queue.filter (fun w => w.ref.func != f) })
  (s.updHost (fun h => { h with attests := h.attests.filter (fun p => p.1.func != f) })).snapNext

/-- The next fetched descriptor of a ring ends with ABORTED. -/
def State.abortNext (s : State) (r : RingId) : State :=
  let x := s.host.drings[r]
  match x.fetched with
  | [] => s
  | y :: rest =>
    let h := hdrOf r y.w0
    let s := s.updDring r (fun x => { x with fetched := rest })
    s.complete ⟨x.func, BitVec.ofNat 8 (y.w0.toNat % 256), h, x.cons⟩ Reason.aborted (failDetail (y.w0.toNat % 256) h)

/-- The descriptor of a ring that has begun, and those fetched before an ABORT on it, end with ABORTED. -/
def State.abortRing (s : State) (r : RingId) : State :=
  let s := match s.host.drings[r].began with
    | some ref => s.complete ref Reason.aborted (failDetail ref.code.toNat ref.hdr)
    | none => s
  (s.host.drings[r].fetched.takeWhile (fun y => y.w0.toNat % 256 != 0x17)).foldl (fun s _ => s.abortNext r) s

/-- SCOPE FUNCTION: channels, transactions and descriptors of a function. Its streams stay attached. -/
def State.abortAll (s : State) (f : Func) : State :=
  let s := s.raise (.hstStatus f) HST_STATUS.ABORT
  let s := ((List.finRange 16).filter (fun c => s.chans[c].owner == f && s.chans[c].st != .idle)).foldl State.abortChan s
  let s := (s.relayCheck.rollAll (fun x => x.func == f) Reason.aborted).dropJobs f
  ((List.finRange 64).filter (fun r => s.host.drings[r].up && s.host.drings[r].func == f)).foldl State.abortRing s

/-- SCOPE CHANNELS: the named channels, and the transactions that hold items for them. -/
def State.abortMask (s : State) (f : Func) (mask : BitVec 16) : State :=
  let s := s.raise (.hstStatus f) HST_STATUS.ABORT
  let cs := maskChans mask
  let s := (cs.foldl State.abortChan s).relayCheck
  s.rollAll (fun x => x.chans.any cs.contains || (x.sets.filterMap setItemReg).any (fun r => match r.chanOf? with | some c => cs.contains c | none => false)) Reason.aborted

/-- An ABORT is accepted at fetch: `act` is its effect, and it ends with OK ahead of the descriptors before it that are left (R345). Where it has not been fetched it is so now; one behind more
than 64 others is not accepted yet. -/
def State.acceptAbort (s : State) (h : DescHdr) (act : Func → State → State) : State :=
  let x := s.host.drings[h.ring]
  let isAbort : Fetched → Bool := fun y => !y.done && y.w0.toNat % 256 == 0x17
  if ¬ (x.up ∧ s.linkUp x.func ∧ s.serves) ∨ (64 ≤ x.fetched.length ∧ ¬ x.fetched.any isAbort) then s
  else
    let s := if x.fetched.any isAbort then s
      else (s.updDring h.ring (fun x =>
        let next := (x.cons + (if x.began.isSome then 1 else 0) + x.fetched.length) % 2 ^ 64
        { x with fetched := x.fetched ++ [⟨s.host.seq, 0x17, false⟩], prod := if x.prod = next then (next + 1) % 2 ^ 64 else x.prod })).updHost (fun h => { h with seq := h.seq + 1 })
    let s := if s.host.rrings[h.reportRing].up then act x.func s else s
    let status := if s.host.rrings[h.reportRing].up then Reason.ok else Reason.ringState
    let y := s.host.drings[h.ring]
    let k := (y.fetched.findIdx? isAbort).getD 0
    let i := y.cons + (if y.began.isSome then 1 else 0) + k
    let s := s.updDring h.ring (fun x => { x with fetched := ((List.range x.fetched.length).zip x.fetched).map (fun (p : Nat × Fetched) => if p.1 = k then { p.2 with done := true } else p.2) }.pass)
    s.finish ⟨x.func, 0x17, h, i % 2 ^ 64⟩ status 0

/-! ### Links (R26 to R28, R354, R412) -/

/-- A descriptor begun on a ring whose link is lost: its DMA ends, and its report is kept with LINK_LOST. -/
def State.keepReport (s : State) (r : RingId) : State :=
  match s.host.drings[r].began with
  | none => s
  | some ref =>
    let q := s.reportRingOf ref.hdr
    let rep : Report :=
      ⟨ref.code, false, ref.func, Reason.linkLost, ref.hdr.tag, r, ref.index, ref.index + 1, BitVec.ofNat 64 (failDetail ref.code.toNat ref.hdr), ref.hdr.irq⟩
    s.updDring r (fun x => { x with began := none, cons := (ref.index + 1) % 2 ^ 64, kept := x.kept ++ [(q, rep)] })

/-- The consequences of the loss of a function's link (R354): its rings stop, its transactions roll back, ownership passes, the LINK report goes out. -/
def State.linkGone (s : State) (f : Func) : State :=
  let s := s.rollAll (fun x => x.func == f) Reason.linkLost
  let mine := (List.finRange 64).filter (fun r => s.host.drings[r].up && s.host.drings[r].func == f)
  let s := mine.foldl (fun s r => (s.keepReport r).updDring r (fun x => { x with fetched := [] })) s
  let s := s.dropJobs f
  let s := { s with
    chans := s.chans.map (fun (x : Chan) => if x.owner = f then { x with owner := twin f } else x)
    streams := s.streams.map (fun (x : Stream) => if x.owner = f then { x with owner := twin f } else x) }
  s.asyncReport 0 0xF2 (2 * f.val)

/-- A change of a host link publishes PCIE with HST_LINK as it stands (R254). -/
def State.linkChanged (s : State) (f : Func) : State := s.publish (.pcie f) (s.rd (.hstLink f)).toNat

/-- A host link goes down. -/
def State.linkDown (s : State) (f : Func) : State :=
  if s.fld (.hstLink f) HST_LINK.GEN = 0 then s
  else
    let was := s.linkUp f
    let s := ((s.wr (.hstLink f) 0).raise (.hstStatus f) HST_STATUS.LINK_DOWN).linkChanged f
    if was then s.linkGone f else s

/-- A function enters D3hot: treated as the loss of its link (R335, R354). -/
def State.toD3 (s : State) (f : Func) : State :=
  if s.linkUp f then ((s.raise (.hstLink f) HST_LINK.D3).linkChanged f).linkGone f else s

/-- A host link comes up at a generation and width, outside LAID-UP; reports kept for its rings are posted. Gen6 is FLIT mode (R335). -/
def State.linkComes (s : State) (f : Func) (gen width : Nat) : State :=
  if gen = 0 ∨ ¬ (width = 1 ∨ width = 2 ∨ width = 4 ∨ width = 8 ∨ width = 16) ∨ ¬ s.domainOn (domPcie f) ∨ s.linkUp f then s
  else
    let s := s.wr (.hstLink f) (BitVec.ofNat 32 (gen + width * 8 + if gen = 6 then 256 else 0))
    let s := (s.linkChanged f).asyncReport 0 0xF2 (1 + 2 * f.val)
    ((List.finRange 64).filter (fun r => s.host.drings[r].up && s.host.drings[r].func == f)).foldl (fun s r => s.rebindDring r f) s

/-! ### DMA that fails (R338) -/

/-- Commands whose data come by DMA reads: LOAD_SEG, LOAD_TABLE, LOAD_IMAGE, and KEY ENROLL_OWNER. -/
def readsHost (code op : Nat) : Bool := code == 1 || code == 3 || code == 4 || (code == 0x0D && op == 0)

/-- A DMA read of the ring's next descriptor fails: it ends with DMA_FAULT. -/
def State.dmaFails (s : State) (r : RingId) : State :=
  let x := s.host.drings[r]
  match x.fetched with
  | [] => s
  | y :: _ =>
    let op := Memory.readLE s.host.mem (x.base + x.cons % 2 ^ x.log2 * 64 + 8) 1
    if readsHost (y.w0.toNat % 256) op then
      s.descriptor (hdrOf r y.w0) (y.w0.toNat % 256) false (fun ref s => (s.raise (.hstStatus ref.func) HST_STATUS.DMA_FAULT).complete ref Reason.dmaFault 0)
    else s

/-! ### Vectors and the watchdog (R352, R364) -/

/-- A pending vector sends its message through its route, unless its table entry masks it; the input is no longer busy. -/
def State.sendVector (s : State) (v : Fin 128) : State :=
  let f := s.vectorRoute v
  let m := s.host.bar2[f]
  if s.inputBusy (consOfVector v) ∧ s.linkUp f ∧ ¬ bitOf (Memory.readLE m (16 * v.val + 12) 4) 0 then
    (s.hostWrite (Memory.readLE m (16 * v.val) 8) (Memory.read m (16 * v.val + 8) 4)).setFld (.bcnConsStat (consOfVector v)) BCN_CONSi_STAT.BUSY 0
  else s

/-- COAL_TIME has passed since the first report not yet announced. -/
def State.coalesced (s : State) (r : RingId) : State :=
  match s.host.rrings[r].first with
  | none => s
  | some t =>
    if s.coalTimeOf r = 0 then s
    else ((s.reachTime (t + s.coalTimeOf r * qUs)).updRring r (fun x => { x with since := 0, first := none })).requestVector (s.vectorOf r)

/-- WATCHDOG: a new one replaces the one before. -/
def State.setWatchdog (s : State) (ref : DescRef) (period timeout : Word) (action : Fin 4) : State :=
  let q := ref.hdr.reportRing
  if action = 3 then s.complete ref Reason.badField 0
  else if action = 2 ∧ ¬ s.feature 8 then s.complete ref Reason.noFeatures 0
  else (s.updHost (fun h => { h with wd := some ⟨s.clock.now, q, ref.func, period.toNat, timeout.toNat, action, 0, s.slotAt (64 + q.val), s.clock.now⟩ })).complete ref Reason.ok 0

/-- A HEARTBEAT falls due. -/
def State.heartbeat (s : State) : State :=
  match s.host.wd with
  | none => s
  | some w =>
    if w.period = 0 then s
    else
      let s := s.reachTime (w.start + (w.sent + 1) * w.period * qUs)
      (s.updHost (fun h => { h with wd := some { w with sent := w.sent + 1 } })).asyncReport w.ring 0xF0 (w.sent + 1)

/-- The watched consumer index has not advanced for HOST_TIMEOUT while reports wait: HOST_LOST, and the action. -/
def State.hostLost (s : State) : State :=
  let s := s.watchAgain
  match s.host.wd with
  | none => s
  | some w =>
    if w.timeout = 0 ∨ ¬ s.host.rrings[w.ring].up ∨ w.cons = s.host.rrings[w.ring].prod then s
    else
      let s := s.reachTime (w.since + w.timeout * qUs)
      let s := s.updHost (fun h => { h with wd := some { w with since := s.clock.now } })
      let s := (s.raise (.hstStatus w.func) HST_STATUS.HOST_LOST).asyncReport 0 0xF3 w.ring.val
      if w.action = 1 then s.publish (.ring w.func) HST_STATUS.HOST_LOST.mask.toNat else if w.action = 2 then s.abortAll w.func else s

/-! ### The commands -/

def execDoorbellPoll (d : DomeId) (s : State) : Host.Outcome State Fault Refusal := s.act [Die.ofDome d] (·.poll d)
def execDescriptorInvalid (ring : RingId) (words : Vector QWord 8) (s : State) : Host.Outcome State Fault Refusal :=
  s.act [Die.ofDome s.host.drings[ring].func] (·.invalidEnds ring words)
def execNop (h : DescHdr) (s : State) : Host.Outcome State Fault Refusal := s.act [s.ringDie h] (·.descriptor h 0x00 false (fun ref s => s.complete ref Reason.ok 0))
def execLoadSeg (h : DescHdr) (addr : QWord) (data : Nat) (home : Fin 4) (len : Nat) (s : State) : Host.Outcome State Fault Refusal :=
  s.act [s.ringDie h] (·.descriptor h 0x01 false (fun ref s => s.loadSegment ref addr data home.val len))
def execReadSeg (h : DescHdr) (addr : QWord) (data : Nat) (home : Fin 4) (len : Nat) (s : State) : Host.Outcome State Fault Refusal :=
  s.act [s.ringDie h] (·.descriptor h 0x02 false (fun ref s => s.readSegment ref addr data home.val len))
def execLoadTable (h : DescHdr) (addr : QWord) (c : ChanId) (slot : Fin 2) (first count : Nat) (s : State) : Host.Outcome State Fault Refusal :=
  s.act [s.ringDie h] (·.descriptor h 0x03 false (fun ref s => s.loadEntries ref addr c slot first count))
def execLoadImage (h : DescHdr) (addr : QWord) (len : Nat) (target : Fin 4) (s : State) : Host.Outcome State Fault Refusal :=
  s.act [s.ringDie h] (·.descriptor h 0x04 false (fun ref s => s.loadImageBytes ref addr len target))
def execStreamAttach (h : DescHdr) (st : StreamId) (ctrl region fallback ringLo ringHi : Word) (cons : QWord) (wmA wmB limit : Word) (s : State) : Host.Outcome State Fault Refusal :=
  s.act [s.ringDie h, Die.ofDome (domeOfStream st)] (·.descriptor h 0x05 false (fun ref s => s.attachWith ref st ctrl region fallback ringLo ringHi cons wmA wmB limit))
def execStreamDetach (h : DescHdr) (st : StreamId) (s : State) : Host.Outcome State Fault Refusal :=
  s.act [s.ringDie h, Die.ofDome (domeOfStream st)] (·.descriptor h 0x06 false (fun ref s => s.detachWith ref st))
def execInject (h : DescHdr) (ch : BeaconCh) (info : BitVec 24) (s : State) : Host.Outcome State Fault Refusal :=
  s.act [s.ringDie h] (·.descriptor h 0x0B false (fun ref s => (s.publishOn (.inject s.leader) ch info.toNat none).complete ref Reason.ok 0))
def execRingSetup (h : DescHdr) (report : Bool) (ring : RingId) (func : Func) (log2 : Fin 32) (defReport : RingId) (vector : Fin 128) (coalCount : Byte) (coalTime : BitVec 16) (base : QWord)
    (s : State) : Host.Outcome State Fault Refusal :=
  s.act [s.ringDie h] (·.descriptor h 0x14 (report && ring == h.reportRing) (fun ref s => s.setUpRing ref report ring func log2 defReport vector coalCount coalTime base))
def execRingTeardown (h : DescHdr) (report : Bool) (ring : RingId) (s : State) : Host.Outcome State Fault Refusal :=
  s.act [s.ringDie h] (·.descriptor h 0x15 false (fun ref s => s.tearDownRing ref report ring))
def execWatchdog (h : DescHdr) (period timeout : Word) (action : Fin 4) (s : State) : Host.Outcome State Fault Refusal :=
  s.act [s.ringDie h] (·.descriptor h 0x16 false (fun ref s => s.setWatchdog ref period timeout action))
def execAbortFunction (h : DescHdr) (s : State) : Host.Outcome State Fault Refusal := s.act [s.ringDie h] (·.acceptAbort h (fun f s => s.abortAll f))
def execAbortChannels (h : DescHdr) (mask : BitVec 16) (s : State) : Host.Outcome State Fault Refusal := s.act [s.ringDie h] (·.acceptAbort h (fun f s => s.abortMask f mask))
def execReportPost (r : RingId) (s : State) : Host.Outcome State Fault Refusal := s.act [Die.ofDome s.host.rrings[r].func] (·.postReport r)
def execMsixSend (v : Fin 128) (s : State) : Host.Outcome State Fault Refusal := s.act [Die.ofDome (s.vectorRoute v)] (·.sendVector v)
def execCoalTimeout (r : RingId) (s : State) : Host.Outcome State Fault Refusal := s.act [Die.ofDome s.host.rrings[r].func] (·.coalesced r)
def execHostLinkDown (f : Func) (s : State) : Host.Outcome State Fault Refusal := s.act [Die.ofDome f] (·.linkDown f)
def execHostLinkUp (f : Func) (gen : Fin 7) (width : Fin 32) (s : State) : Host.Outcome State Fault Refusal := s.act [Die.ofDome f] (·.linkComes f gen.val width.val)
def execD3hotEntry (f : Func) (s : State) : Host.Outcome State Fault Refusal := s.act [Die.ofDome f] (·.toD3 f)
/-- PERST# resets the function's PCIe controller, and with it the MSI-X table (R412). -/
def execPerst (f : Func) (s : State) : Host.Outcome State Fault Refusal := s.act [Die.ofDome f] (fun s => (s.linkDown f).updHost (fun h => { h with bar2 := h.bar2.set f [] }))
def execWatchdogHeartbeat (s : State) : Host.Outcome State Fault Refusal := s.act [] State.heartbeat
def execHostTimeout (s : State) : Host.Outcome State Fault Refusal := s.act [] State.hostLost
/-- No completion within 10 ms. -/
def execDmaReadTimeout (ring : RingId) (s : State) : Host.Outcome State Fault Refusal :=
  s.act [Die.ofDome s.host.drings[ring].func] (fun s => if s.host.drings[ring].fetched = [] then s else (s.reachTime (s.clock.now + 10 * qMs)).dmaFails ring)
def execDmaBadCompletion (ring : RingId) (s : State) : Host.Outcome State Fault Refusal := s.act [Die.ofDome s.host.drings[ring].func] (·.dmaFails ring)

end Sys2Proof.Machine
end

