-- ==== Sys2Proof/Machine/Losses.lean ====
section
/-! DEFINITION. Losses of dies and links: heartbeats, rail monitors, and the forms that remain (spec 01_dies_and_links.md R31 to R35, 05_tender_streams.md R154, 17_balls_and_electrical.md R442). -/
namespace Sys2Proof.Machine
open Sys2Proof

/-! ### Dies lost (R31, R33 to R35) -/

/-- What a lost Dome held is gone: its plate banks, with the tables in its PB1, and what its keepers ran (R34, R331). -/
def State.domeForgotten (s : State) (d : DomeId) : State :=
  let s := (List.finRange 6).foldl (fun (s : State) (b : BankId) => s.plateLost d b) s
  let s := { s with chans := s.chans.map (fun (x : Chan) => { x with heldOn := x.heldOn.set d false }) }
  (List.finRange 2).foldl (fun (s : State) (i : Fin 2) => (s.discardRun (keeperOfDome d i)).updKeeper (keeperOfDome d i) (fun x => { x with input := none })) s

/-- The Transit log moves to the other Dome's PB4, both indexes at 0 (R232). -/
def State.logMoves (s : State) (d : DomeId) : State :=
  if s.logHome = d then
    { (((s.setFld .trnLogCtrl TRN_LOG_CTRL.HOME (twin d).val).setFld .trnLogWr TRN_LOG_WR.INDEX 0).setFld .trnLogRd TRN_LOG_RD.INDEX 0) with trnLogQ := [] }
  else s

/-- A Dome is declared lost (R33, R34): its domains are OFF, every attached stream on both Domes is LOST, its link carries no host traffic; the other Dome and the leading Meridian publish. -/
def State.loseDome (s : State) (d : DomeId) : State :=
  if s.dieLost[Die.ofDome d] then s
  else
    let s := (List.finRange 16).foldl State.streamLost s
    let s := (s.dropDie (Die.ofDome d)).domeForgotten d
    let s := ((s.publishFree (.peerLost (twin d))).publishFree (.dieLost s.leader)).logMoves d
    ((s.linkDown d).enterForm 5).relayCheck

/-- A Lamp die is found lost (R31): its channels stop, its domains are held OFF, the other twelve channels go on. -/
def State.loseLamp (s : State) (n : LampId) : State :=
  if s.dieLost[Die.ofLamp n] then s
  else
    let s := (chansOfLamp n).foldl State.toIdle (s.dropDie (Die.ofLamp n))
    ((s.publishFree (.dieLost s.leader)).enterForm 8).relayCheck

/-- The lead passes to MERID_B (R35). A scheduled SYNC is completed from it at the same event time: it takes the SYNC over, still armed, with the application that waits for it (R213; DEDUCED, log entry 133). -/
def State.leadPasses (s : State) : State :=
  let s := (s.setFld (.merState 0) MER_STATE.LEADER 0).setFld (.merState 1) MER_STATE.LEADER 1
  match s.mers[(0 : MerId)].sync with
  | none => s
  | some e =>
    let s := ((s.updMer 0 (fun x => { x with sync := none })).updMer 1 (fun x => { x with sync := some e })).setFld (.merSyncCtrl 1) MER_SYNC_CTRL.ARM (s.fld (.merSyncCtrl 0) MER_SYNC_CTRL.ARM)
    if s.isSet (.merApply 0) MER_APPLY.AT_SYNC then s.raise (.merApply 1) MER_APPLY.AT_SYNC else s

/-- A Meridian die is lost: of MERID_A, the consumers fail over and MERID_B takes the lead; with no Meridian left the part is in DARK (R35, R211). -/
def State.loseMerid (s : State) (m : MerId) : State :=
  if s.dieLost[Die.ofMerid m] then s
  else if s.dieLost[Die.ofMerid (twin m)] then s.fullReset false
  else
    let s := { s with dieLost := s.dieLost.set (Die.ofMerid m) true }
    let s := (s.setLoop m 0 0).setLoop m 1 0
    let s := s.failover m (List.finRange 10)
    let s := if m = 0 then s.leadPasses else s
    ((s.dropDie (Die.ofMerid m)).publishFree (.twinLost (twin m))).enterForm 7

/-! ### Heartbeats (R33, R254) -/

/-- The state with one Dome's heartbeat changed. -/
def State.updBeat (s : State) (d : DomeId) (f : Beat → Beat) : State := { s with beats := s.beats.set d (f s.beats[d]) }

/-- A Dome sends its heartbeat, 1 µs after the last; it reaches whom a link still carries it to. -/
def State.sendBeat (s : State) (d : DomeId) : State :=
  if s.dieUp (Die.ofDome d) then
    let s := s.reachTime (s.beats[d].sent + qUs)
    s.updBeat d (fun x =>
      { missedPeer := x.missedPeer && !s.linkWorks linkDomes, missedMerid := x.missedMerid && !s.linkWorks (linkMeridDome s.leader d), sent := s.clock.now })
  else s

/-- A heartbeat is missed for 4 µs: by both the other Dome and the Meridian, the Dome is lost; by the other Dome alone, the Dome–Dome link is. -/
def State.missBeat (s : State) (d : DomeId) (byPeer byMerid : Bool) : State :=
  if s.dieLost[Die.ofDome d] ∨ (!byPeer && !byMerid) then s
  else
    let s := (s.reachTime (s.beats[d].sent + 4 * qUs)).updBeat d (fun x => { x with missedPeer := x.missedPeer || byPeer, missedMerid := x.missedMerid || byMerid })
    if s.beats[d].missedPeer && s.beats[d].missedMerid then s.loseDome d
    else if s.beats[d].missedPeer then s.loseLink linkDomes
    else s

/-! ### Rail monitors (R442) -/

/-- A monitor trips on a rail of a die: a Lamp's DAC cells switch off and it is lost; a Dome or a Meridian is lost; VDD_AON, as both Meridians see it, is a full reset. -/
def State.railTrips (s : State) (die : Die) (rail : Fin 12) : State :=
  if h : 4 ≤ die.val then
    let n : LampId := ⟨die.val - 4, by have := die.isLt; omega⟩
    (s.updPower (fun p => { p with dac := p.dac.set n false, litOnce := p.litOnce.set n false })).loseLamp n
  else if h : 2 ≤ die.val then s.loseDome ⟨die.val - 2, by omega⟩
  else if rail.val = 0 then s.fullReset false
  else s.loseMerid ⟨die.val, by omega⟩

/-! ### The commands -/

def execHeartbeatSend (d : DomeId) (s : State) : Host.Outcome State Fault Refusal := s.act [Die.ofDome d] (·.sendBeat d)
def execHeartbeatMissed (d : DomeId) (byPeer byMerid : Bool) (s : State) : Host.Outcome State Fault Refusal := s.act [Die.ofDome (twin d)] (·.missBeat d byPeer byMerid)
def execMeridianLost (m : MerId) (s : State) : Host.Outcome State Fault Refusal := .next (s.loseMerid m)
def execRailMonitorTrip (die : Die) (rail : Fin 12) (s : State) : Host.Outcome State Fault Refusal := s.act [die] (·.railTrips die rail)
def execDieHeartbeatMissed (n : LampId) (s : State) : Host.Outcome State Fault Refusal := s.act [Die.ofMerid s.leader] (·.loseLamp n)

end Sys2Proof.Machine
end

