-- ==== Sys2Proof/Machine/Orrery.lean ====
section
/-! DEFINITION. Keeper engines: the ALU, conditions, microwords, faults, the release buffer, units and the store scrub (spec 10_orrery.md R256 to R277). -/
namespace Sys2Proof.Machine
open Sys2Proof

/-! ### The ALU (R262) -/

/-- The flags of an engine. -/
structure AluFlags where
  zero  : Bool
  neg   : Bool
  carry : Bool
deriving DecidableEq, Repr

/-- The result of an operation that has one; `v` is the value of SEXT from bit −1, which the spec leaves open. -/
def aluResult (op : Nat) (a b v : QWord) : Option QWord :=
  match op with
  | 1 => some b
  | 2 => some (a + b)
  | 3 => some (a - b)
  | 4 => some (a &&& b)
  | 5 => some (a ||| b)
  | 6 => some (a ^^^ b)
  | 7 => some (a <<< (b.toNat % 64))
  | 8 => some (a >>> (b.toNat % 64))
  | 9 => some (a.sshiftRight (b.toNat % 64))
  | 10 => some (let n := b.toNat % 64; if n = 0 then v else BitVec.ofInt 64 (toSigned n (a.toNat % 2 ^ n)))
  | 11 => some (if a.slt b then a else b)
  | 12 => some (if a.slt b then b else a)
  | 13 => some (BitVec.ofInt 64 (toSigned 32 (a.toNat % 2 ^ 32) * toSigned 32 (b.toNat % 2 ^ 32)))
  | 14 => some (a - b)
  | _ => none

/-- The flags of a result. CARRY of ADD is the carry out; of the other operations the spec states none: it is `v`'s first bit. -/
def aluFlags (op : Nat) (a b r v : QWord) : AluFlags :=
  ⟨r == 0, r.msb, if op = 2 then decide (2 ^ 64 ≤ a.toNat + b.toNat) else v.getLsbD 0⟩

/-- The ALU of a word on the G registers and flags as the word found them: the registers and flags after it. CMP has no result register; flags are set with FLAGS_WR only. -/
def aluStep (w : Microword) (g : Vector QWord 16) (old : AluFlags) (v : QWord) : Vector QWord 16 × AluFlags :=
  let a := g[mwSrcA w]
  let b := if mwBImm w then BitVec.ofNat 64 (mwImm w) else g[mwSrcB w]
  match aluResult (mwAlu w) a b v with
  | none => (g, old)
  | some r => (if mwAlu w = 14 then g else g.set (mwDst w) r, if mwFlagsWr w then aluFlags (mwAlu w) a b r v else old)

/-- A G register by its number. -/
def gAt (g : Vector QWord 16) (n : Nat) : QWord := g[Fin.ofNat 16 n]
/-- The registers with one written. -/
def gSet (g : Vector QWord 16) (n : Nat) (v : QWord) : Vector QWord 16 := g.set (Fin.ofNat 16 n) v

/-! ### Stores (R276, R277) -/

/-- The upkeep of an engine's store. -/
def State.careOf (s : State) : Sys2Proof.Engine → StoreCare
  | .channel c => s.engines[c].care
  | .keeper k => s.keepers[k].care
def State.setCare (s : State) (e : Sys2Proof.Engine) (x : StoreCare) : State :=
  match e with
  | .channel c => s.updEngine c (fun y => { y with care := x })
  | .keeper k => s.updKeeper k (fun y => { y with care := x })
/-- Words of a store (R256). -/
def storeWords : Sys2Proof.Engine → Nat
  | .channel _ => 8192
  | .keeper _ => 16384
/-- The number of an engine in the ledger's record of a repair (R404): channel engines, then keepers. -/
def engineNum : Sys2Proof.Engine → Nat
  | .channel c => c.val
  | .keeper k => 16 + k.val
def engineDie : Sys2Proof.Engine → Die
  | .channel c => Die.ofLamp (lampOf c)
  | .keeper k => Die.ofDome (domeOfKeeper k)

/-- A single-bit error is corrected and counted. -/
def State.storeCorrected (s : State) (e : Sys2Proof.Engine) : State :=
  match e with
  | .channel c => (s.bump (.oryCorr c) ORY_CORR.COUNT).raise (.oryStatus c) ORY_STATUS.CORR
  | .keeper k => (s.bump (.kprCorr k) KPR_CORR.COUNT).raise (.kprStatus k) KPR_STATUS.STORE_CORR

/-- A word is mapped onto the next spare word and recorded in the ledger; with no spare left it is rewritten in place. -/
def State.storeRepair (s : State) (e : Sys2Proof.Engine) (word : Nat) : State :=
  let x := s.careOf e
  let n := x.repairs.length
  if n < 64 then
    let s := (s.setCare e { x with repairs := x.repairs ++ [(word, n)], before := x.before.filter (· ≠ word), now := x.now.filter (· ≠ word) }).logLedger 2 (engineDie e).val (engineNum e) (word * 0x40 + n)
    match e with
    | .channel c => ((s.setFld (.oryState c) ORY_STATE.SPARES (n + 1)).raise (.oryStatus c) ORY_STATUS.REPAIR).publish (.storeFault (lampOf c)) 2
    | .keeper k => (s.setFld (.kprCorr k) KPR_CORR.SPARES (n + 1)).raise (.kprStatus k) KPR_STATUS.STORE_REPAIR
  else match e with
    | .channel c => s.raise (.oryStatus c) ORY_STATUS.SPARES_OUT
    | .keeper k => s.raise (.kprStatus k) KPR_STATUS.SPARES_OUT

/-- The scrub reads a word: an error is corrected, or the word repaired where the pass before corrected it too or the error is beyond correction; the last word of a store ends a pass. -/
def State.scrubWord (s : State) (e : Sys2Proof.Engine) (word : Nat) (ecc : Ecc) : State :=
  if storeWords e ≤ word then s
  else
    let s := match ecc with
      | .clean => s
      | .single =>
        let s := s.storeCorrected e
        let x := s.careOf e
        if word ∈ x.before then s.storeRepair e word else s.setCare e { x with now := if word ∈ x.now then x.now else x.now ++ [word] }
      | .double => (match e with | .channel c => s.setFld (.oryFault c) ORY_FAULT.WORD word | .keeper _ => s).storeRepair e word
    if word + 1 = storeWords e then let x := s.careOf e; s.setCare e { x with before := x.now, now := [] } else s

/-! ### Runs of a keeper (R266 to R271) -/

/-- The routine of the running input. -/
def State.runningRoutine (s : State) (k : KeeperId) : Nat := match s.keepers[k].input with | some i => s.boundRoutine k i | none => 0

/-- A routine completes: its input is no longer busy. -/
def State.routineEnds (s : State) (k : KeeperId) (i : Fin 16) : State :=
  let s := s.updKeeper k (fun x =>
    { x with input := none, stack := [], committed := false, waitEnd := none, buffer := [], releasing := false, access := none, tries := x.tries.set i 0, losses := x.losses.set i 0 })
  s.setFld (.bcnConsStat (inputIx k i)) BCN_CONSi_STAT.BUSY 0

/-- A routine fails: EN clears, the failure is published with its code, and the input stays idle until EN is written (R270). -/
def State.routineFails (s : State) (k : KeeperId) (i : Fin 16) (code : Nat) : State :=
  let s := (s.discardRun k).routineEnds k i
  let s := ((s.raise (.kprBind k i) KPR_BINDi.FAILED).setFld (.kprBind k i) KPR_BINDi.EN 0).raise (.kprStatus k) KPR_STATUS.FAILED
  s.publish (.keep k) code

/-- Faults that restart a routine: STORE_ECC, REG_TIMEOUT and DMA_ERROR. -/
def transient (code : Nat) : Bool := code == 1 || code == 2 || code == 4

/-- A fault abandons the running routine, which is counted (R267, R270, R285): a transient one restarts it, up to RETRY times in a row; any other fails it. -/
def State.keeperFault (s : State) (k : KeeperId) (code : Nat) : State :=
  match s.keepers[k].input with
  | none => s
  | some i =>
    let r := Reg.kprFault k
    let s := ((s.setFld r KPR_FAULT.ROUTINE (s.boundRoutine k i)).setFld r KPR_FAULT.INPUT i.val).setFld r KPR_FAULT.CODE code
    let s := s.setFld r KPR_FAULT.WORD s.keepers[k].word
    let s := (s.raise (.kprStatus k) KPR_STATUS.ABANDONED).bump (.kprAbandons k) KPR_ABANDONS.COUNT
    if transient code ∧ s.keepers[k].tries[i] < s.fld (.kprCtrl k) KPR_CTRL.RETRY then
      ((s.discardRun k).updKeeper k (fun x => { x with input := none, tries := x.tries.set i (x.tries[i] + 1) })).bump (.kprRestarts k) KPR_RESTARTS.COUNT
    else s.routineFails k i code

/-- The input that starts next: the lowest busy one; those bound to owner routines wait while an owner image is replaced (R266, R273). -/
def State.nextInput (s : State) (k : KeeperId) : Option (Fin 16) :=
  (List.finRange 16).find? (fun i => s.inputBusy (inputIx k i) && !s.ownerHeld k i)

/-- A keeper with no routine running starts that of its lowest busy input from its entry word; a routine with no valid entry is an invalid operation. -/
def State.startRoutine (s : State) (k : KeeperId) : State :=
  if s.keepers[k].input.isSome ∨ ¬ s.keeperUp k then s
  else match s.nextInput k with
    | none => s
    | some i =>
      let e := s.routineOf k (s.boundRoutine k i)
      let s := s.updKeeper k (fun x => { x with input := some i, word := e.word, stack := [], committed := false, waitEnd := none, buffer := [], releasing := false, access := none, began := s.clock.now })
      if e.valid then s else s.keeperFault k 9

/-! ### Outward effects (R265, R268, R275, R320) -/

/-- The register an address of BAR0 names, itself or through an alias. -/
def namedReg (a : Nat) : Option Reg :=
  match bar0Of a with
  | .reg r => some r
  | .aliasLo r => some r
  | .aliasHi r => some r
  | _ => none

/-- A register that an owner routine may not write (R275). -/
def ownerDenied (a : Nat) : Bool :=
  match namedReg a with
  | some r => (match r with
    | .ext .secStatus => true | .ext .secFloors => true | .ext .secOwnerFloor => true | .ext .secHatch => true | .ext (.secOwnerHash _) => true | .ext (.secAttHash _) => true
    | .ext (.secAttKey _) => true | .glob (.featAccept _) => true | .kprBind _ i => decide (i.val < 4) | .kprCtrl _ => true
    | .oryState _ => true | .oryStatus _ => true | .oryCorr _ => true | .oryRecoveries _ => true | .oryRecovGran _ => true | .oryFault _ => true
    | _ => false)
  | none => false

/-- A plate address is one the bank has (R320). -/
def plateAddrOk (a : QWord) : Bool :=
  let n := a.toNat
  decide (n < 2 ^ 28) && n % 8 == 0 && decide (bitsOf n 24 3 < 6) && decide (n % 2 ^ 24 < bankBytes (Fin.ofNat 6 (bitsOf n 24 3)))
/-- It lies in the keeper's own PB3 scratch. -/
def plateScratch (a : QWord) : Bool := bitsOf a.toNat 24 4 == 3

/-- The Dome a plate address names. -/
def plateDome (k : KeeperId) (a : QWord) : DomeId := if bitOf a.toNat 27 then twin (domeOfKeeper k) else domeOfKeeper k
def plateBank (a : QWord) : BankId := Fin.ofNat 6 (bitsOf a.toNat 24 3)
def plateWordNo (a : QWord) : Nat := a.toNat % 2 ^ 24 / 8
/-- A keeper reaches it. -/
def State.plateReached (s : State) (k : KeeperId) (a : QWord) : Bool :=
  s.domainOn (domPlate (plateDome k a)) && (!bitOf a.toNat 27 || s.linkWorks linkDomes)

/-- A keeper's access to a plate bank: the owner's port on its own PB3, a visitor's elsewhere (R319, R320). What commands read is not changed. -/
def State.keeperPlate (s : State) (k : KeeperId) (a : QWord) (x : PlateAccess) : State :=
  let d := plateDome k a
  let own := plateScratch a
  let s' := s.plateAccess d (plateBank a) (if own then x else .none) (if own then .none else x) (if bitOf a.toNat 27 then .otherKeeper else .keeper) .clean
  { s' with resp := s.resp }

/-- A write to a BAR0 address by a keeper, and whether it took place. -/
def State.keeperWrite (s : State) (k : KeeperId) (a : Nat) (half : Option Bool) (v : Word) : State × Bool :=
  let go := fun (r : Reg) (mask x : Word) => (s.windowWrite (.keeper k) (a % 0x800000 + (if a < 0x1000000 then a / 0x800000 * 0x800000 else 0)) r mask x, s.windowUp r.addr)
  match bar0Of a, half with
  | .reg r, none => go r 0xFFFFFFFF v
  | .reg r, some h => go r (halfMask h v) (halfValue h v)
  | .aliasLo r, _ => go r (halfMask false v) (halfValue false v)
  | .aliasHi r, _ => go r (halfMask true v) (halfValue true v)
  | _, _ => (s, false)

/-- A descriptor of a ring is consumed: its consumer index advances. -/
def State.consumeRing (s : State) (r : Nat) : State :=
  let q : RingId := Fin.ofNat 64 r
  let x := s.host.drings[q]
  if r < 64 ∧ x.up ∧ x.began.isNone ∧ x.fetched ≠ [] then s.updDring q (fun y => { y with cons := (y.cons + 1) % 2 ^ 64, fetched := y.fetched.drop 1 }) else s

/-! ### DMA and ring reports (R18, R264, R320, R349) -/

/-- A DMA address names a plate bank: it has the form of R320. Of other addresses the spec gives no form; they move nothing the model holds (DESIGN CHOICE, log entry 13). -/
def dmaPlate (a : QWord) : Bool := decide (a.toNat < 2 ^ 28)
/-- The bytes from a plate address lie in one bank. -/
def plateSpan (a : QWord) (n : Nat) : Bool := dmaPlate a && decide (bitsOf a.toNat 24 3 < 6) && decide (a.toNat % 2 ^ 24 + n ≤ bankBytes (Fin.ofNat 6 (bitsOf a.toNat 24 3)))
/-- The bytes, and whether none of their words is in error beyond correction. -/
def State.dmaBytes (s : State) (k : KeeperId) (a : QWord) (n : Nat) : Option (List Byte) :=
  let x := s.plate[plateDome k a][plateBank a]
  let o := a.toNat % 2 ^ 24
  if plateSpan a n ∧ s.plateReached k a ∧ ¬ x.double.any (fun w => decide (o < 8 * w + 8 ∧ 8 * w < o + n)) then some (Memory.read x.cells o n) else none
/-- Bytes are written from a plate address, the check bits of their words formed anew; a region under test there is restored first. -/
def State.dmaStore (s : State) (k : KeeperId) (a : QWord) (bs : List Byte) : State :=
  let d := plateDome k a
  let b := plateBank a
  let o := a.toNat % 2 ^ 24
  let touched := fun (w : Nat) => decide (o < 8 * w + 8 ∧ 8 * w < o + bs.length)
  let region := s.fld (.pbbState d b) PBb_STATE.REGION
  let s := if s.isSet (.pbbState d b) PBb_STATE.TESTING ∧ o < 4096 * region + 4096 ∧ 4096 * region < o + bs.length then s.forceRestore d b else s
  s.updBank d b (fun x => { x with cells := Memory.write x.cells o bs, single := x.single.filter (fun w => !touched w), double := x.double.filter (fun w => !touched w) })
/-- A write of DMA to a plate address, to the same place of both Domes where it is mirrored (R18), and whether it did not fail. -/
def State.dmaWrite (s : State) (k : KeeperId) (a : QWord) (bs : List Byte) (mirror : Bool) : State × Bool :=
  let a' := a ^^^ 0x8000000
  if plateSpan a bs.length ∧ s.plateReached k a ∧ (mirror → s.plateReached k a') then
    let s := s.dmaStore k a bs
    (if mirror then s.dmaStore k a' bs else s, true)
  else (s, false)
/-- COPY and COPY_MIRROR. -/
def State.dmaCopy (s : State) (k : KeeperId) (src dst n : Nat) (mirror : Bool) : State × Bool :=
  let a := BitVec.ofNat 64 src
  let b := BitVec.ofNat 64 dst
  if ¬ dmaPlate a ∨ ¬ dmaPlate b then (s, true)
  else match s.dmaBytes k a n with
    | some bs => s.dmaWrite k b bs mirror
    | none => (s, false)
/-- FILL: the eight bytes of the value, lowest first, again and again (DESIGN CHOICE, log entry 13). -/
def State.dmaFill (s : State) (k : KeeperId) (value dst n : Nat) : State × Bool :=
  let b := BitVec.ofNat 64 dst
  if ¬ dmaPlate b then (s, true) else s.dmaWrite k b ((List.range n).map (fun i => BitVec.ofNat 8 (value / 2 ^ (8 * (i % 8))))) false

/-- The report at a PB0 address of the keeper's Dome is posted (R264, R349): PHASE and STAMP are the part's; its ring is the default report ring of the dispatch ring it names (DESIGN CHOICE, log entry 13). -/
def State.postFrom (s : State) (k : KeeperId) (a : Nat) : State × Bool :=
  let cells := s.plate[domeOfKeeper k][(0 : BankId)].cells
  let w := fun (i : Nat) => Memory.readLE cells (a % 2 ^ 24 + 8 * i) 8
  let d : RingId := Fin.ofNat 64 (w 1)
  let r : RingId := if d = 0 then Fin.ofNat 64 (s.fld (.glob .dring0Cfg) DRING0_CFG.DEF_RRING) else s.host.drings[d].defReport
  if a % 2 ^ 24 + 32 ≤ bankBytes 0 ∧ s.host.rrings[r].up then
    (s.queueReport r ⟨BitVec.ofNat 8 (w 0), bitOf (w 0) 9, Fin.ofNat 2 (bitsOf (w 0) 10 1), bitsOf (w 0) 16 16, BitVec.ofNat 32 (bitsOf (w 0) 32 32), d, bitsOf (w 1) 16 16, bitsOf (w 1) 32 16,
      BitVec.ofNat 64 (w 2), false⟩, true)
  else (s, false)

/-- An outward effect is performed, and whether it did not fail. -/
def State.perform (s : State) (k : KeeperId) : Outward → State × Bool
  | .regWrite a v => s.keeperWrite k a none v
  | .regMasked a v => s.keeperWrite k a (some false) v
  | .plateWrite a v => if s.plateReached k a then (s.keeperPlate k a (.write (plateWordNo a) v 0xFF), true) else (s, false)
  | .plateAdd a v => if s.plateReached k a then (s.keeperPlate k a (.add64 (plateWordNo a) v), true) else (s, false)
  | .copy src dst n => s.dmaCopy k src dst n false
  | .copyMirror src dst n => s.dmaCopy k src dst n true
  | .fill v dst n => s.dmaFill k v dst n
  | .consume r => (s.consumeRing r, true)
  | .post a => s.postFrom k a
  | .publish idx info => (s.publishOn (.keep k) (Fin.ofNat 256 (s.fld (.kprPub k (Fin.ofNat 16 idx)) KPR_PUBp.CH)) info.toNat none, true)

/-- Outward effects of a word, in order: performed at once before the commit point, buffered from it on; the 65th is a fault RELEASE_FULL. The code of the fault, 0 for none. -/
def State.issueAll (k : KeeperId) (committed : Bool) : List Outward → State → State × Nat
  | [], s => (s, 0)
  | o :: rest, s =>
    if ¬ committed then State.issueAll k committed rest (s.perform k o).1
    else if 64 ≤ s.keepers[k].buffer.length then (s, 6)
    else State.issueAll k committed rest (s.updKeeper k (fun x => { x with buffer := x.buffer ++ [o] }))

/-! ### A keeper word (R258 to R268) -/

/-- The owner routines' checks at issue, and those of plate addresses and of the publish mask: the code of the fault, 0 for none. -/
def State.wordFault (s : State) (k : KeeperId) (w : Microword) (g : Vector QWord 16) : Nat :=
  let n := s.runningRoutine k
  let owner := decide (192 ≤ n)
  let regOp := mwBits w 112 4
  let pbOp := mwBits w 120 4
  let dma := mwBits w 104 4
  let dmaReg := mwBits w 108 4
  let n3 := max 1 (gAt g (dmaReg + 2)).toNat
  let touches := fun (a : QWord) => dmaPlate a && (List.range 2).any (fun d => decide (a.toNat < d * 2 ^ 27 + 3 * 2 ^ 24 + bankBytes 3 ∧ d * 2 ^ 27 + 3 * 2 ^ 24 < a.toNat + n3))
  if ¬ keeperWordOk w ∨ (owner ∧ (mwBits w 135 4 ≠ 0 ∨ mwBits w 143 3 ≠ 0)) then 9
  else if owner ∧ (regOp = 2 ∨ regOp = 3) ∧ ownerDenied (gAt g (mwBits w 116 4)).toNat then 3
  else if owner ∧ dma ≠ 0 ∧ (touches (gAt g (dmaReg + 1)) ∨ (dma ≠ 3 ∧ touches (gAt g dmaReg))) then 3
  else if pbOp ≠ 0 ∧ ¬ plateAddrOk (gAt g (mwBits w 124 4)) then 9
  else if mwBits w 128 3 = 1 ∧ ¬ bitOf (s.routineOf k n).mask (mwBits w 131 4) then 5
  else 0

/-- The outward effects of a word, in the order RING, DMA, REG, PB, PUBLISH (DESIGN CHOICE, log entry 22: the spec gives no order within a word). Plate writes to the keeper's own scratch are none. -/
def wordOutward (w : Microword) (g : Vector QWord 16) (routine : Nat) : List Outward :=
  let ring := mwBits w 100 4
  let dma := mwBits w 108 4
  let reg := mwBits w 116 4
  let pb := mwBits w 124 4
  let n := fun (i : Nat) => (gAt g i).toNat
  (match mwBits w 96 4 with | 2 => [Outward.consume (n ring)] | 3 => [Outward.post (n ring)] | _ => [])
  ++ (match mwBits w 104 4 with
    | 1 => [Outward.copy (n dma) (n (dma + 1)) (n (dma + 2))]
    | 2 => [Outward.copyMirror (n dma) (n (dma + 1)) (n (dma + 2))]
    | 3 => [Outward.fill (n dma) (n (dma + 1)) (n (dma + 2))]
    | _ => [])
  ++ (match mwBits w 112 4 with
    | 2 => [Outward.regWrite (n reg) ((gAt g (reg + 1)).setWidth 32)]
    | 3 => [Outward.regMasked (n reg) ((gAt g (reg + 1)).setWidth 32)]
    | _ => [])
  ++ (if plateScratch (gAt g pb) then []
    else match mwBits w 120 4 with
      | 2 => [Outward.plateWrite (gAt g pb) (gAt g (pb + 1))]
      | 3 => [Outward.plateAdd (gAt g pb) (gAt g (pb + 1))]
      | _ => [])
  ++ (if mwBits w 128 3 = 1 then [Outward.publish (mwBits w 131 4) (BitVec.ofNat 32 (routine % 256 + mwImm w % 2 ^ 24 * 2 ^ 8))] else [])

/-- The units of a word that act at once: a read or poll begins, the conditions of the units it names fall, scratch is written, a descriptor is fetched. -/
def State.beginUnits (s : State) (k : KeeperId) (w : Microword) (g : Vector QWord 16) : State :=
  let ring := mwBits w 100 4
  let reg := mwBits w 116 4
  let pb := mwBits w 124 4
  let a := gAt g pb
  let access : Option RegAccess := match mwBits w 112 4 with
    | 1 => some ⟨(gAt g reg).toNat, reg, false, 0, 0⟩
    | 4 => some ⟨(gAt g reg).toNat, reg, true, gAt g (reg + 1), gAt g (reg + 2)⟩
    | _ => none
  let s := s.updKeeper k (fun x =>
    { x with
      access := if mwBits w 112 4 = 0 then x.access else access
      regDone := x.regDone && mwBits w 112 4 == 0
      regMatch := x.regMatch && mwBits w 112 4 == 0
      dmaDone := x.dmaDone && mwBits w 104 4 == 0
      plateDone := x.plateDone && mwBits w 120 4 == 0 })
  let s := if mwBits w 96 4 = 1 ∧ (gAt g ring).toNat < 64 then State.fetchAhead (Fin.ofNat 64 (gAt g ring).toNat) 1 s else s
  let s := if mwBits w 143 3 = 1 then let (v, s) := s.fresh; s.updKeeper k (fun x => { x with txnPass := v.getLsbD 0 }) else s
  if ¬ plateScratch a then s
  else match mwBits w 120 4 with
    | 2 => s.keeperPlate k a (.write (plateWordNo a) (gAt g (pb + 1)) 0xFF)
    | 3 => s.keeperPlate k a (.add64 (plateWordNo a) (gAt g (pb + 1)))
    | _ => s

/-- The descriptor fetched last on a ring is written into PB0 of the keeper's Dome (R264). -/
def State.descToPlate (s : State) (k : KeeperId) (r : RingId) (a : Nat) : State :=
  let x := s.host.drings[r]
  if x.fetched = [] then s
  else
    let i := x.cons + (if x.began.isSome then 1 else 0) + x.fetched.length - 1
    s.dmaStore k (BitVec.ofNat 64 a) (s.hostRead (x.base + i % 2 ^ x.log2 * 64) 64)

/-- What the units of a word write into G registers when it ends: the PB0 address of the descriptor fetched, a 64-byte place that the spec does not give, and a plate word read. -/
def State.unitWrites (s : State) (k : KeeperId) (w : Microword) (g : Vector QWord 16) : List (Nat × QWord) × State :=
  let pb := mwBits w 124 4
  let a := gAt g pb
  let ring := mwBits w 100 4
  let word := if mwBits w 120 4 = 1 then [(pb + 1, s.plateWord (plateDome k a) (plateBank a) (plateWordNo a))] else []
  if mwBits w 96 4 = 1 then
    let (v, s) := s.fresh
    let at_ := v.toNat % (bankBytes 0 / 64) * 64
    let s := if (gAt g ring).toNat < 64 then s.descToPlate k (Fin.ofNat 64 (gAt g ring).toNat) at_ else s
    ((ring + 1, BitVec.ofNat 64 at_) :: word, s)
  else (word, s)

/-- A plate word that a word reads is in error beyond correction. -/
def State.plateBad (s : State) (k : KeeperId) (w : Microword) (g : Vector QWord 16) : Bool :=
  let a := gAt g (mwBits w 124 4)
  mwBits w 120 4 == 1 && s.wordEcc (plateDome k a) (plateBank a) (plateWordNo a) .clean == .double

/-- A condition of a keeper (R261); `flags` and `ring` are the flags and the ring register as the word found them. -/
def State.keeperCond (s : State) (k : KeeperId) (code ring : Nat) (flags : AluFlags) : Bool :=
  let x := s.keepers[k]
  let r : RingId := Fin.ofNat 64 ring
  match code with
  | 0 => true
  | 1 => flags.zero
  | 2 => flags.neg
  | 3 => flags.carry
  | 4 => x.regDone
  | 5 => x.regMatch
  | 6 => x.dmaDone
  | 7 => x.plateDone
  | 8 => decide (ring < 64) && s.host.drings[r].up && s.host.drings[r].prod != s.host.drings[r].cons
  | 9 => decide (ring < 64) && s.host.rrings[r].up && !s.rringFull r 0
  | 10 => x.txnPass
  | n => decide (16 ≤ n ∧ n ≤ 31) && s.inputPending (inputIx k (Fin.ofNat 16 (n - 16)))

/-- The condition of the word a WAIT is held at. -/
def State.waitHolds (s : State) (k : KeeperId) (w : Microword) : Bool :=
  let x := s.keepers[k]
  s.keeperCond k (mwCond w) (gAt x.g (mwBits w 100 4)).toNat ⟨x.zero, x.neg, x.carry⟩ != mwCondNeg w

/-- The engine goes on at a word. -/
def State.goTo (s : State) (k : KeeperId) (word : Nat) : State := s.updKeeper k (fun x => { x with word := word % 16384, waitEnd := none })

/-- END: the release buffer starts releasing; with none the routine completes (R268). -/
def State.endRoutine (s : State) (k : KeeperId) : State :=
  match s.keepers[k].input with
  | none => s
  | some i => if s.keepers[k].buffer = [] then s.routineEnds k i else s.updKeeper k (fun x => { x with releasing := true, access := none })

/-- SEQ at the end of a word that was issued at time `t0` (R258 to R260): a CALL at depth 8 and a RETURN at depth 0 are faults STACK. -/
def State.sequence (s : State) (k : KeeperId) (w : Microword) (g : Vector QWord 16) (flags : AluFlags) (t0 : Nat) : State :=
  let x := s.keepers[k]
  match mwSeq w with
  | 0 => s.goTo k (x.word + 1)
  | 1 => s.goTo k (mwTarget w)
  | 2 => s.goTo k (if s.keeperCond k (mwCond w) (gAt g (mwBits w 100 4)).toNat flags != mwCondNeg w then mwTarget w else x.word + 1)
  | 3 => if 8 ≤ x.stack.length then s.keeperFault k 8 else (s.updKeeper k (fun x => { x with stack := (x.word + 1) % 16384 :: x.stack })).goTo k (mwTarget w)
  | 4 => match x.stack with
    | [] => s.keeperFault k 8
    | a :: rest => (s.updKeeper k (fun x => { x with stack := rest })).goTo k a
  | 5 => s.updKeeper k (fun x => { x with waitEnd := some (t0 + mwTimeout w) })
  | 6 => s.endRoutine k
  | _ => s.keeperFault k 9

/-- One core cycle of a keeper in q (R256, R220). -/
def qCore : Nat := 5120

/-- A word of the running routine (R259): its units act, it occupies the engine for CYCLES core cycles, its registers and flags are written, and SEQ decides what comes next. -/
def State.runWord (s : State) (k : KeeperId) (w : Microword) : State :=
  let x := s.keepers[k]
  let g := x.g
  let flags : AluFlags := ⟨x.zero, x.neg, x.carry⟩
  let t0 := s.clock.now
  let code := s.wordFault k w g
  if code ≠ 0 then s.keeperFault k code
  else if s.plateBad k w g then s.keeperFault k 4
  else
    let committed := x.committed || mwCommit w
    let s := (s.updKeeper k (fun x => { x with committed := committed })).beginUnits k w g
    let (s, full) := State.issueAll k committed (wordOutward w g (s.runningRoutine k)) s
    if full ≠ 0 then s.keeperFault k full
    else
      let (v, s) := s.fresh
      let (g', flags') := aluStep w g flags v
      let (writes, s) := s.unitWrites k w g
      let s := s.reachTime (t0 + mwCycles w * qCore)
      let s := s.updKeeper k (fun x => { x with g := writes.foldl (fun a (p : Nat × QWord) => gSet a p.1 p.2) g', zero := flags'.zero, neg := flags'.neg, carry := flags'.carry })
      s.sequence k w g flags t0

/-- The shadow thread reads a word of its own, which the spec does not give, while the task thread runs none: a word in error is corrected, or repaired and read again, and the thread continues without
loss (R277). -/
def State.shadowWord (s : State) (k : KeeperId) (ecc : Ecc) : State :=
  match ecc with
  | .clean => s
  | .single => s.storeCorrected (.keeper k)
  | .double => let (v, s) := s.fresh; s.storeRepair (.keeper k) (v.toNat % 12288)

/-- A keeper reads the next word of its routine and runs it; a word in error beyond correction is repaired, and the routine faults with STORE_ECC (R277). -/
def State.keeperStep (s : State) (k : KeeperId) (ecc : Ecc) : State :=
  let x := s.keepers[k]
  if ¬ s.keeperUp k then s
  else if x.input.isNone ∨ x.releasing ∨ x.waitEnd.isSome then s.shadowWord k ecc
  else match ecc with
    | .double => (s.storeRepair (.keeper k) x.word).keeperFault k 1
    | .single => let (w, s) := (s.storeCorrected (.keeper k)).keeperWord k x.word; s.runWord k w
    | .clean => let (w, s) := s.keeperWord k x.word; s.runWord k w

/-! ### The end of a WAIT, of a release and of a unit's operation -/

/-- The condition of a WAIT holds before its timeout: the next word. -/
def State.waitMet (s : State) (k : KeeperId) : State :=
  match s.keepers[k].waitEnd with
  | none => s
  | some t =>
    let (w, s) := s.keeperWord k s.keepers[k].word
    if s.clock.now ≤ t ∧ s.waitHolds k w then s.goTo k (s.keepers[k].word + 1) else s

/-- A WAIT times out: TARGET, with TIMEOUT; a condition that holds in the cycle of the timeout wins. -/
def State.waitExpires (s : State) (k : KeeperId) : State :=
  match s.keepers[k].waitEnd with
  | none => s
  | some t =>
    let (w, s) := (s.reachTime t).keeperWord k s.keepers[k].word
    if s.waitHolds k w then s.goTo k (s.keepers[k].word + 1) else (s.goTo k (mwTarget w)).raise (.kprStatus k) KPR_STATUS.TIMEOUT

/-- The buffer is released in issue order; a write that fails is dropped and counted; the routine completes (R268). -/
def State.released (s : State) (k : KeeperId) : State :=
  match s.keepers[k].releasing, s.keepers[k].input with
  | true, some i =>
    let s := s.keepers[k].buffer.foldl (fun (s : State) (o : Outward) => let (s, ok) := s.perform k o; if ok then s else s.raise (.kprStatus k) KPR_STATUS.RELEASE_DROP) s
    s.routineEnds k i
  | _, _ => s

/-- An owner routine has run for MAX_RUN (R271). -/
def State.runTooLong (s : State) (k : KeeperId) : State :=
  let x := s.keepers[k]
  let max := s.fld (.kprCtrl k) KPR_CTRL.MAX_RUN
  if x.input.isSome ∧ ¬ x.releasing ∧ 192 ≤ s.runningRoutine k ∧ max ≠ 0 then (s.reachTime (x.began + max * qUs)).keeperFault k 7 else s

/-- A routine is running its words. -/
def State.keeperRuns (s : State) (k : KeeperId) : Bool := s.keepers[k].input.isSome && !s.keepers[k].releasing

/-- A register read of a keeper ends: its value goes to G. An address that nothing answers never completes. -/
def State.readEnds (s : State) (k : KeeperId) (a : RegAccess) : State :=
  match s.mapRead (.keeper k) a.addr with
  | (some v, s) => s.updKeeper k (fun x => { x with g := gSet x.g (a.reg + 1) (v.setWidth 64), regDone := true, access := none })
  | (none, s) => s

/-- A background operation of a keeper unit ends (R259, R270): 0 REG, 1 DMA, 2 PB, 3 RING. One that fails is a fault: REG_TIMEOUT of a register access, DMA_ERROR of the others. -/
def State.unitEnds (s : State) (k : KeeperId) (unit : Fin 4) (ok : Bool) : State :=
  if ¬ s.keeperRuns k then s
  else if ¬ ok then s.keeperFault k (if unit = 0 then 2 else 4)
  else match unit with
    | 0 => match s.keepers[k].access with
      | some a => if a.poll then s else s.readEnds k a
      | none => s.updKeeper k (fun x => { x with regDone := true })
    | 1 => s.updKeeper k (fun x => { x with dmaDone := true })
    | 2 => s.updKeeper k (fun x => { x with plateDone := true })
    | 3 => s

/-- A POLL reads its register again, and REG_MATCH follows (R264). -/
def State.pollReads (s : State) (k : KeeperId) : State :=
  match s.keepers[k].access with
  | some a =>
    if s.keeperRuns k ∧ a.poll then
      match s.mapRead (.keeper k) a.addr with
      | (some v, s) => s.updKeeper k (fun x => { x with regDone := true, regMatch := v.setWidth 64 &&& a.mask == a.want })
      | (none, s) => s
    else s
  | none => s

/-- A register access has no completion within 10 µs (R270). -/
def State.accessTimesOut (s : State) (k : KeeperId) : State := if s.keeperRuns k ∧ s.keepers[k].access.isSome then s.keeperFault k 2 else s

/-- The verified owner image is written once no owner routine runs (R273). -/
def State.ownerWritten (s : State) : State :=
  match s.ownerNew with
  | some x => if s.ownerRuns then s else s.installOwner x
  | none => s

/-! ### The commands -/

def keeperDies (k : KeeperId) : List Die := [Die.ofDome (domeOfKeeper k)]

def execRoutineStart (k : KeeperId) (s : State) : Host.Outcome State Fault Refusal := s.act (keeperDies k) (·.startRoutine k)
def execReleaseDone (k : KeeperId) (s : State) : Host.Outcome State Fault Refusal := s.act (keeperDies k) (·.released k)
def execWaitConditionMet (k : KeeperId) (s : State) : Host.Outcome State Fault Refusal := s.act (keeperDies k) (·.waitMet k)
def execWaitTimeout (k : KeeperId) (s : State) : Host.Outcome State Fault Refusal := s.act (keeperDies k) (·.waitExpires k)
def execRunLimit (k : KeeperId) (s : State) : Host.Outcome State Fault Refusal := s.act (keeperDies k) (·.runTooLong k)
def execUnitOpComplete (k : KeeperId) (unit : Fin 4) (ok : Bool) (s : State) : Host.Outcome State Fault Refusal := s.act (keeperDies k) (·.unitEnds k unit ok)
def execRegPollRead (k : KeeperId) (s : State) : Host.Outcome State Fault Refusal := s.act (keeperDies k) (·.pollReads k)
def execRegTimeout (k : KeeperId) (s : State) : Host.Outcome State Fault Refusal := s.act (keeperDies k) (·.accessTimesOut k)
def execStoreScrubRead (e : Sys2Proof.Engine) (word : Nat) (ecc : Ecc) (s : State) : Host.Outcome State Fault Refusal := s.act [engineDie e] (·.scrubWord e word ecc)
def execOwnerImageWrite (s : State) : Host.Outcome State Fault Refusal := s.act [Die.domeA, Die.domeB] State.ownerWritten

end Sys2Proof.Machine
end

