-- ==== Sys2Proof/Machine/Shadow.lean ====
section
/-! DEFINITION. Reports of channel engines, the progress shadow, and the recovery of a channel (spec 10_orrery.md R277 to R283; 02_characteristics.md R54; 03_jumps_and_cutoffs.md R102). -/
namespace Sys2Proof.Machine
open Sys2Proof

/-! ### Reports (R54, R102, R279) -/

/-- The PROGRESS report of a channel that plays, 128 gc after the last. At the end of an iteration it waits for what follows it. -/
def State.progressNow (s : State) (c : ChanId) : State :=
  if s.chans[c].st ≠ .playing then s
  else
    let s := s.reachGranC c (s.chans[c].lastReport + 128)
    let x := s.chans[c]
    if s.walkPlace c = s.iterEnd c then s
    else
      let s := s.report c (.progress x.entry x.iter ((s.walkPlace c - x.iterStart) / 32) (s.playGran c) x.frames)
      s.updChan c (fun x => { x with lastReport := s.granC c })

/-! ### The shadow's own walk (R278, R279)

A walk sample is a sample of the channel's count less the samples of the pauses before it. -/

/-- The walk sample of sample `p`. -/
def Shadow.walkSample (x : Shadow) (p : Nat) : Nat := p - x.pauses.foldl (fun n q => n + (min p (q.upto.getD p) - q.first)) x.slid
/-- The first sample whose walk sample is `w`. -/
def Shadow.realSample (x : Shadow) (w : Nat) : Nat :=
  x.pauses.foldl (fun p q => match q.upto with | some b => if q.first < p then p + (b - q.first) else p | none => p) (w + x.slid)

/-- The place the shadow last reckoned. -/
def Shadow.pos (x : Shadow) : WalkPos := ⟨x.entry, x.iter, x.frames⟩
/-- Samples of an iteration of the entry the shadow stands in. -/
def Shadow.iterS (x : Shadow) : Nat := 32 * (x.table.entry x.entry).lenG

/-- The iteration of the natural path that holds walk sample `w`, and the walk sample it begins at; none where the path stops before it. -/
def pathHolds (t : Table) (w : Nat) : Nat → WalkPos → Nat → Option (WalkPos × Nat)
  | 0, _, _ => none
  | fuel + 1, pos, at_ =>
    if w < at_ + 32 * (t.entry pos.entry).lenG then some (pos, at_)
    else match pathStep t pos with
      | some pos' => pathHolds t w fuel pos' (at_ + 32 * (t.entry pos.entry).lenG)
      | none => none
/-- The shadow's place at a walk sample. -/
def Shadow.placeAt (x : Shadow) (w : Nat) : Option (WalkPos × Nat) := pathHolds x.table w ((w - x.iterAt) / 32 + 1) x.pos x.iterAt

/-- The sample at which a visit that ends in the report behind it is left: a jump's or a swap's take point. -/
def leftAt : List SentReport → Option Nat
  | ⟨.jump _ _ _ take _, _⟩ :: _ => some take
  | ⟨.swap _ take _, _⟩ :: _ => some take
  | _ => none

/-- The end of the visit the shadow stands in, and the iterations begun by then: at a take point, or where its repeats are done. An endless visit has no end of its own. -/
def Shadow.visitEnd (x : Shadow) (left : Option Nat) : Option (Nat × Nat) :=
  let n := (x.table.entry x.entry).repeats
  match left with
  | some p =>
    let w := x.walkSample p
    some (p, x.iter + (if x.realSample w < p then (w - x.iterAt) / max 1 x.iterS + 1 else ceilDiv (w - x.iterAt) (max 1 x.iterS)))
  | none => if n = 0 then none else some (x.realSample (x.iterAt + (n - x.iter) * x.iterS), n)

/-! ### Comparing (R280) -/

/-- A target can be held in the ready buffer: it needs no samples, or is on the ready list (R87). -/
def canBeHeld (t : Table) (i : Nat) : Bool := !memFormat (t.entry i).format || (t.readyEntries.take 8).contains i

/-- A take point is the first boundary of the shadow's walk 40 gc or more after granule `r` (R79). -/
def Shadow.boundaryFits (x : Shadow) (r take : Nat) : Bool :=
  let w := x.walkSample take
  let k := (w - x.iterAt) / max 1 x.iterS
  decide (x.iterAt < w) && decide ((w - x.iterAt) % max 1 x.iterS = 0) && decide (r + 40 ≤ take / 32) && decide (x.realSample (x.iterAt + (k - 1) * x.iterS) / 32 < r + 40)

/-- A take point follows from the registration (R79 to R99). In a group it can be that of the leader's own walk, of which a member's shadow knows the rules alone (DEDUCED, log entry 37); a TIMED one follows
from the stamp, and from the registration its on-time test (R85). -/
def Shadow.takeFits (x : Shadow) (grouped : Bool) (mode : JumpMode) (reg take target : Nat) : Bool :=
  let r := reg + (if grouped then 16 else 0)
  match mode with
  | .boundary => if grouped then decide (r + 40 ≤ take / 32) else x.boundaryFits r take
  | .granule => canBeHeld x.table target && decide (take = 32 * (r + 48))
  | .timed => decide (r + (if canBeHeld x.table target then 16 else 96) ≤ take / 32)

/-- A jump's target is that of its slot: in an entry the walk has been in since, or of a TIMED slot of any entry (R75). -/
def Shadow.mayJump (x : Shadow) (slot : Fin 4) (target : Nat) : Bool :=
  let names := fun (i : Nat) => slotEnable ((x.table.entry i).slot slot) && slotTarget ((x.table.entry i).slot slot) == target
  names x.entry || x.seen.any (fun v => names v.entry) || (List.range x.table.len).any (fun i => slotMode ((x.table.entry i).slot slot) == 2 && names i)

/-- The cause of R280 that a report gives against the shadow's copy of the walk, 0 for none; `rest` are the reports behind it. A frame stack that differs is a matter of the iterations left in it (DESIGN
CHOICE, log entry 138). -/
def Shadow.causeOf (x : Shadow) (grouped : Bool) (r : SentReport) (rest : List SentReport) : Nat :=
  match r.report with
  | .visit entry iters granules =>
    let n := (x.table.entry x.entry).repeats
    if entry ≠ x.entry then 1
    else match x.visitEnd (leftAt rest) with
      | none => 2
      | some (p, i) => if iters ≠ i ∨ (n ≠ 0 ∧ n < i) then 2 else if granules ≠ (p - x.visitAt) / 32 then 3 else 0
  | .jump slot mode reg take target => if !x.mayJump slot target then 1 else if x.takeFits grouped mode reg take target then 0 else 4
  | .progress entry iter goff played frames =>
    let w := x.walkSample (32 * played)
    match x.placeAt w with
    | none => 1
    | some (pos, at_) =>
      if entry ≠ pos.entry then 1 else if iter ≠ pos.iter ∨ frames ≠ pos.frames then 2 else if goff ≠ (w - at_) / 32 ∨ played ≠ r.sent - x.startGran then 3 else 0
  | .stop played => if x.ended then (if played ≠ x.visitAt / 32 then 3 else 0) else 1
  | .start _ _ _ => 0
  | .swap _ _ _ => 0

/-! ### Following (R278, R279) -/

/-- The shadow leaves a visit at sample `p`: the visit is one that a pending request can come from, and the pauses before `p` are over. -/
def Shadow.leave (x : Shadow) (p : Nat) : Shadow :=
  let done := fun (q : Pause) => decide (q.upto.getD (p + 1) ≤ p)
  { x with
    iterAt := x.walkSample p, visitAt := p, iter := 0, slid := (x.pauses.filter done).foldl (fun n q => n + (q.upto.getD q.first - q.first)) x.slid, pauses := x.pauses.filter (fun q => !done q)
    seen := (x.seen.filter (fun v => decide (x.visitAt ≤ v.stop + 32 * 4096))) ++ [⟨x.entry, x.visitAt, p, x.iterS⟩] }

/-- The shadow enters an entry. -/
def Shadow.enter (x : Shadow) (entry : Nat) (frames : List Frame) : Shadow :=
  { x with walks := true, ended := false, entry := entry, iter := 0, frames := (enterFrames (x.table.entry entry) false frames).getD frames }

/-- The shadow's walk after a report; `rest` are the reports behind it. -/
def Shadow.follow (x : Shadow) (r : SentReport) (rest : List SentReport) : Shadow :=
  match r.report with
  | .start entry _ t => { x with table := t, iterAt := 0, visitAt := 0, seen := [] }.enter entry []
  | .visit _ _ _ =>
    if (leftAt rest).isSome then x
    else match x.visitEnd none with
      | none => x
      | some (p, n) => match pathStep x.table ⟨x.entry, n - 1, x.frames⟩ with
        | some w => { x.leave p with entry := w.entry, frames := w.frames }
        | none => { x.leave p with ended := true }
  | .jump _ _ _ take target => (x.leave take).enter target x.frames
  | .swap entry take t => { x.leave take with table := t, seen := [] }.enter entry []
  | .stop _ => { x with walks := false }
  | .progress _ _ _ played _ => match x.placeAt (x.walkSample (32 * played)) with
    | some (w, at_) => { x with iter := w.iter, iterAt := at_ }
    | none => x

/-! ### What the shadow thread does -/

/-- Reports of a channel reach the Dome that shadows it: over the Lamp die's own link, or by the other Dome and the Dome–Dome link (R278). -/
def State.reportPath (s : State) (c : ChanId) (k : KeeperId) : Bool :=
  let d := domeOfKeeper k
  s.reaches (lampOf c) d || (s.reaches (lampOf c) (twin d) && !s.links[linkDomes].lost)

/-- A mismatch is declared: counted, recorded and published; the channel enters FAULT, and its recovery is asked for (R280, R281). -/
def State.declare (s : State) (c : ChanId) (cause : Nat) : State :=
  let s : State := match s.shadowOf c with
    | some k =>
      let r := Reg.kprShdStatus k
      let s := s.bump (.kprShdCount k) KPR_SHD_COUNT.COUNT
      let s := ((s.setFld r KPR_SHD_STATUS.CHANNEL c.val).setFld r KPR_SHD_STATUS.CAUSE cause).raise r KPR_SHD_STATUS.VALID
      s.publish (.shadow (domeOfKeeper k)) (s.rd r).toNat
    | none => s
  let s := s.updShadow c (fun x => { x with walks := false })
  let s := if s.chans[c].st = .playing ∨ s.chans[c].st = .priming then s.enterFault c else s
  if s.chans[c].st = .fault then s.askRecover c 2 cause else s

/-- The shadow thread receives the next report of a channel and compares it with its own walk (R279). -/
def State.shadowTakes (s : State) (c : ChanId) : State :=
  match s.chans[c].reports, s.shadowOf c with
  | r :: rest, some k =>
    if ¬ s.reportPath c k then s
    else
      let x := s.shadows[c]
      let s := s.updChan c (fun y => { y with reports := rest })
      let cause := if x.walks then x.causeOf (s.groupOf c).isSome r rest else 0
      if cause ≠ 0 then s.declare c cause else s.updShadow c (fun y => { y.follow r rest with last := s.granC c })
  | _, _ => s

/-- No report of the channel reaches its shadow. -/
def State.unheard (s : State) (c : ChanId) : Bool := s.chans[c].reports.isEmpty || (match s.shadowOf c with | some k => !s.reportPath c k | none => false)

/-- No report of the channel has arrived for 256 gc. -/
def State.isSilent (s : State) (c : ChanId) : Bool :=
  s.chans[c].st == .playing && s.unheard c && s.shadows[c].walks && decide (s.shadows[c].last + 256 ≤ s.granC c)

/-- A channel is declared silent (R279). A Lamp die two or more of whose channels play, and all of them silent, is found lost (R31; DEDUCED, log entry 23). -/
def State.silence (s : State) (c : ChanId) : State :=
  if s.chans[c].st ≠ .playing ∨ ¬ s.unheard c ∨ ¬ s.shadows[c].walks then s
  else
    let s := s.reachGranC c (s.shadows[c].last + 256)
    let playing := (chansOfLamp (lampOf c)).filter (fun i => s.chans[i].st == .playing)
    if 2 ≤ playing.length ∧ playing.all s.isSilent then s.loseLamp (lampOf c) else s.declare c 5

/-! ### Recovering a channel (R281 to R283) -/

/-- The channel takes up, for a start at granule edge `g`, the state an unbroken walk would hold (R282): it was IDLE or ENDED and is so again; it was to start later, and primes for that; or it
plays on. -/
def State.takeUp (s : State) (c : ChanId) (g : Nat) : State :=
  let x := s.chans[c]
  let later := fun (a : Nat) => s.updChan c (fun y => { y with st := .priming, startAt := some a, kept := none, reqTo := 0, arrTo := 0, primed := false })
  let resume := fun (s : State) => match x.kept with | some k => s.resumeAt c k g | none => s.leavePlay c .idle x.stopPos
  match x.was with
  | .playing => resume s
  | .priming => match x.startAt with
    | some a => if a ≤ g then resume (s.updChan c (fun y => { y with startGran := a })) else later a
    | none => later g
  | .ended => s.updChan c (fun y => { y with st := .ended, kept := none })
  | _ => s.leavePlay c .idle x.stopPos

/-- The channel engine's store is rewritten (R281): the channel goes to IDLE and a resuming start is made; a third recovery within 1 s is not attempted (R283). -/
def State.recover (s : State) (c : ChanId) : State :=
  match s.chans[c].st, s.shadows[c].declared with
  | .fault, some t =>
    let s := (s.reachTime (t + 20 * qUs)).reloadStore c
    let recent := s.chans[c].recoveries.filter (fun r => decide (s.clock.now < r + 1000 * qMs))
    let s := (s.updChan c (fun x => { x with recoveries := recent ++ [s.clock.now] })).updShadow c (fun x => { x with declared := none })
    if 2 ≤ recent.length then
      ((s.updChan c (fun x => { x with kept := none })).leavePlay c .idle s.chans[c].stopPos).raise (.oryStatus c) ORY_STATUS.GIVEN_UP
    else
      let g := s.edgeAfter (lampOf c) (t + 26 * qUs) + 4096
      let s := (s.bump (.oryRecoveries c) ORY_RECOVERIES.COUNT).raise (.oryStatus c) ORY_STATUS.RECOVERED
      (s.bumpBy (.oryRecovGran c) ORY_RECOV_GRAN.GRANULES (g - s.granAt (lampOf c) t)).takeUp c g
  | _, _ => s

/-! ### The commands -/

def execProgressReport (c : ChanId) (s : State) : Host.Outcome State Fault Refusal := s.act [Die.ofLamp (lampOf c)] (·.progressNow c)
/-- The die of a shadow: that of its keeper. -/
def State.shadowDies (s : State) (c : ChanId) : List Die := match s.shadowOf c with | some k => [Die.ofDome (domeOfKeeper k)] | none => []
/-! A channel that leaves PLAYING draws no traffic: the relay budget is settled again (R32). -/
def execShadowReport (c : ChanId) (s : State) : Host.Outcome State Fault Refusal := s.act (s.shadowDies c) (fun s => (s.shadowTakes c).relayCheck)
def execShadowSilent (c : ChanId) (s : State) : Host.Outcome State Fault Refusal := s.act (s.shadowDies c) (fun s => (s.silence c).relayCheck)
def execRecoverStoreRewritten (c : ChanId) (s : State) : Host.Outcome State Fault Refusal := s.act [Die.ofLamp (lampOf c)] (fun s => (s.recover c).relayCheck)

end Sys2Proof.Machine
end

