-- ==== Sys2Proof/Machine/Engines.lean ====
section
/-! DEFINITION. Channel engines: their microwords acting on the walking units of a channel, and the command that runs a word of either kind of engine (spec 10_orrery.md R256 to R263, R277). -/
namespace Sys2Proof.Machine
open Sys2Proof

/-! ### Fields (R263) -/

def mwEntOp (w : Microword) : Nat := mwBits w 96 4
def mwEntReg (w : Microword) : Nat := mwBits w 100 4
def mwFrmOp (w : Microword) : Nat := mwBits w 104 4
def mwFrmReg (w : Microword) : Nat := mwBits w 108 4
def mwReqOp (w : Microword) : Nat := mwBits w 112 3
def mwReqReg (w : Microword) : Nat := mwBits w 115 4
def mwLantOp (w : Microword) : Nat := mwBits w 119 3
def mwMarkOp (w : Microword) : Nat := mwBits w 122 3
def mwPubOp (w : Microword) : Nat := mwBits w 125 3
def mwPubSrc (w : Microword) : Nat := mwBits w 128 7
def mwJmpOp (w : Microword) : Nat := mwBits w 135 3
def mwShdOp (w : Microword) : Nat := mwBits w 138 2
def mwCntOp (w : Microword) : Nat := mwBits w 140 3

/-- The source of a Lamp die by its local index (R254); the reserved ones never publish. -/
def lampSource (n : LampId) (i : Nat) : Option Source :=
  if i < 72 then
    let c := chanOfLamp n (Fin.ofNat 4 (i / 18))
    some (.chan c (match i % 18 with
      | 0 => .visitPub | 1 => .chanEnd | 2 => .primeGap | 3 => .walkFault | 4 => .swapDone | 5 => .segLost | 6 => .relayShort | 7 => .jmpTaken | 8 => .jmpLate | 9 => .jmpDegraded
      | 10 => .jmpDropped | 11 => .group | 12 => .lantSat | 13 => .rangeDone | 14 => .lookFail | 15 => .cellSwap | 16 => .cellSwapDue | _ => .cellExhausted))
  else match i with
    | 72 => some (.darkN n)
    | 81 => some (.biasDev n)
    | 82 => some (.selfFail n)
    | 83 => some (.hwl n 0)
    | 84 => some (.hwl n 1)
    | 85 => some (.clkSwitch n)
    | 86 => some (.regVote n)
    | 87 => some (.regParity n)
    | 88 => some (.storeFault n)
    | 89 => some (.epochStale n)
    | 90 => some (.thermal n)
    | j => if j < 81 then some (.biasLine (biasOfLamp n (Fin.ofNat 8 (j - 73)))) else none

/-! ### The walking units (R263) -/

/-- ENT_OP: an entry comes into a latch, or the one in the lookahead latch is checked against R47. -/
def State.entUnit (s : State) (c : ChanId) (w : Microword) (g : Vector QWord 16) : State :=
  let i := (gAt g (mwEntReg w)).toNat
  match mwEntOp w with
  | 1 => s.updEngine c (fun e => { e with look := some i, lookBad := false })
  | 2 => s.updEngine c (fun e => { e with play := some i })
  | 3 =>
    let t := s.table c
    s.updEngine c (fun e => match e.look with
      | some j => let x := t.entry j; { e with lookBad := !(decide (j < t.len) && s.entrySound t x) }
      | none => e)
  | _ => s

/-- The frame a PUSH opens. -/
def frameOf (n : Nat) : Frame := ⟨n, n == 0⟩
/-- The top frame with one pass less. -/
def decTop : List Frame → List Frame
  | f :: fs => { f with remaining := f.remaining - 1 } :: fs
  | [] => []

/-- FRM_OP: the play stack, on which an overflow or an underflow is a walking fault (R52), and the lookahead shadow stack. -/
def State.frmUnit (s : State) (c : ChanId) (w : Microword) (g : Vector QWord 16) : State :=
  let n := (gAt g (mwFrmReg w)).toNat % 2 ^ 32
  let fs := s.chans[c].frames
  let put := fun (l : List Frame) => s.updChan c (fun x => { x with frames := l })
  let look := fun (f : List Frame → List Frame) => s.updEngine c (fun e => { e with frames := f e.frames })
  match mwFrmOp w with
  | 1 => if 8 ≤ fs.length then s.walkFault c s.chans[c].entry 1 else put (frameOf n :: fs)
  | 2 => if fs = [] then s.walkFault c s.chans[c].entry 2 else put (fs.drop 1)
  | 3 => if fs = [] then s.walkFault c s.chans[c].entry 2 else put (decTop fs)
  | 4 => put []
  | 5 => look (fun l => if 8 ≤ l.length then l else frameOf n :: l)
  | 6 => look (·.drop 1)
  | 7 => look decTop
  | 8 => look (fun _ => [])
  | 9 => look (fun _ => fs)
  | _ => s

/-- REQ_OP: granules of the lookahead entry are requested, or those beyond the take point discarded; a HEAD read ends by its own command. -/
def State.reqUnit (s : State) (c : ChanId) (w : Microword) (g : Vector QWord 16) : State :=
  match mwReqOp w with
  | 1 => s.requestAhead c (gAt g (mwReqReg w)).toNat
  | 2 => match s.chans[c].pend with | some j => s.cutAhead c j | none => s
  | _ => s

/-- LANT_OP: RANGE, GAIN and NCO_OP of the play latch at the visit's first sample, NCO_OP of an iteration with NCO_EACH, and the dark code. GAIN is read from the entry in play (R60). -/
def State.lantUnit (s : State) (c : ChanId) (w : Microword) : State :=
  let x := s.chans[c]
  match mwLantOp w, s.engines[c].play with
  | 1, some i => let e := (s.table c).entry i; (s.visitRange c e (s.unitSample c x.visitStart)).ncoOpAt c e (s.unitSample c x.visitStart)
  | 2, some i => let e := (s.table c).entry i; if e.ncoEach then s.ncoOpAt c e (s.unitSample c x.iterStart) else s
  | 3, _ => s.updChan c (fun y => { y with segDark := true })
  | 4, _ => s.updChan c (fun y => { y with segDark := false })
  | _, _ => s

/-- MARK_OP: FORCE_OFF. Programs are those of the entry in play, and armed with it (R64, R66). -/
def State.markUnit (s : State) (c : ChanId) (w : Microword) : State := if mwMarkOp w = 3 then s.cutMarkers c else s

/-- PUB_OP. -/
def State.pubUnit (s : State) (c : ChanId) (w : Microword) (g : Vector QWord 16) : State :=
  match mwPubOp w, s.engines[c].play with
  | 1, some i => s.visitPub c ((s.table c).entry i) i false
  | 2, some i => s.visitPub c ((s.table c).entry i) i true
  | 3, _ => match lampSource (lampOf c) (mwPubSrc w) with
    | some src => s.publish src ((g[mwSrcA w]).toNat % 2 ^ 32)
    | none => s
  | _, _ => s

/-- JMP_OP: TAKE and DISCARD act on the pending jump; slots are armed by the entry in play, and a request that is carried stays pending (R73, R80). -/
def State.jmpUnit (s : State) (c : ChanId) (w : Microword) : State :=
  match mwJmpOp w with
  | 2 => s.jumpReached c
  | 3 => s.discardJump c
  | _ => s

/-- The JUMP report of the jump last taken (R102, R103). -/
def State.jumpReportOf (s : State) (c : ChanId) : ChanReport :=
  let v := (s.rd (.jmpLast c)).toNat
  .jump (Fin.ofNat 4 (v / 2)) (match bitsOf v 3 2 with | 0 => .boundary | 1 => .granule | _ => .timed) (s.rd (.jmpLastReg c)).toNat ((s.rd (.jmpLastGc c)).toNat * 32 + bitsOf v 26 5) (bitsOf v 12 14)

/-- SHD_OP: the reports of R279. -/
def State.shdUnit (s : State) (c : ChanId) (w : Microword) : State :=
  let x := s.chans[c]
  let p := s.playPos c
  match mwShdOp w with
  | 1 => s.report c (.visit x.entry s.engines[c].iter ((p - x.visitStart) / 32))
  | 2 => s.report c (s.jumpReportOf c)
  | 3 => s.report c (.progress x.entry x.iter ((s.walkPlace c - x.iterStart) / 32) (p / 32) x.frames)
  | _ => s

/-- CNT_OP: the iteration and granule counters. -/
def State.cntUnit (s : State) (c : ChanId) (w : Microword) : State :=
  let x := s.chans[c]
  match mwCntOp w with
  | 1 => s.updEngine c (fun e => { e with iter := x.iter, granules := s.playGran c })
  | 2 => s.updEngine c (fun e => { e with iter := e.iter + 1 })
  | 3 => s.updEngine c (fun e => { e with iter := 0, granules := 0 })
  | _ => s

/-! ### Conditions and sequence (R259 to R261) -/

/-- A condition of a channel engine; `free` answers REQ_FULL, of whose queue the spec gives no depth. -/
def State.chanCond (s : State) (c : ChanId) (code : Nat) (flags : AluFlags) (free : Bool) : Bool :=
  let x := s.chans[c]
  let e := s.engines[c]
  match code with
  | 0 => true
  | 1 => flags.zero
  | 2 => flags.neg
  | 3 => flags.carry
  | 4 => e.look.isSome
  | 5 => e.lookBad
  | 6 => x.st == .playing && (x.iterStart / 32 == s.playGran c || s.iterEnd c / 32 == s.playGran c)
  | 7 => match x.pend with | some j => (match s.pendTake c j with | some t => t / 32 == s.playGran c | none => false) | none => false
  | 8 => decide (s.lead c < s.leadTarget c)
  | 9 => free
  | 10 => decide (8 ≤ x.frames.length)
  | 11 => x.frames.isEmpty
  | 12 => match x.frames with | f :: _ => !f.forever && f.remaining == 1 | [] => false
  | 13 => decide (0 < s.landedLead c)
  | 14 => s.swapDue c (s.iterEnd c)
  | _ => false

/-- A store fault of a channel engine (R277): FAULT with dark code and inactive markers, STORE_FAULT, and the recovery of the channel. -/
def State.chanStoreFault (s : State) (c : ChanId) (word : Nat) : State :=
  let s := (s.raise (.oryStatus c) ORY_STATUS.UNCORR).setFld (.oryFault c) ORY_FAULT.WORD word
  let s := if s.chans[c].st = .fault then s else s.enterFault c
  (s.publish (.storeFault (lampOf c)) 4).askRecover c 1 0

/-- SEQ of a channel engine. A CALL at depth 8, a RETURN at depth 0 and a word that no check admits are invalid operations: the store is at fault (DEDUCED, log entry 24). -/
def State.chanSequence (s : State) (c : ChanId) (w : Microword) (flags : AluFlags) (free : Bool) : State :=
  let e := s.engines[c]
  let goTo := fun (n : Nat) => s.updEngine c (fun x => { x with word := n % 8192 })
  match mwSeq w with
  | 0 => goTo (e.word + 1)
  | 1 => goTo (mwTarget w)
  | 2 => goTo (if s.chanCond c (mwCond w) flags free != mwCondNeg w then mwTarget w else e.word + 1)
  | 3 => if 8 ≤ e.stack.length then s.chanStoreFault c e.word else s.updEngine c (fun x => { x with stack := (x.word + 1) % 8192 :: x.stack, word := mwTarget w % 8192 })
  | 4 => match e.stack with
    | [] => s.chanStoreFault c e.word
    | a :: rest => s.updEngine c (fun x => { x with stack := rest, word := a })
  | _ => s.chanStoreFault c e.word

/-- A word of a channel engine: its units act on the channel, it takes CYCLES gc, the ALU's result is written, and SEQ decides what comes next (R259, R263). -/
def State.runChanWord (s : State) (c : ChanId) (w : Microword) : State :=
  if ¬ channelWordOk w then s.chanStoreFault c s.engines[c].word
  else
    let e := s.engines[c]
    let g := e.g
    let flags : AluFlags := ⟨e.zero, e.neg, e.carry⟩
    let t0 := s.granC c
    let (v, s) := s.fresh
    let s := ((s.entUnit c w g).frmUnit c w g).reqUnit c w g
    let s := ((s.lantUnit c w).markUnit c w).pubUnit c w g
    let s := ((s.jmpUnit c w).shdUnit c w).cntUnit c w
    let (g', flags') := aluStep w g flags v
    let s := if s.clock.runs[lampOf c] then s.reachGranC c (t0 + mwCycles w) else s
    let s := s.updEngine c (fun x => { x with g := g', zero := flags'.zero, neg := flags'.neg, carry := flags'.carry })
    s.chanSequence c w flags (v.getLsbD 1)

/-- A channel engine reads its next word and runs it. -/
def State.chanStep (s : State) (c : ChanId) (ecc : Ecc) : State :=
  let e := s.engines[c]
  if e.store.isNone ∨ ¬ s.domainOn (domChan c) ∨ s.dieLost[Die.ofLamp (lampOf c)] then s
  else match ecc with
    | .double => (s.chanStoreFault c e.word).storeRepair (.channel c) e.word
    | .single => let (w, s) := (s.storeCorrected (.channel c)).channelWord c e.word; s.runChanWord c w
    | .clean => let (w, s) := s.channelWord c e.word; s.runChanWord c w

/-! ### The command -/

def execMicrowordExecute (e : Sys2Proof.Engine) (ecc : Ecc) (s : State) : Host.Outcome State Fault Refusal :=
  s.act [engineDie e] (fun s => match e with
    | .channel c => (s.chanStep c ecc).relayCheck
    | .keeper k => s.keeperStep k ecc)

end Sys2Proof.Machine
end

