-- ==== Sys2Proof/Machine/KeyTest.lean ====
section
/-! DEFINITION. The KEY and TEST commands (spec 13_host_rings.md R365, R366; 16_faults_spares_security.md R430, R431, R434). -/
namespace Sys2Proof.Machine
open Sys2Proof

/-- The state with the security part changed. -/
def State.updSec (s : State) (f : Security → Security) : State := { s with sec := f s.sec }

/-! ### Keys (R365, R430, R431, R434) -/

/-- ENROLL_OWNER: the first enrolment writes the fuses; the enrolled hash again changes nothing; after an erasure the fused hash is a new enrolment, with a new attestation key pair. -/
def State.enroll (s : State) (ref : DescRef) (addr : QWord) : State :=
  let hash := s.hostRead addr.toNat 64
  let renew := fun (s : State) => if s.sec.erased then s.raise (.ext .secStatus) SEC_STATUS.ATT_GEN else s
  match s.sec.ownerHash with
  | none => (renew (s.updSec (fun x => { x with ownerHash := some hash, enrolled := true }))).complete ref Reason.ok 0
  | some h =>
    if h ≠ hash then s.complete ref Reason.keyEnrolled 0
    else if s.sec.enrolled then s.complete ref Reason.ok 0
    else (renew (s.updSec (fun x => { x with enrolled := true }))).complete ref Reason.ok 0

/-- The hash of an image's contents, or zeros. -/
def imageHash (x : Option StoreImage) : List Byte := match x with | some y => y.hash | none => List.replicate 64 0

/-- Bytes 0 to 511 of the attestation (R431). -/
def State.attestBody (s : State) (nonce : Vector Byte 32) : List Byte :=
  let img := fun (f : Images → Option StoreImage) => imageHash (f s.pb3[(0 : DomeId)] <|> f s.pb3[(1 : DomeId)])
  let owner := if s.ownerEnrolled then s.sec.ownerHash.getD [] else List.replicate 64 0
  toBytes 4 0x41545354 ++ toBytes 4 1 ++ toBytes 8 (s.rd64 (.glob .serialLo) (.glob .serialHi)) ++ toBytes 4 (s.rd (.ext .ledgStart)).toNat ++ toBytes 4 (s.rd (.glob .gEpoch)).toNat
  ++ toBytes 4 s.sec.bootVer.toNat ++ toBytes 4 s.sec.bootSec ++ toBytes 4 s.sec.vendorFloor ++ toBytes 4 s.sec.ownerFloor ++ toBytes 4 (s.viewSec % 2 ^ 9) ++ toBytes 4 s.sec.openings
  ++ toBytes 8 s.coarse ++ List.replicate 8 0 ++ nonce.toList ++ owner ++ s.attHash ++ (Config.bootHash s.sec.bootVer).toList ++ img (·.channel) ++ img (·.keeper) ++ img (·.owner)
  ++ List.replicate 32 0

/-- The signed attestation goes to host memory; with no attestation key in force it ends with NO_OWNER. -/
def State.attestNow (s : State) (ref : DescRef) (addr : Nat) (nonce : Vector Byte 32) : State :=
  match s.sec.attKey with
  | none => s.complete ref Reason.noOwner 0
  | some k =>
    let body := s.attestBody nonce
    (s.hostWrite addr (body ++ (Config.attSign k body).toList)).complete ref Reason.ok 1024

/-- ATTEST waits for a key pair in generation. -/
def State.attest (s : State) (ref : DescRef) (addr : QWord) (nonce : Vector Byte 32) : State :=
  if s.isSet (.ext .secStatus) SEC_STATUS.ATT_GEN then s.updHost (fun h => { h with attests := h.attests ++ [(ref, addr.toNat, nonce)] })
  else s.attestNow ref addr.toNat nonce

/-- FUSE_DARK: the codes of the named channels are fused while no channel primes, plays or is in FAULT; they are used from the next start (R161). -/
def State.fuseDark (s : State) (ref : DescRef) (mask : BitVec 16) (codes : Vector (BitVec 16) 16) : State :=
  let cs := maskChans mask
  if ¬ s.feature 6 then s.complete ref Reason.noFeatures 0
  else if (List.finRange 16).any (fun c => s.chans[c].st.busy) then s.complete ref Reason.partLit 0
  else if cs.any (fun c => match s.sec.darkFuses[c] with | some v => v != codes[c] | none => false) then s.complete ref Reason.fuseDone 0
  else (s.updSec (fun x => { x with darkFuses := cs.foldl (fun (v : Vector (Option (BitVec 16)) 16) (c : ChanId) => v.set c (some codes[c])) x.darkFuses })).complete ref Reason.ok 0

/-- A key pair's generation completes (R430): ATT_READY; a re-enrolment after an erasure is in force (R434); attestations that waited are written. -/
def State.keyReady (s : State) : State :=
  if s.isSet (.ext .secStatus) SEC_STATUS.ATT_GEN then
    let n := s.free
    let s := { s with free := n + 1 }
    let s := (s.setFld (.ext .secStatus) SEC_STATUS.ATT_GEN 0).updSec (fun x => { x with attKey := some n, erased := false })
    let waiting := s.host.attests
    waiting.foldl (fun s p => s.attestNow p.1 p.2.1 p.2.2) (s.updHost (fun h => { h with attests := [] }))
  else s

/-! ### Tests (R366) -/

/-- PB_PASS: every region of the bank tested once, one per 20 µs: words in error are found, corrected and counted; no cell fails of itself. -/
def State.plateFullPass (s : State) (d : DomeId) (b : BankId) : State :=
  if ¬ s.domainOn (domPlate d) then s
  else
    let s := s.reachTime (s.clock.now + bankRegions b * 20 * qUs)
    let s := s.plate[d][b].single.foldl (fun s w => s.plateCorrected d b w) s
    let s := (s.bump (.pbbPasses d b) PBb_PASSES.COUNT).setFld (.pbbState d b) PBb_STATE.REGION 0
    (s.updBank d b (fun x => { x with phase := none, broken := 0, failed := false, before := x.now, now := [] })).setFld (.pbbState d b) PBb_STATE.TESTING 0

/-- LOOK_SELF: the reference check of each lookout named, at once; what it measures is a free value. -/
def State.lookSelfTest (s : State) (lamps : BitVec 4) : State :=
  ((List.finRange 4).filter (fun n => lamps.getLsbD n.val)).foldl (fun s n =>
    if s.lookRuns n then let (v, s) := s.fresh; s.lookSelf n (v.toNat % 2 ^ 18 : Nat) else s) s

/-- SCRUB_PASS: a pass over every stripe, in which none mismatches. -/
def State.scrubFullPass (s : State) (d : DomeId) : State :=
  if s.dieLost[Die.ofDome d] then s else s.setFld (.moorScrub d) MOOR_SCRUB.PASSES (s.fld (.moorScrub d) MOOR_SCRUB.PASSES + 1)

/-- Class 0: one copy of a voted field of the register at an offset differs by one bit; which copy and which bit are free values. -/
def State.injectCopy (s : State) (r : Reg) (f : FieldSpec) : State :=
  let (v, s) := s.fresh
  let i : Fin 3 := ⟨v.toNat % 3, by omega⟩
  let bad := Nat.xor (s.copyOf r f i) (2 ^ (v.toNat / 4 % f.width))
  { s with copies := s.copies.filter (fun x => !(x.reg == r && x.lo == f.lo && x.copy == i)) ++ [⟨r, f.lo, i, bad⟩] }

/-- FAULT_INJECT: none where an argument names nothing. -/
def State.faultInject (s : State) (w2 : Nat) : Option State :=
  let d : DomeId := Fin.ofNat 2 (bitsOf w2 7 1)
  match w2 % 16 with
  | 0 => match Reg.ofAddr? (bitsOf w2 32 32) with
    | some r => match r.fields.find? (·.voted) with | some f => some (s.injectCopy r f) | none => none
    | none => none
  | 1 =>
    let lane := bitsOf w2 8 8
    let ret := decide (128 ≤ lane)
    if h : bitsOf w2 16 8 < 22 then
      let l : LinkId := ⟨bitsOf w2 16 8, h⟩
      if lane % 128 < (linkLanes l ret).1 + (linkLanes l ret).2.1 then some ((List.range 3).foldl (fun (s : State) _ => s.crcError l ret (lane % 128)) s).relayCheck else none
    else none
  | 2 =>
    if h : bitsOf w2 4 3 < 6 then
      let b : BankId := ⟨bitsOf w2 4 3, h⟩
      let w := bitsOf w2 32 32
      if w < bankWords b then some (s.updBank d b (fun x => { x with single := if w ∈ x.single ∨ w ∈ x.double then x.single else x.single ++ [w] })) else none
    else none
  | 3 =>
    if h : bitsOf w2 4 3 < 5 then let (v, s) := s.fresh; some (s.detectionFails d ⟨bitsOf w2 4 3, h⟩ (v.toNat % max 1 (s.dataBytes d)) false) else none
  | _ => none

/-! ### The commands -/

def execKeyEnrollOwner (h : DescHdr) (addr : QWord) (s : State) : Host.Outcome State Fault Refusal := s.act [s.ringDie h] (·.descriptor h 0x0D false (fun ref s => s.enroll ref addr))
def execKeyAttest (h : DescHdr) (addr : QWord) (nonce : Vector Byte 32) (s : State) : Host.Outcome State Fault Refusal :=
  s.act [s.ringDie h] (·.descriptor h 0x0D false (fun ref s => s.attest ref addr nonce))
def execKeyFuseDark (h : DescHdr) (mask : BitVec 16) (codes : Vector (BitVec 16) 16) (s : State) : Host.Outcome State Fault Refusal :=
  s.act [s.ringDie h] (·.descriptor h 0x0D false (fun ref s => s.fuseDark ref mask codes))
def execAttKeyGenDone (s : State) : Host.Outcome State Fault Refusal := s.act [Die.ofMerid s.leader] State.keyReady
def execTestPbPass (h : DescHdr) (d : DomeId) (b : Fin 8) (s : State) : Host.Outcome State Fault Refusal :=
  s.act [s.ringDie h, Die.ofDome d] (·.descriptor h 0x0C false (fun ref s =>
    if hb : b.val < 6 then (s.plateFullPass d ⟨b.val, hb⟩).complete ref Reason.ok 0 else s.complete ref Reason.badField 0))
def execTestLookSelf (h : DescHdr) (lamps : BitVec 4) (s : State) : Host.Outcome State Fault Refusal :=
  s.act (s.ringDie h :: ((List.finRange 4).filter (fun n => lamps.getLsbD n.val)).map Die.ofLamp) (·.descriptor h 0x0C false (fun ref s => (s.lookSelfTest lamps).complete ref Reason.ok 0))
def execTestScrubPass (h : DescHdr) (d : DomeId) (s : State) : Host.Outcome State Fault Refusal :=
  s.act [s.ringDie h, Die.ofDome d] (·.descriptor h 0x0C false (fun ref s => (s.scrubFullPass d).complete ref Reason.ok 0))
def execTestFaultInject (h : DescHdr) (w2 : QWord) (s : State) : Host.Outcome State Fault Refusal :=
  s.act [s.ringDie h] (·.descriptor h 0x0C false (fun ref s =>
    if ¬ s.feature 7 then s.complete ref Reason.noFeatures 0
    else match s.faultInject w2.toNat with
      | some s => s.complete ref Reason.ok 0
      | none => s.complete ref Reason.badField 0))

end Sys2Proof.Machine
end

