-- ==== Sys2Proof/Machine/Security.lean ====
section
/-! DEFINITION. The HATCH: its instructions, tokens, the opening and its erasures (spec 16_faults_spares_security.md R432 to R435). -/
namespace Sys2Proof.Machine
open Sys2Proof

/-- The register of the HATCH. -/
def hatchReg : Reg := .ext .secHatch

/-- The HATCH publishes: 1 opened, 2 refused, 3 lockout, with the refusals. -/
def State.hatchEvent (s : State) (what : Nat) : State := s.publish (.hatch s.leader) (what + s.fld hatchReg SEC_HATCH.REFUSALS * 4)

/-- STATE of a HATCH that is not open. -/
def State.hatchState (s : State) (v : Nat) : State := if s.fld hatchReg SEC_HATCH.STATE = 2 then s else s.setFld hatchReg SEC_HATCH.STATE v

/-- CHALLENGE: 32 fresh bytes of the true random source; the challenge before it is spent. -/
def State.challengeNow (s : State) : State :=
  let n := s.free
  let bytes := (List.range 4).flatMap (fun i => toBytes 8 (Config.freeBits (n + i)).toNat)
  (({ s with free := n + 4, resp := .bytes bytes }).updSec (fun x => { x with challenge := some bytes })).hatchState 1

/-- The bytes of a token from an offset. -/
def tokenPart (t : List Byte) (from_ n : Nat) : List Byte := (t.drop from_).take n

/-- A token is accepted (R432): its layout, serial number and challenge, its signer's key and its signature; none after a lockout (R435). -/
def State.tokenGood (s : State) (t : List Byte) : Bool :=
  let key := tokenPart t 64 520
  let hash := (Config.sha512 (key.take 516)).toList
  let signer := fromBytes (tokenPart t 4 1)
  let keyGood := if signer = 0 then hash == (Config.sha512 (Config.vendorKey.take 516)).toList
    else decide (signer = 1) && s.ownerEnrolled && (match s.sec.ownerHash with | some h => h == hash | none => false)
  !s.isSet hatchReg SEC_HATCH.LOCKOUT && decide (t.length = 1096) && decide (fromBytes (tokenPart t 0 4) = 0x48435448)
  && tokenPart t 5 3 == List.replicate 3 0 && decide (fromBytes (tokenPart t 8 8) = s.rd64 (.glob .serialLo) (.glob .serialHi))
  && (match s.sec.challenge with | some c => tokenPart t 16 32 == c | none => false) && tokenPart t 48 16 == List.replicate 16 0
  && keyGood && Config.verifies key (t.take 584) (tokenPart t 584 512)

/-- A token is refused (R435): counted and published; the fourth refusal of a start locks the HATCH out. -/
def State.tokenRefused (s : State) : State :=
  let n := s.fld hatchReg SEC_HATCH.REFUSALS
  let s := (s.setFld hatchReg SEC_HATCH.REFUSALS (min 4 (n + 1))).hatchEvent 2
  if n = 3 then (s.raise hatchReg SEC_HATCH.LOCKOUT).hatchEvent 3 else s

/-- UNLOCK: the challenge is spent; an accepted token writes the erasure-pending mark and begins the opening (R433 step 1). -/
def State.unlock (s : State) (t : List Byte) : State :=
  let good := s.tokenGood t
  let s := ({ s with resp := .none }.updSec (fun x => { x with challenge := none })).hatchState 0
  if good then s.updSec (fun x => { x with erasing := true, opening := true }) else s.tokenRefused

/-- Inputs bound to owner routines lose EN. -/
def State.unbindOwner (s : State) : State :=
  (List.finRange 4).foldl (fun (s : State) (k : KeeperId) => (List.finRange 16).foldl (fun (s : State) (i : Fin 16) =>
    if 192 ≤ s.boundRoutine k i then s.setFld (.kprBind k i) KPR_BINDi.EN 0 else s) s) s

/-- The erasure completes and the HATCH opens (R433 steps 2 to 5). -/
def State.hatchOpens (s : State) : State :=
  if s.sec.opening then
    let n := min 65535 (s.sec.openings + 1)
    let s := (s.updSec (fun x => { x with attKey := none, enrolled := false, erased := true, openings := n, erasing := false, opening := false })).setFld (.ext .secStatus) SEC_STATUS.ATT_GEN 0
    let s := (s.emptyOwner.unbindOwner).raise (.ext .secStatus) SEC_STATUS.HATCH_OPEN
    ((s.setFld hatchReg SEC_HATCH.STATE 2).setFld hatchReg SEC_HATCH.OPENINGS n).hatchEvent 1
  else s

/-- BYPASS, which passes a bit through. -/
def State.bypass (s : State) (tdi : Bool) : State := { s with resp := .data (if tdi then 1 else 0) }

/-- An instruction of board test: while RESET_N is low it captures the balls, free values; else it acts as BYPASS, whose register captures 0. -/
def State.boardTest (s : State) : State :=
  if s.power.resetN then s.bypass false else let (v, s) := s.fresh; { s with resp := .data (v.setWidth 32) }

/-! ### The commands -/

def execHatchChallenge (s : State) : Host.Outcome State Fault Refusal := s.act [Die.ofMerid s.leader] State.challengeNow
def execHatchUnlock (token : List Byte) (s : State) : Host.Outcome State Fault Refusal := s.act [Die.ofMerid s.leader] (·.unlock token)
def execHatchOpenDone (s : State) : Host.Outcome State Fault Refusal := s.act [Die.ofMerid s.leader] State.hatchOpens
def execHatchBypass (tdi : Bool) (s : State) : Host.Outcome State Fault Refusal := .next (s.bypass tdi)
def execHatchIdcode (s : State) : Host.Outcome State Fault Refusal := .next { s with resp := .data Config.idcode }
def execHatchSamplePreload (s : State) : Host.Outcome State Fault Refusal := .next s.boardTest
def execHatchExtest (s : State) : Host.Outcome State Fault Refusal := .next s.boardTest

end Sys2Proof.Machine
end

