-- ==== Sys2Proof/Machine/SmBus.lean ====
section
/-! DEFINITION. The SMBus port and the telemetry (spec 17_balls_and_electrical.md R451, R455 to R457, R459). -/
namespace Sys2Proof.Machine
open Sys2Proof

/-! ### Block reads (R451) -/

/-- A Block Read answers once the port is up, and is NACKed before. -/
def State.smbAnswer (s : State) (bs : List Byte) : State := if s.power.smbUp then { s with resp := .bytes bs } else { s with resp := .nack }

/-- A register as SMBus reads it. -/
def State.smbWord (s : State) (r : Reg) : Nat := (s.live 0 r).toNat
def State.smbStatus (s : State) : State := s.smbAnswer (toBytes 4 (s.smbWord (.ext .pwrState)) ++ toBytes 4 (s.smbWord (.glob .gStart)))
def State.smbTemps (s : State) : State :=
  s.smbAnswer ((List.finRange 8).flatMap (fun d => toBytes 2 (ofSigned 16 (toSigned 12 (s.fld (.ext (.telDie d)) TEL_DIEd.TEMP)))))
def State.smbPower (s : State) : State := s.smbAnswer ((List.finRange 8).flatMap (fun d => toBytes 2 (s.fld (.ext (.telDie d)) TEL_DIEd.POWER)))
def State.smbCase (s : State) : State := s.smbAnswer (toBytes 4 (s.smbWord (.ext .telCase)))
def State.smbAvail (s : State) : State := let s := s.noteAvail; s.smbAnswer (toBytes 4 (s.smbWord (.ext .availCond)))
def State.smbSerial (s : State) : State := s.smbAnswer (toBytes 4 (s.smbWord (.glob .serialLo)) ++ toBytes 4 (s.smbWord (.glob .serialHi)))
def State.smbRails (s : State) : State := s.smbAnswer ((List.finRange 12).flatMap (fun j => toBytes 2 (s.fld (.ext (.telRail j)) TEL_RAILj.MV)))
/-- The Alert Response Address read releases SMB_ALERT_N: the part answers it with its own address, 0x58 + SMB_ADDR as ST-2 read the straps (R450). -/
def State.smbAlert (s : State) : State :=
  if s.power.smbUp ∧ s.power.alert then
    { s with resp := .bytes [BitVec.ofNat 8 ((0x58 + s.power.smbAddr.toNat) * 2)] }.updPower (fun p => { p with alert := false })
  else { s with resp := .nack }

/-! ### Temperatures, powers and rails (R455 to R457, R459) -/

/-- θ_d of a die in 0.01 °C/W (R455). -/
def thetaOf (d : Die) : Nat := if d.val < 2 then 150 else if d.val < 4 then 30 else 70

/-- The lid temperature a die's readings give, in 1/16 °C (R455, R456): powers in 10 mW, coefficients in 0.01 °C/W. The estimate is rounded to nearest. -/
def caseOf (temp : Int) (d : Die) (power total : Nat) : Int := roundDiv (temp * 10000 - 16 * ((thetaOf d : Int) * power + 3 * total)) 10000

/-- The telemetry is refreshed (R459): a die that is OFF has no reading; the case estimate is the largest; WARN, THERMAL and THERM_N follow the sensors (R457). -/
def State.telemetry (s : State) (temps powers : Vector (BitVec 12) 8) (rails : Vector (BitVec 16) 12) (out : BitVec 12) : State :=
  let up : List Die := (List.finRange 8).filter s.dieUp
  let t : Die → Int := fun d => temps[d].toInt
  let total := (up.map (fun d => powers[d].toNat)).sum
  let before := s.isSet (.ext .telCase) TEL_CASE.WARN
  let wasHot : Die → Bool := fun d => decide (1600 ≤ toSigned 12 (s.fld (.ext (.telDie d)) TEL_DIEd.TEMP))
  let crossed := (List.finRange 4).filter (fun n => s.dieUp (Die.ofLamp n) && decide (1600 ≤ t (Die.ofLamp n)) && !wasHot (Die.ofLamp n))
  let s := (List.finRange 8).foldl (fun (s : State) (d : Die) =>
    s.wr (.ext (.telDie d)) (BitVec.ofNat 32 (if d ∈ up then temps[d].toNat + powers[d].toNat * 2 ^ 16 else 0x800))) s
  let s := (List.finRange 12).foldl (fun (s : State) (j : Fin 12) => s.wr (.ext (.telRail j)) (BitVec.ofNat 32 (rails[j].toNat + (if out.getLsbD j.val then 2 ^ 16 else 0)))) s
  let s := match (up.map (fun d => caseOf (t d) d powers[d].toNat total)).max? with
    | some v => s.setFld (.ext .telCase) TEL_CASE.CASE (ofSigned 12 (max (-2048) (min 2047 v)))
    | none => s.setFld (.ext .telCase) TEL_CASE.CASE 0x800
  let warn := up.any (fun d => decide (1600 ≤ t d))
  let hot := if up.any (fun d => decide (1840 ≤ t d)) then true else if up.all (fun d => decide (t d < 1760)) then false else s.isSet (.ext .telCase) TEL_CASE.HOT
  let s := (s.setFlag (.ext .telCase) TEL_CASE.WARN warn).setFlag (.ext .telCase) TEL_CASE.HOT hot
  let s := if warn ∧ ¬ before then s.updPower (fun p => { p with alert := true }) else s
  (crossed.foldl (fun (s : State) (n : LampId) => s.publish (.thermal n) (s.rd (.ext (.telDie (Die.ofLamp n)))).toNat) s).noteAvail

/-! ### The commands -/

def execSmbStatus (s : State) : Host.Outcome State Fault Refusal := .next s.smbStatus
def execSmbTemps (s : State) : Host.Outcome State Fault Refusal := .next s.smbTemps
def execSmbPower (s : State) : Host.Outcome State Fault Refusal := .next s.smbPower
def execSmbCase (s : State) : Host.Outcome State Fault Refusal := .next s.smbCase
def execSmbAvail (s : State) : Host.Outcome State Fault Refusal := .next s.smbAvail
def execSmbSerial (s : State) : Host.Outcome State Fault Refusal := .next s.smbSerial
def execSmbRails (s : State) : Host.Outcome State Fault Refusal := .next s.smbRails
def execSmbAlertResponse (s : State) : Host.Outcome State Fault Refusal := .next s.smbAlert
def execTelemetryRefresh (temps : Vector (BitVec 12) 8) (powers : Vector (BitVec 12) 8) (rails : Vector (BitVec 16) 12) (out : BitVec 12) (s : State) :
    Host.Outcome State Fault Refusal := .next (s.telemetry temps powers rails out)

end Sys2Proof.Machine
end

