-- ==== Sys2Proof/Machine/Tasks.lean ====
section
/-! DEFINITION. Task inputs of the fabric, the ends of deliveries, timers and event outputs (spec 09_beacon_fabric.md R242 to R250). -/
namespace Sys2Proof.Machine
open Sys2Proof

/-! ### Activations (R245 to R247, R250) -/

/-- The wake input of the power controller. -/
def consWake : ConsId := 204

/-- An activation of the wake input: in LAID-UP the exit starts, and WAKE_SRC records the source; elsewhere nothing (R250, R408). Of an activation that was pending the source is not kept: a free value. -/
def State.wakeUp (s : State) (p : Option Payload) : State :=
  if s.pwr = 1 then
    let (src, s) : Nat × State := match p with
      | some x => (x.src, s)
      | none => let (v, s) := s.fresh; (v.toNat % 640, s)
    (((s.raise (.ext .pwrState) PWR_STATE.EXITING).setFld (.ext .pwrState) PWR_STATE.WAKE_SRC src).raise (.ext .pwrState) PWR_STATE.WAKE_VALID).raise (.bcnConsStat consWake) BCN_CONSi_STAT.BUSY
  else s

/-- An activation of the input of a transaction slot triggers an armed commit, which is in progress from then on (R245, R358). -/
def State.slotTask (s : State) (i : ConsId) (t : TxnId) : State :=
  match s.host.txns[t].phase with
  | .armed _ => (s.slotTriggered t).raise (.bcnConsStat i) BCN_CONSi_STAT.BUSY
  | _ => s

/-- What the activation of an idle task input starts (R245). -/
def State.startTask (s : State) (i : ConsId) (p : Option Payload) : State :=
  if h : i.val < 64 then s.activateKeeper ⟨i.val / 16, by omega⟩ ⟨i.val % 16, by omega⟩ p
  else if h : i.val < 192 then s.requestVector ⟨i.val - 64, by omega⟩
  else if h : i.val < 200 then s.evOutDrive ⟨i.val - 192, by omega⟩
  else if h : i.val < 204 then s.timerStart ⟨i.val - 200, by omega⟩
  else if i.val = 204 then s.wakeUp p
  else if h : 208 ≤ i.val then s.slotTask i ⟨i.val - 208, by omega⟩
  else s

/-- The payload a keeper input holds for its pending activation: that of the event that left it (R241, R247). -/
def State.keepPayload (s : State) (i : ConsId) (p : Option Payload) : State :=
  if h : i.val < 64 then { s with fabric := { s.fabric with held := s.fabric.held.set i.val p } } else s

/-- A delivery reaches a subscribed task input in its sampling cycle, with `extra` more events on the channel in that cycle: they merge; an idle input starts, another overruns (R246, R247). -/
def State.taskEvent (s : State) (i : ConsId) (ch : BeaconCh) (extra : Nat) : State :=
  match s.delivery ch with
  | none => s
  | some d =>
    if Consumer.task i ∉ d.waiting then s
    else
      let s := (s.acknowledge ch (.task i)).mergeAt i extra
      if s.inputPending i then s.overrun i
      else if s.inputBusy i then (s.keepPayload i (some d.payload)).overrun i
      else s.startTask i (some d.payload)

/-- The payload of a pending activation. -/
def State.heldPayload (s : State) (i : ConsId) : Option Payload := if h : i.val < 64 then s.fabric.held[i.val] else none

/-- The pending activation of a task input that is no longer busy starts its task (R247). -/
def State.startPending (s : State) (i : ConsId) : State :=
  if s.inputPending i ∧ ¬ s.inputBusy i then (s.setFld (.bcnConsStat i) BCN_CONSi_STAT.PENDING 0).startTask i (s.heldPayload i) else s

/-! ### The end of a delivery (R242, R243) -/

/-- Every handshake of a delivery has returned to zero. -/
def State.deliveryEnds (s : State) (ch : BeaconCh) : State :=
  match s.delivery ch with
  | some d => if d.waiting = [] then s.endDelivery ch else s
  | none => s

/-- A leg has not returned to zero 250 ns after the publication: each leg whose consumer has not acknowledged, or one that has not fallen. -/
def State.legStuck (s : State) (ch : BeaconCh) : State :=
  match s.delivery ch with
  | some d => s.legTimeout ch (max 1 d.waiting.length)
  | none => s

/-! ### Timers and event outputs (R248, R249) -/

/-- The deferred publication of a timer, MINP after the previous one. -/
def State.timerCatchUp (s : State) (t : TimerId) : State :=
  let x := s.fabric.timers[t]
  match x.deferred, x.lastPub with
  | true, some p => (s.reachTime (p + s.timerMinp t)).timerPublish t
  | _, _ => s

/-- A running timer reaches its next instant; a publication deferred to a time before it is made first, and a ONE_SHOT timer that has deferred has no further instant. -/
def State.timerExpires (s : State) (t : TimerId) : State :=
  if ¬ s.isSet (.bcnTmrCtrl t) BCN_TMRt_CTRL.RUNNING then s
  else
    let x := s.fabric.timers[t]
    let due := x.start + s.timerSpan t (x.ticks + 1)
    let first := x.deferred && (match x.lastPub with | some p => decide (p + s.timerMinp t ≤ due) | none => false)
    if x.deferred ∧ ¬ s.isSet (.bcnTmrCtrl t) BCN_TMRt_CTRL.MODE then s
    else (if first then s.timerCatchUp t else s).timerInstant t

/-- The pulse of an event output ends; a pending activation starts a new one. -/
def State.pulseEnds (s : State) (j : EvOutId) : State :=
  match s.fabric.evOut[j].ends with
  | none => s
  | some t => ((s.reachTime t).evOutEnd j).startPending (consOfEvOut j)

/-! ### The commands -/

/-- The die of a task input. -/
def State.taskDie (s : State) (i : ConsId) : Die := dieOfDom ((Consumer.task i).domain s)

def execTaskInputActivate (i : ConsId) (ch : BeaconCh) (extra : Nat) (s : State) : Host.Outcome State Fault Refusal := s.act [s.taskDie i] (·.taskEvent i ch extra)
def execPendingActivationStart (i : ConsId) (s : State) : Host.Outcome State Fault Refusal := s.act [s.taskDie i] (·.startPending i)
def execDeliveryComplete (ch : BeaconCh) (s : State) : Host.Outcome State Fault Refusal := s.act [Die.ofMerid s.leader] (·.deliveryEnds ch)
def execLegTimeout (ch : BeaconCh) (s : State) : Host.Outcome State Fault Refusal := s.act [Die.ofMerid s.leader] (·.legStuck ch)
def execTimerExpire (t : TimerId) (s : State) : Host.Outcome State Fault Refusal := s.act [Die.ofMerid s.leader] (·.timerExpires t)
def execTimerDeferredPublish (t : TimerId) (s : State) : Host.Outcome State Fault Refusal := s.act [Die.ofMerid s.leader] (·.timerCatchUp t)
def execEvOutPulseEnd (j : EvOutId) (s : State) : Host.Outcome State Fault Refusal := s.act [Die.ofMerid s.leader] (·.pulseEnds j)

end Sys2Proof.Machine
end

