-- ==== Sys2Proof/Machine/Writes.lean ====
section
/-! DEFINITION. The commands that write and read registers over BAR0, and the sweep of voted fields and parity (spec 14_register_conventions.md R368 to R390, and the rule of each command). -/
namespace Sys2Proof.Machine
open Sys2Proof

/-! ### Writes and reads -/

/-- The dies a BAR0 access acts on: that of the register it names. -/
def bar0Dies (off : Nat) : List Die :=
  match bar0Of off with
  | .reg r => [r.die]
  | .aliasLo r => [r.die]
  | .aliasHi r => [r.die]
  | _ => []

/-- A write of a whole register through a function. -/
def State.regWrite (s : State) (f : Func) (r : Reg) (v : Word) : State := s.bar0Write f r.addr v 15

/-- A write through a function that names one field of a register only (R381). -/
def State.fieldWrite (s : State) (f : Func) (r : Reg) (x : FieldSpec) (v : Nat) : State :=
  let s := { s with resp := .none }
  if s.bar0Up f then s.windowWrite (.func f) r.addr r x.mask (x.put 0 v) else s

/-- A write through a function reaches a register: the link and the die's window serve it, and no transaction claims it (R336, R356, R398). -/
def State.writeReaches (s : State) (f : Func) (r : Reg) : Bool :=
  s.bar0Up f && !(s.halted && !haltedServes r.addr) && s.windowUp r.addr && !s.mirrorOnly r.addr r && !s.claimed r

/-! ### The sweep (R378 to R380) -/

/-- A register carries parity (R380): RW, LK or W1, with no voted field. -/
def Reg.hasParity (r : Reg) : Bool :=
  r.fields.all (fun f => !f.voted) && r.fields.any (fun f => match f.access with | .rw => true | .lk => true | .w1 => true | .act => true | .staged => true | _ => false)

/-- A copy of a voted field takes another value, or a stored bit of a register with parity flips. -/
def State.upset (s : State) : Upset → State
  | .copy off lo i v =>
    match Reg.ofAddr? off with
    | none => s
    | some r =>
      match r.fields.find? (fun f => f.lo == lo && f.voted) with
      | none => s
      | some f =>
        let rest := s.copies.filter (fun x => !(x.reg == r && x.lo == lo && x.copy == i))
        if v % 2 ^ f.width = s.fld r f then { s with copies := rest } else { s with copies := rest ++ [⟨r, lo, i, v % 2 ^ f.width⟩] }
  | .bit off b =>
    match Reg.ofAddr? off with
    | none => s
    | some r =>
      let stored := (r.fields.filter (fun f => f.access != .ro && f.access != .rc)).foldl (fun (m : Word) f => m ||| f.mask) 0
      let m : Word := 1 <<< b.val
      if r.hasParity ∧ stored &&& m ≠ 0 then
        { s.wr r (s.rd r ^^^ m) with badPar := if s.badPar.contains r then s.badPar.filter (fun x => x != r) else s.badPar ++ [r] }
      else s

/-- The registers the sweep finds something in. -/
def State.suspects (s : State) : List Reg := ((s.copies.map (·.reg)) ++ s.badPar).eraseDups

/-- The sweep checks every voted field and every parity (R378, R380): what differs since the last one is what the upsets changed. -/
def State.sweep (s : State) (us : List Upset) : State :=
  let s := us.foldl State.upset s
  s.suspects.foldl State.checkReg s

/-- The offset an upset names. -/
def upsetOff : Upset → Nat
  | .copy off _ _ _ => off
  | .bit off _ => off

/-! ### The commands -/

def execRegisterWrite (f : Func) (off : Nat) (v : Word) (be : BitVec 4) (s : State) : Host.Outcome State Fault Refusal := s.act (bar0Dies off) (·.bar0Write f off v be)
def execMaskedWrite (f : Func) (off : Nat) (v : Word) (s : State) : Host.Outcome State Fault Refusal := s.act (bar0Dies off) (·.bar0Write f off v 15)
def execRcFieldRead (q : Requester) (off : Nat) (s : State) : Host.Outcome State Fault Refusal := s.act (bar0Dies off) (·.bar0Read q off)
def execLoRegisterRead (q : Requester) (off : Nat) (s : State) : Host.Outcome State Fault Refusal := s.act (bar0Dies off) (·.bar0Read q off)
def execVoteSweep (upsets : List Upset) (s : State) : Host.Outcome State Fault Refusal := s.act (upsets.flatMap (fun u => bar0Dies (upsetOff u))) (·.sweep upsets)
def execFeatAccept0Write (f : Func) (v : Word) (s : State) : Host.Outcome State Fault Refusal := s.act [Reg.die (.glob (.featAccept 0))] (·.regWrite f (.glob (.featAccept 0)) v)
def execDring0EnWrite (f : Func) (v : Word) (s : State) : Host.Outcome State Fault Refusal := s.act [Reg.die (.glob .dring0Cfg)] (·.regWrite f (.glob .dring0Cfg) v)
def execRring0EnWrite (f : Func) (v : Word) (s : State) : Host.Outcome State Fault Refusal := s.act [Reg.die (.glob .rring0Cfg)] (·.regWrite f (.glob .rring0Cfg) v)
def execTableHomeWrite (f : Func) (c : ChanId) (home : Fin 4) (s : State) : Host.Outcome State Fault Refusal :=
  s.act [Reg.die (.charCtrl c)] (·.fieldWrite f (.charCtrl c) CHAR_CTRL.TABLE_HOME home.val)
def execSwapCancel (f : Func) (c : ChanId) (s : State) : Host.Outcome State Fault Refusal := s.act [Reg.die (.charCtrl c)] (·.fieldWrite f (.charCtrl c) CHAR_CTRL.SWAP_CANCEL 1)
def execFreqLoWrite (f : Func) (c : ChanId) (k : Fin 8) (v : Word) (s : State) : Host.Outcome State Fault Refusal :=
  s.act [Reg.die (.lantSecFreqLo c k)] (·.regWrite f (.lantSecFreqLo c k) v)
def execFreqHiWrite (f : Func) (c : ChanId) (k : Fin 8) (v : Word) (s : State) : Host.Outcome State Fault Refusal :=
  s.act [Reg.die (.lantSecFreqHi c k)] (·.regWrite f (.lantSecFreqHi c k) v)
def execTndAttachWrite (f : Func) (st : StreamId) (v : Word) (s : State) : Host.Outcome State Fault Refusal := s.act [Reg.die (.tndCtrl st)] (·.regWrite f (.tndCtrl st) v)
def execTndDetachWrite (f : Func) (st : StreamId) (v : Word) (s : State) : Host.Outcome State Fault Refusal := s.act [Reg.die (.tndCtrl st)] (·.regWrite f (.tndCtrl st) v)
def execTndLimitWrite (f : Func) (st : StreamId) (v : Word) (s : State) : Host.Outcome State Fault Refusal := s.act [Reg.die (.tndLimit st)] (·.regWrite f (.tndLimit st) v)
/-- A watermark write: TND_WM_A, or TND_WM_B for `second`. -/
def execTndWmWrite (f : Func) (st : StreamId) (second : Bool) (v : Word) (s : State) : Host.Outcome State Fault Refusal :=
  s.act [Reg.die (.tndCtrl st)] (·.regWrite f (if second then .tndWmB st else .tndWmA st) v)
def execBiasPdataWrite (f : Func) (b : BiasId) (v : Word) (s : State) : Host.Outcome State Fault Refusal := s.act [Reg.die (.biasPdata b)] (·.regWrite f (.biasPdata b) v)
def execBiasCtrlWrite (f : Func) (b : BiasId) (v : Word) (s : State) : Host.Outcome State Fault Refusal := s.act [Reg.die (.biasCtrl b)] (·.regWrite f (.biasCtrl b) v)
def execSwapNow (f : Func) (c : ChanId) (s : State) : Host.Outcome State Fault Refusal := s.act [Reg.die (.outCell c)] (·.fieldWrite f (.outCell c) OUT_CELL.SWAP_NOW 1)
def execDpllCmdSlew (f : Func) (m : MerId) (s : State) : Host.Outcome State Fault Refusal := s.act [Reg.die (.merDpllCmd m)] (·.fieldWrite f (.merDpllCmd m) MER_DPLL_CMD.SLEW 1)
def execDpllCmdStepSync (f : Func) (m : MerId) (s : State) : Host.Outcome State Fault Refusal :=
  s.act [Reg.die (.merDpllCmd m)] (·.fieldWrite f (.merDpllCmd m) MER_DPLL_CMD.STEP_SYNC 1)
def execApplyNow (f : Func) (m : MerId) (s : State) : Host.Outcome State Fault Refusal := s.act [Reg.die (.merApply m)] (·.fieldWrite f (.merApply m) MER_APPLY.NOW 1)
def execSyncFire (f : Func) (m : MerId) (s : State) : Host.Outcome State Fault Refusal := s.act [Reg.die (.merSyncCtrl m)] (·.fieldWrite f (.merSyncCtrl m) MER_SYNC_CTRL.FIRE 1)
/-- The measurement finds e, `drift` steps of 0.25 ps off its base value. -/
def execMeasureEcho (f : Func) (m : MerId) (drift : Int) (s : State) : Host.Outcome State Fault Refusal :=
  s.act [Reg.die (.merSyncCtrl m)] (fun s => let s := { s with resp := .none }; if s.writeReaches f (.merSyncCtrl m) then s.echoMeasured m drift else s)
def execEngRunStart (f : Func) (m : MerId) (e : EngId) (v : Word) (s : State) : Host.Outcome State Fault Refusal := s.act [Reg.die (.eng m e .ctrl)] (·.regWrite f (.eng m e .ctrl) v)
def execEngRunAbort (f : Func) (m : MerId) (e : EngId) (v : Word) (s : State) : Host.Outcome State Fault Refusal := s.act [Reg.die (.eng m e .ctrl)] (·.regWrite f (.eng m e .ctrl) v)
def execBcnInjectWrite (f : Func) (v : Word) (s : State) : Host.Outcome State Fault Refusal := s.act [Reg.die .bcnInject] (·.regWrite f .bcnInject v)
def execTimerStartWrite (f : Func) (t : TimerId) (v : Word) (s : State) : Host.Outcome State Fault Refusal := s.act [Reg.die (.bcnTmrCtrl t)] (·.regWrite f (.bcnTmrCtrl t) v)
def execTimerStopWrite (f : Func) (t : TimerId) (v : Word) (s : State) : Host.Outcome State Fault Refusal := s.act [Reg.die (.bcnTmrCtrl t)] (·.regWrite f (.bcnTmrCtrl t) v)
def execMigStartWrite (f : Func) (d : DomeId) (v : Word) (s : State) : Host.Outcome State Fault Refusal := s.act [Reg.die (.moorMig d)] (·.regWrite f (.moorMig d) v)
def execFreqGo (f : Func) (d : DomeId) (v : Word) (s : State) : Host.Outcome State Fault Refusal := s.act [Reg.die (.moorFreq d)] (·.regWrite f (.moorFreq d) v)
def execReqShuttered (f : Func) (s : State) : Host.Outcome State Fault Refusal := s.act [Reg.die (.ext .pwrCtrl)] (·.fieldWrite f (.ext .pwrCtrl) PWR_CTRL.REQ 1)
def execReqLit (f : Func) (s : State) : Host.Outcome State Fault Refusal := s.act [Reg.die (.ext .pwrCtrl)] (·.fieldWrite f (.ext .pwrCtrl) PWR_CTRL.REQ 2)
def execReqLaidUp (f : Func) (s : State) : Host.Outcome State Fault Refusal := s.act [Reg.die (.ext .pwrCtrl)] (·.fieldWrite f (.ext .pwrCtrl) PWR_CTRL.REQ 3)
def execPwrResetWrite (f : Func) (s : State) : Host.Outcome State Fault Refusal := s.act [Reg.die (.ext .pwrCtrl)] (·.fieldWrite f (.ext .pwrCtrl) PWR_CTRL.RESET 1)
def execClearAltWrite (f : Func) (v : Word) (s : State) : Host.Outcome State Fault Refusal := s.act [Reg.die (.ext .ledgCtrl)] (·.regWrite f (.ext .ledgCtrl) v)
def execCompactWrite (f : Func) (s : State) : Host.Outcome State Fault Refusal := s.act [Reg.die (.ext .ledgCtrl)] (·.fieldWrite f (.ext .ledgCtrl) LEDG_CTRL.COMPACT 1)

end Sys2Proof.Machine
end

