-- ==== Sys2Proof/Machine/Dispatch.lean ====
section
/-! DEFINITION. The dispatch: each command's own meaning, in the order of the table of operations and events. -/
namespace Sys2Proof.Machine
open Sys2Proof

/-- What a command does to everything but the queue. -/
def exec (i : Instr) (s : State) : Host.Outcome State Fault Refusal :=
  match i with
  | .flitCrcError l ret lane => Sys2Proof.Machine.execFlitCrcError l ret lane s
  | .laneSwapDone l ret trained => Sys2Proof.Machine.execLaneSwapDone l ret trained s
  | .heartbeatSend d => Sys2Proof.Machine.execHeartbeatSend d s
  | .heartbeatMissed d byPeer byMerid => Sys2Proof.Machine.execHeartbeatMissed d byPeer byMerid s
  | .meridianLost m => Sys2Proof.Machine.execMeridianLost m s
  | .loadTable h addr c slot first count => Sys2Proof.Machine.execLoadTable h addr c slot first count s
  | .tableHomeWrite f c home => Sys2Proof.Machine.execTableHomeWrite f c home s
  | .tableMoveDone c => Sys2Proof.Machine.execTableMoveDone c s
  | .swapCancel f c => Sys2Proof.Machine.execSwapCancel f c s
  | .swapTake c => Sys2Proof.Machine.execSwapTake c s
  | .iterationEnd c => Sys2Proof.Machine.execIterationEnd c s
  | .entryRead c entry ecc mirror => Sys2Proof.Machine.execEntryRead c entry ecc mirror s
  | .lookaheadRequest c n => Sys2Proof.Machine.execLookaheadRequest c n s
  | .granuleArrive c n => Sys2Proof.Machine.execGranuleArrive c n s
  | .granuleLate c => Sys2Proof.Machine.execGranuleLate c s
  | .primingDone c => Sys2Proof.Machine.execPrimingDone c s
  | .startInstant c dark => Sys2Proof.Machine.execStartInstant c dark s
  | .markerPulseStart c mk => Sys2Proof.Machine.execMarkerPulseStart c mk s
  | .markerPulseEnd c mk => Sys2Proof.Machine.execMarkerPulseEnd c mk s
  | .jumpEventRegister c ch merged => Sys2Proof.Machine.execJumpEventRegister c ch merged s
  | .jumpTake c => Sys2Proof.Machine.execJumpTake c s
  | .headReadDone c place ok => Sys2Proof.Machine.execHeadReadDone c place ok s
  | .groupOrderReceive c => Sys2Proof.Machine.execGroupOrderReceive c s
  | .freqLoWrite f c k v => Sys2Proof.Machine.execFreqLoWrite f c k v s
  | .freqHiWrite f c k v => Sys2Proof.Machine.execFreqHiWrite f c k v s
  | .chirpCurveStep c => Sys2Proof.Machine.execChirpCurveStep c s
  | .streamAttach h st ctrl region fallback ringLo ringHi cons wmA wmB limit => Sys2Proof.Machine.execStreamAttach h st ctrl region fallback ringLo ringHi cons wmA wmB limit s
  | .streamDetach h st => Sys2Proof.Machine.execStreamDetach h st s
  | .tndAttachWrite f st v => Sys2Proof.Machine.execTndAttachWrite f st v s
  | .tndDetachWrite f st v => Sys2Proof.Machine.execTndDetachWrite f st v s
  | .doorbellPoll d => Sys2Proof.Machine.execDoorbellPoll d s
  | .blockLanded st block => Sys2Proof.Machine.execBlockLanded st block s
  | .blockConsumed st => Sys2Proof.Machine.execBlockConsumed st s
  | .underrunDeclare st => Sys2Proof.Machine.execUnderrunDeclare st s
  | .resumeTest st => Sys2Proof.Machine.execResumeTest st s
  | .keepPositionTest st => Sys2Proof.Machine.execKeepPositionTest st s
  | .streamReentry st => Sys2Proof.Machine.execStreamReentry st s
  | .tndLimitWrite f st v => Sys2Proof.Machine.execTndLimitWrite f st v s
  | .tndWmWrite f st second v => Sys2Proof.Machine.execTndWmWrite f st second v s
  | .streamDrained st => Sys2Proof.Machine.execStreamDrained st s
  | .dacSupplyValid n => Sys2Proof.Machine.execDacSupplyValid n s
  | .darkNFall => Sys2Proof.Machine.execDarkNFall s
  | .darkNRise => Sys2Proof.Machine.execDarkNRise s
  | .rangeGainSwitch c => Sys2Proof.Machine.execRangeGainSwitch c s
  | .rangeResume c => Sys2Proof.Machine.execRangeResume c s
  | .markerSettingApply c mk => Sys2Proof.Machine.execMarkerSettingApply c mk s
  | .biasTick n => Sys2Proof.Machine.execBiasTick n s
  | .biasPdataWrite f b v => Sys2Proof.Machine.execBiasPdataWrite f b v s
  | .biasCtrlWrite f b v => Sys2Proof.Machine.execBiasCtrlWrite f b v s
  | .deglitchTrack b => Sys2Proof.Machine.execDeglitchTrack b s
  | .lookoutMeasure n measured => Sys2Proof.Machine.execLookoutMeasure n measured s
  | .lookoutBlockEnd n => Sys2Proof.Machine.execLookoutBlockEnd n s
  | .cellSwap c => Sys2Proof.Machine.execCellSwap c s
  | .swapNow f c => Sys2Proof.Machine.execSwapNow f c s
  | .bandFound m loop band => Sys2Proof.Machine.execBandFound m loop band s
  | .loopLocked m loop => Sys2Proof.Machine.execLoopLocked m loop s
  | .lockLoss m loop => Sys2Proof.Machine.execLockLoss m loop s
  | .refValid m => Sys2Proof.Machine.execRefValid m s
  | .refLost m => Sys2Proof.Machine.execRefLost m s
  | .dpllBwStep m => Sys2Proof.Machine.execDpllBwStep m s
  | .dpllLock m => Sys2Proof.Machine.execDpllLock m s
  | .refOffsetMeasured m offset => Sys2Proof.Machine.execRefOffsetMeasured m offset s
  | .slewDone m => Sys2Proof.Machine.execSlewDone m s
  | .dpllCmdSlew f m => Sys2Proof.Machine.execDpllCmdSlew f m s
  | .dpllCmdStepSync f m => Sys2Proof.Machine.execDpllCmdStepSync f m s
  | .applyNow f m => Sys2Proof.Machine.execApplyNow f m s
  | .delayWalkStep m k => Sys2Proof.Machine.execDelayWalkStep m k s
  | .syncEdge stamp => Sys2Proof.Machine.execSyncEdge stamp s
  | .syncApply => Sys2Proof.Machine.execSyncApply s
  | .syncFire f m => Sys2Proof.Machine.execSyncFire f m s
  | .measureEcho f m drift => Sys2Proof.Machine.execMeasureEcho f m drift s
  | .twinTrim k residual => Sys2Proof.Machine.execTwinTrim k residual s
  | .clockPresenceLoss k => Sys2Proof.Machine.execClockPresenceLoss k s
  | .failoverSwitchDone k => Sys2Proof.Machine.execFailoverSwitchDone k s
  | .transitEdge input fall stampA stampB => Sys2Proof.Machine.execTransitEdge input fall stampA stampB s
  | .inputStuck input => Sys2Proof.Machine.execInputStuck input s
  | .inputRelease input => Sys2Proof.Machine.execInputRelease input s
  | .interpCalDone m input => Sys2Proof.Machine.execInterpCalDone m input s
  | .engRunStart f m e v => Sys2Proof.Machine.execEngRunStart f m e v s
  | .engRunAbort f m e v => Sys2Proof.Machine.execEngRunAbort f m e v s
  | .enginePairTimeout m e => Sys2Proof.Machine.execEnginePairTimeout m e s
  | .taskInputActivate cons ch extra => Sys2Proof.Machine.execTaskInputActivate cons ch extra s
  | .pendingActivationStart cons => Sys2Proof.Machine.execPendingActivationStart cons s
  | .deliveryComplete ch => Sys2Proof.Machine.execDeliveryComplete ch s
  | .legTimeout ch => Sys2Proof.Machine.execLegTimeout ch s
  | .bcnInjectWrite f v => Sys2Proof.Machine.execBcnInjectWrite f v s
  | .timerStartWrite f t v => Sys2Proof.Machine.execTimerStartWrite f t v s
  | .timerStopWrite f t v => Sys2Proof.Machine.execTimerStopWrite f t v s
  | .timerExpire t => Sys2Proof.Machine.execTimerExpire t s
  | .timerDeferredPublish t => Sys2Proof.Machine.execTimerDeferredPublish t s
  | .evOutPulseEnd j => Sys2Proof.Machine.execEvOutPulseEnd j s
  | .routineStart k => Sys2Proof.Machine.execRoutineStart k s
  | .microwordExecute e ecc => Sys2Proof.Machine.execMicrowordExecute e ecc s
  | .releaseDone k => Sys2Proof.Machine.execReleaseDone k s
  | .waitConditionMet k => Sys2Proof.Machine.execWaitConditionMet k s
  | .waitTimeout k => Sys2Proof.Machine.execWaitTimeout k s
  | .runLimit k => Sys2Proof.Machine.execRunLimit k s
  | .unitOpComplete k unit ok => Sys2Proof.Machine.execUnitOpComplete k unit ok s
  | .regPollRead k => Sys2Proof.Machine.execRegPollRead k s
  | .storeScrubRead e word ecc => Sys2Proof.Machine.execStoreScrubRead e word ecc s
  | .ownerImageWrite => Sys2Proof.Machine.execOwnerImageWrite s
  | .progressReport c => Sys2Proof.Machine.execProgressReport c s
  | .shadowReport c => Sys2Proof.Machine.execShadowReport c s
  | .shadowSilent c => Sys2Proof.Machine.execShadowSilent c s
  | .recoverStoreRewritten c => Sys2Proof.Machine.execRecoverStoreRewritten c s
  | .memRequestArrive d req => Sys2Proof.Machine.execMemRequestArrive d req s
  | .memCommandIssue d p sc => Sys2Proof.Machine.execMemCommandIssue d p sc s
  | .writeDone d id => Sys2Proof.Machine.execWriteDone d id s
  | .refreshInterval d p sc => Sys2Proof.Machine.execRefreshInterval d p sc s
  | .tempRead d p celsius above => Sys2Proof.Machine.execTempRead d p celsius above s
  | .nbrLfsrReseed d p => Sys2Proof.Machine.execNbrLfsrReseed d p s
  | .scrubReadDone d stripe mismatch => Sys2Proof.Machine.execScrubReadDone d stripe mismatch s
  | .caparAlert d p oldest => Sys2Proof.Machine.execCaparAlert d p oldest s
  | .edcFail d p addr uncorrectable => Sys2Proof.Machine.execEdcFail d p addr uncorrectable s
  | .spareRetrainDone d ok => Sys2Proof.Machine.execSpareRetrainDone d ok s
  | .migStartWrite f d v => Sys2Proof.Machine.execMigStartWrite f d v s
  | .migrationStripeDone d => Sys2Proof.Machine.execMigrationStripeDone d s
  | .srIdleTimeout d => Sys2Proof.Machine.execSrIdleTimeout d s
  | .srExit d => Sys2Proof.Machine.execSrExit d s
  | .freqGo f d v => Sys2Proof.Machine.execFreqGo f d v s
  | .freqChangeDone d => Sys2Proof.Machine.execFreqChangeDone d s
  | .pbAccess d b portA portB master ecc => Sys2Proof.Machine.execPbAccess d b portA portB master ecc s
  | .pbWriteRetry d b => Sys2Proof.Machine.execPbWriteRetry d b s
  | .pbTestStart d b => Sys2Proof.Machine.execPbTestStart d b s
  | .pbTestPhaseDone d b bad ecc => Sys2Proof.Machine.execPbTestPhaseDone d b bad ecc s
  | .pbRestoreDone d b => Sys2Proof.Machine.execPbRestoreDone d b s
  | .pbRowCopyDone d b => Sys2Proof.Machine.execPbRowCopyDone d b s
  | .nop h => Sys2Proof.Machine.execNop h s
  | .loadSeg h addr data home len => Sys2Proof.Machine.execLoadSeg h addr data home len s
  | .readSeg h addr data home len => Sys2Proof.Machine.execReadSeg h addr data home len s
  | .loadImage h addr len target => Sys2Proof.Machine.execLoadImage h addr len target s
  | .start h mask entries delay => Sys2Proof.Machine.execStart h mask entries delay s
  | .stop h mask => Sys2Proof.Machine.execStop h mask s
  | .swap h mask entries => Sys2Proof.Machine.execSwap h mask entries s
  | .snapshot h dies at_ t addr => Sys2Proof.Machine.execSnapshot h dies at_ t addr s
  | .snapshotLatch die => Sys2Proof.Machine.execSnapshotLatch die s
  | .snapshotComplete => Sys2Proof.Machine.execSnapshotComplete s
  | .inject h ch info => Sys2Proof.Machine.execInject h ch info s
  | .testPbPass h d b => Sys2Proof.Machine.execTestPbPass h d b s
  | .testLookSelf h lamps => Sys2Proof.Machine.execTestLookSelf h lamps s
  | .testScrubPass h d => Sys2Proof.Machine.execTestScrubPass h d s
  | .testFaultInject h w2 => Sys2Proof.Machine.execTestFaultInject h w2 s
  | .keyEnrollOwner h addr => Sys2Proof.Machine.execKeyEnrollOwner h addr s
  | .keyAttest h addr nonce => Sys2Proof.Machine.execKeyAttest h addr nonce s
  | .keyFuseDark h mask codes => Sys2Proof.Machine.execKeyFuseDark h mask codes s
  | .beginTxn h => Sys2Proof.Machine.execBeginTxn h s
  | .setItems h items => Sys2Proof.Machine.execSetItems h items s
  | .commitImmediate h => Sys2Proof.Machine.execCommitImmediate h s
  | .commitAtUgc h ugc => Sys2Proof.Machine.execCommitAtUgc h ugc s
  | .commitOnChannel h ch => Sys2Proof.Machine.execCommitOnChannel h ch s
  | .txnApply t => Sys2Proof.Machine.execTxnApply t s
  | .rollback h => Sys2Proof.Machine.execRollback h s
  | .ringSetup h report ring func log2 defReport vector coalCount coalTime base => Sys2Proof.Machine.execRingSetup h report ring func log2 defReport vector coalCount coalTime base s
  | .ringTeardown h report ring => Sys2Proof.Machine.execRingTeardown h report ring s
  | .watchdog h period timeout action => Sys2Proof.Machine.execWatchdog h period timeout action s
  | .abortFunction h => Sys2Proof.Machine.execAbortFunction h s
  | .abortChannels h mask => Sys2Proof.Machine.execAbortChannels h mask s
  | .descriptorInvalid ring words => Sys2Proof.Machine.execDescriptorInvalid ring words s
  | .reportPost r => Sys2Proof.Machine.execReportPost r s
  | .msixSend v => Sys2Proof.Machine.execMsixSend v s
  | .coalTimeout r => Sys2Proof.Machine.execCoalTimeout r s
  | .hostLinkDown f => Sys2Proof.Machine.execHostLinkDown f s
  | .hostLinkUp f gen width => Sys2Proof.Machine.execHostLinkUp f gen width s
  | .d3hotEntry f => Sys2Proof.Machine.execD3hotEntry f s
  | .watchdogHeartbeat => Sys2Proof.Machine.execWatchdogHeartbeat s
  | .hostTimeout => Sys2Proof.Machine.execHostTimeout s
  | .dmaReadTimeout ring => Sys2Proof.Machine.execDmaReadTimeout ring s
  | .dmaBadCompletion ring => Sys2Proof.Machine.execDmaBadCompletion ring s
  | .registerWrite f off v be => Sys2Proof.Machine.execRegisterWrite f off v be s
  | .maskedWrite f off v => Sys2Proof.Machine.execMaskedWrite f off v s
  | .rcFieldRead q off => Sys2Proof.Machine.execRcFieldRead q off s
  | .loRegisterRead q off => Sys2Proof.Machine.execLoRegisterRead q off s
  | .voteSweep upsets => Sys2Proof.Machine.execVoteSweep upsets s
  | .featAccept0Write f v => Sys2Proof.Machine.execFeatAccept0Write f v s
  | .dring0EnWrite f v => Sys2Proof.Machine.execDring0EnWrite f v s
  | .rring0EnWrite f v => Sys2Proof.Machine.execRring0EnWrite f v s
  | .startBegin obs => Sys2Proof.Machine.execStartBegin obs s
  | .reqShuttered f => Sys2Proof.Machine.execReqShuttered f s
  | .reqLit f => Sys2Proof.Machine.execReqLit f s
  | .reqLaidUp f => Sys2Proof.Machine.execReqLaidUp f s
  | .laidupExitDone obs => Sys2Proof.Machine.execLaidupExitDone obs s
  | .pwrResetWrite f => Sys2Proof.Machine.execPwrResetWrite f s
  | .resetNLow => Sys2Proof.Machine.execResetNLow s
  | .powerGoodLow pg => Sys2Proof.Machine.execPowerGoodLow pg s
  | .perst f => Sys2Proof.Machine.execPerst f s
  | .dieReturn die => Sys2Proof.Machine.execDieReturn die s
  | .readmitDone n => Sys2Proof.Machine.execReadmitDone n s
  | .ageingLog => Sys2Proof.Machine.execAgeingLog s
  | .ledgerCompactDone ok0 ok1 => Sys2Proof.Machine.execLedgerCompactDone ok0 ok1 s
  | .clearAltWrite f v => Sys2Proof.Machine.execClearAltWrite f v s
  | .compactWrite f => Sys2Proof.Machine.execCompactWrite f s
  | .attKeyGenDone => Sys2Proof.Machine.execAttKeyGenDone s
  | .hatchChallenge => Sys2Proof.Machine.execHatchChallenge s
  | .hatchUnlock token => Sys2Proof.Machine.execHatchUnlock token s
  | .hatchOpenDone => Sys2Proof.Machine.execHatchOpenDone s
  | .hatchBypass tdi => Sys2Proof.Machine.execHatchBypass tdi s
  | .hatchIdcode => Sys2Proof.Machine.execHatchIdcode s
  | .hatchSamplePreload => Sys2Proof.Machine.execHatchSamplePreload s
  | .hatchExtest => Sys2Proof.Machine.execHatchExtest s
  | .smbStatus => Sys2Proof.Machine.execSmbStatus s
  | .smbTemps => Sys2Proof.Machine.execSmbTemps s
  | .smbPower => Sys2Proof.Machine.execSmbPower s
  | .smbCase => Sys2Proof.Machine.execSmbCase s
  | .smbAvail => Sys2Proof.Machine.execSmbAvail s
  | .smbSerial => Sys2Proof.Machine.execSmbSerial s
  | .smbRails => Sys2Proof.Machine.execSmbRails s
  | .smbAlertResponse => Sys2Proof.Machine.execSmbAlertResponse s
  | .railMonitorTrip die rail => Sys2Proof.Machine.execRailMonitorTrip die rail s
  | .telemetryRefresh temps powers rails out => Sys2Proof.Machine.execTelemetryRefresh temps powers rails out s
  | .regTimeout k => Sys2Proof.Machine.execRegTimeout k s
  | .openRowTimeout d p sc bank => Sys2Proof.Machine.execOpenRowTimeout d p sc bank s
  | .dieHeartbeatMissed n => Sys2Proof.Machine.execDieHeartbeatMissed n s

end Sys2Proof.Machine
end

