-- ==== Sys2Proof/Machine/Idle.lean ====
section
/-! DEFINITION. What passes while no command waits: time. -/
namespace Sys2Proof.Machine
open Sys2Proof

/-- On an empty queue the part idles until the next granule edge of a Lamp, for one ACLK cycle at most (DESIGN CHOICE, log entry 5). The samples that pass meanwhile on channels with SAT_EV are
tested for saturation (R127). -/
def State.idle (s : State) : State :=
  let s := s.reachTime s.nextEdgeTime
  (List.finRange 16).foldl (fun s c => if s.isSet (.lantCtrl c) LANT_CTRL.SAT_EV then s.pipeNow (s.walkerOf c) else s) s

end Sys2Proof.Machine
end

