-- ==== Sys2Proof/WellFormed.lean ====
section
/-! DEFINITION. Which commands are well formed: every operand within the range the encoding of its descriptor, register or protocol gives it, and the value of a register write that stands for an operation
of its own carrying the field that makes it that operation. A command that is not well formed cannot be sent: a descriptor that spells one is the row DESCRIPTOR_INVALID (R348). -/
namespace Sys2Proof
open Sys2Proof.Machine

/-- An offset of a word in BAR0, which is 32 MB (R337). -/
def barWord (off : Nat) : Bool := off % 4 == 0 && decide (off < 2 ^ 25)

/-- A field of a written value holds a nonzero code. -/
def asks (f : FieldSpec) (v : Word) : Bool := f.get v != 0

/-- The words a plate access names lie in its bank (R319). -/
def PlateAccess.inBank (b : BankId) : PlateAccess → Bool
  | .none => true
  | .read w => decide (w < bankWords b)
  | .write w _ _ => decide (w < bankWords b)
  | .add64 w _ => decide (w < bankWords b)

/-- A SET item: a 4-aligned offset (R347). -/
def SetItem.wellFormed (i : SetItem) : Bool := i.offset.toNat % 4 == 0

/-- The range of a LOAD_SEG or READ_SEG (R347). -/
def segFields (addr : QWord) (data len : Nat) : Bool :=
  addr.toNat % 64 == 0 && data % 64 == 0 && decide (data < 2 ^ 40) && len % 64 == 0 && decide (0 < len) && decide (len < 2 ^ 32)

/-- The upsets of a sweep name words of BAR0, a lowest bit within the word and a value of the field. -/
def Upset.wellFormed : Upset → Bool
  | .copy off lo _ v => barWord off && decide (lo < 32) && decide (v < 2 ^ (32 - lo))
  | .bit off _ => barWord off

/-- The lanes a host link may use (HST_LINK.WIDTH). -/
def laneCount (n : Nat) : Bool := n == 1 || n == 2 || n == 4 || n == 8 || n == 16

/-- What a start finds: a host link that trains has a lane count. -/
def StartObs.wellFormed (o : StartObs) : Bool := (o.linkWidth[0] == 0 || laneCount o.linkWidth[0]) && (o.linkWidth[1] == 0 || laneCount o.linkWidth[1])

/-- The commands that can be sent. -/
def Instr.wellFormed : Instr → Bool
  | .flitCrcError l ret lane => decide (lane < (linkLanes l ret).1 + (linkLanes l ret).2.1)
  | .laneSwapDone _ _ _ => true
  | .heartbeatSend _ => true
  | .heartbeatMissed _ _ _ => true
  | .meridianLost _ => true
  | .loadTable _ _ _ _ first count => decide (1 ≤ count) && decide (first + count ≤ 16384)
  | .tableHomeWrite _ _ _ => true
  | .tableMoveDone _ => true
  | .swapCancel _ _ => true
  | .swapTake _ => true
  | .iterationEnd _ => true
  | .entryRead _ entry _ _ => decide (entry < 16384)
  | .lookaheadRequest _ _ => true
  | .granuleArrive _ _ => true
  | .granuleLate _ => true
  | .primingDone _ => true
  | .startInstant _ _ => true
  | .markerPulseStart _ _ => true
  | .markerPulseEnd _ _ => true
  | .jumpEventRegister _ _ _ => true
  | .jumpTake _ => true
  | .headReadDone _ _ _ => true
  | .groupOrderReceive _ => true
  | .freqLoWrite _ _ _ _ => true
  | .freqHiWrite _ _ _ _ => true
  | .chirpCurveStep _ => true
  | .streamAttach _ _ ctrl _ _ _ _ _ _ _ _ => asks TND_CTRL.ATTACH ctrl
  | .streamDetach _ _ => true
  | .tndAttachWrite _ _ v => asks TND_CTRL.ATTACH v
  | .tndDetachWrite _ _ v => !asks TND_CTRL.ATTACH v
  | .doorbellPoll _ => true
  | .blockLanded _ _ => true
  | .blockConsumed _ => true
  | .underrunDeclare _ => true
  | .resumeTest _ => true
  | .keepPositionTest _ => true
  | .streamReentry _ => true
  | .tndLimitWrite _ _ _ => true
  | .tndWmWrite _ _ _ _ => true
  | .streamDrained _ => true
  | .dacSupplyValid _ => true
  | .darkNFall => true
  | .darkNRise => true
  | .rangeGainSwitch _ => true
  | .rangeResume _ => true
  | .markerSettingApply _ _ => true
  | .biasTick _ => true
  | .biasPdataWrite _ _ _ => true
  | .biasCtrlWrite _ _ _ => true
  | .deglitchTrack _ => true
  | .lookoutMeasure _ _ => true
  | .lookoutBlockEnd _ => true
  | .cellSwap _ => true
  | .swapNow _ _ => true
  | .bandFound _ _ band => decide (band < 64)
  | .loopLocked _ _ => true
  | .lockLoss _ _ => true
  | .refValid _ => true
  | .refLost _ => true
  | .dpllBwStep _ => true
  | .dpllLock _ => true
  | .refOffsetMeasured _ _ => true
  | .slewDone _ => true
  | .dpllCmdSlew _ _ => true
  | .dpllCmdStepSync _ _ => true
  | .applyNow _ _ => true
  | .delayWalkStep _ _ => true
  | .syncEdge stamp => decide (stamp < 2 ^ 64)
  | .syncApply => true
  | .syncFire _ _ => true
  | .measureEcho _ _ drift => decide (drift.natAbs ≤ 8)
  | .twinTrim _ residual => decide (-128 ≤ residual) && decide (residual ≤ 127)
  | .clockPresenceLoss _ => true
  | .failoverSwitchDone _ => true
  | .transitEdge _ _ stampA stampB => decide (stampA < 2 ^ 64) && decide (stampB < 2 ^ 64)
  | .inputStuck _ => true
  | .inputRelease _ => true
  | .interpCalDone _ _ => true
  | .engRunStart _ _ _ v => asks ENG_CTRL.RUN v
  | .engRunAbort _ _ _ v => !asks ENG_CTRL.RUN v
  | .enginePairTimeout _ _ => true
  | .taskInputActivate _ _ _ => true
  | .pendingActivationStart _ => true
  | .deliveryComplete _ => true
  | .legTimeout _ => true
  | .bcnInjectWrite _ _ => true
  | .timerStartWrite _ _ v => asks BCN_TMRt_CTRL.START v
  | .timerStopWrite _ _ v => asks BCN_TMRt_CTRL.STOP v
  | .timerExpire _ => true
  | .timerDeferredPublish _ => true
  | .evOutPulseEnd _ => true
  | .routineStart _ => true
  | .microwordExecute _ _ => true
  | .releaseDone _ => true
  | .waitConditionMet _ => true
  | .waitTimeout _ => true
  | .runLimit _ => true
  | .unitOpComplete _ _ _ => true
  | .regPollRead _ => true
  | .storeScrubRead e word _ => decide (word < storeWords e)
  | .ownerImageWrite => true
  | .progressReport _ => true
  | .shadowReport _ => true
  | .shadowSilent _ => true
  | .recoverStoreRewritten _ => true
  | .memRequestArrive _ req => req.addr % 64 == 0 && decide (req.addr < 2 ^ 40)
  | .memCommandIssue _ _ _ => true
  | .writeDone _ _ => true
  | .refreshInterval _ _ _ => true
  | .tempRead _ _ _ _ => true
  | .nbrLfsrReseed _ _ => true
  | .scrubReadDone _ _ _ => true
  | .caparAlert _ _ _ => true
  | .edcFail _ _ addr _ => decide (addr < 2 ^ 40)
  | .spareRetrainDone _ _ => true
  | .migStartWrite _ _ v => asks MOOR_MIG.START v
  | .migrationStripeDone _ => true
  | .srIdleTimeout _ => true
  | .srExit _ => true
  | .freqGo _ _ v => asks MOOR_FREQ.GO v
  | .freqChangeDone _ => true
  | .pbAccess _ b portA portB _ _ => portA.inBank b && portB.inBank b
  | .pbWriteRetry _ _ => true
  | .pbTestStart _ _ => true
  | .pbTestPhaseDone _ _ _ _ => true
  | .pbRestoreDone _ _ => true
  | .pbRowCopyDone _ _ => true
  | .nop _ => true
  | .loadSeg _ addr data home len => segFields addr data len && decide (home.val < 3)
  | .readSeg _ addr data home len => segFields addr data len && decide (home.val < 2)
  | .loadImage _ _ len target => decide (len < 2 ^ 32) && decide (target.val < 3)
  | .start _ _ _ delay => decide (delay < 2 ^ 32)
  | .stop _ _ => true
  | .swap _ _ _ => true
  | .snapshot _ _ _ _ _ => true
  | .snapshotLatch _ => true
  | .snapshotComplete => true
  | .inject _ _ _ => true
  | .testPbPass _ _ b => decide (b.val < 6)
  | .testLookSelf _ _ => true
  | .testScrubPass _ _ => true
  | .testFaultInject _ w2 => decide (w2.toNat % 16 ≤ 3)
  | .keyEnrollOwner _ _ => true
  | .keyAttest _ _ _ => true
  | .keyFuseDark _ _ _ => true
  | .beginTxn _ => true
  | .setItems _ items => decide (1 ≤ items.length) && decide (items.length ≤ 6) && items.all SetItem.wellFormed
  | .commitImmediate _ => true
  | .commitAtUgc _ ugc => decide (ugc < 2 ^ 64)
  | .commitOnChannel _ _ => true
  | .txnApply _ => true
  | .rollback _ => true
  | .ringSetup _ report ring _ log2 _ _ _ _ base => ringSound report ring.val log2.val base.toNat
  | .ringTeardown _ _ ring => decide (ring.val ≠ 0)
  | .watchdog _ _ _ action => decide (action.val < 3)
  | .abortFunction _ => true
  | .abortChannels _ _ => true
  | .descriptorInvalid _ _ => true
  | .reportPost _ => true
  | .msixSend _ => true
  | .coalTimeout _ => true
  | .hostLinkDown _ => true
  | .hostLinkUp _ _ width => laneCount width.val
  | .d3hotEntry _ => true
  | .watchdogHeartbeat => true
  | .hostTimeout => true
  | .dmaReadTimeout _ => true
  | .dmaBadCompletion _ => true
  | .registerWrite _ off _ _ => barWord off
  | .maskedWrite _ off _ => barWord off
  | .rcFieldRead _ off => barWord off
  | .loRegisterRead _ off => barWord off
  | .voteSweep upsets => upsets.all Upset.wellFormed
  | .featAccept0Write _ _ => true
  | .dring0EnWrite _ v => asks DRING0_CFG.EN v
  | .rring0EnWrite _ v => asks RRING0_CFG.EN v
  | .startBegin obs => obs.wellFormed
  | .reqShuttered _ => true
  | .reqLit _ => true
  | .reqLaidUp _ => true
  | .laidupExitDone obs => obs.wellFormed
  | .pwrResetWrite _ => true
  | .resetNLow => true
  | .powerGoodLow _ => true
  | .perst _ => true
  | .dieReturn _ => true
  | .readmitDone _ => true
  | .ageingLog => true
  | .ledgerCompactDone _ _ => true
  | .clearAltWrite _ v => asks LEDG_CTRL.CLEAR_ALT v
  | .compactWrite _ => true
  | .attKeyGenDone => true
  | .hatchChallenge => true
  | .hatchUnlock _ => true
  | .hatchOpenDone => true
  | .hatchBypass _ => true
  | .hatchIdcode => true
  | .hatchSamplePreload => true
  | .hatchExtest => true
  | .smbStatus => true
  | .smbTemps => true
  | .smbPower => true
  | .smbCase => true
  | .smbAvail => true
  | .smbSerial => true
  | .smbRails => true
  | .smbAlertResponse => true
  | .railMonitorTrip _ _ => true
  | .telemetryRefresh _ _ _ _ => true
  | .regTimeout _ => true
  | .openRowTimeout _ _ _ _ => true
  | .dieHeartbeatMissed _ => true

end Sys2Proof
end

