-- ==== Sys2Proof/Safety.lean ====
section
/-! DEFINITION. What a sound state and a safe run are, in the terms the statements use. -/
namespace Sys2Proof.Machine
open Sys2Proof

/-- The canonical form of the register table: offsets strictly rising, and no register listed at its reset value. -/
abbrev RegTab.wf (t : List (Reg × Word)) : Prop := t.Pairwise (fun p q => p.1.addr < q.1.addr) ∧ ∀ p ∈ t, p.2 ≠ p.1.reset

/-- The byte memories of the machine, in canonical form: host memory, the MSI-X tables, the data space of each Dome and the cells of each plate bank. -/
abbrev State.MemoriesWf (s : State) : Prop :=
  Memory.wf s.host.mem = true ∧ (∀ f : Func, Memory.wf s.host.bar2[f] = true) ∧ (∀ d : DomeId, Memory.wf s.moor[d].data = true) ∧ ∀ (d : DomeId) (b : BankId), Memory.wf s.plate[d][b].cells = true

/-- Equal machines are equal data: every sparse table of the state is in its canonical form. -/
abbrev State.Canonical (s : State) : Prop := RegTab.wf s.regs ∧ s.MemoriesWf

/-- No die is under test controls (R375): every rule of the manual holds. -/
abbrev State.Ordinary (s : State) : Prop := ∀ d : Die, s.underTest d = false

/-- A run: commands executed one after another, each answering a next state. -/
inductive Runs : State → List Instr → State → Prop where
  | done (s : State) : Runs s [] s
  | more {s t u : State} {c : Instr} {cs : List Instr} : exec c s = .next t → Runs t cs u → Runs s (c :: cs) u

/-- A safe run: it ends, no command of it stopping, in a sound state. -/
def SafeRun (s : State) (cs : List Instr) : Prop := ∃ t, Runs s cs t ∧ t.Canonical

/-! ### How a command completes, and what it leaves as it was -/

/-- The command completes: it answers a next state, and that state is as described. -/
def Completes (c : Instr) (s : State) (post : State → Prop) : Prop := ∃ t, exec c s = .next t ∧ post t

/-- The registers a publication may change: what the fabric counts and shows of deliveries (R242 to R244). -/
def Reg.ofFabric : Reg → Bool
  | .bcnDropOff => true
  | .bcnStatus => true
  | .bcnInflight _ => true
  | .bcnChOvr _ => true
  | _ => false

/-- Every register outside `but` holds what it held. -/
def State.SameRegs (s t : State) (but : Reg → Prop) : Prop := ∀ r, ¬ but r → t.rd r = s.rd r

/-- Every byte of host memory, of BAR2, of both data spaces and of the plate banks reads as it did. -/
def State.SameBytes (s t : State) : Prop :=
  (∀ a, Memory.get t.host.mem a = Memory.get s.host.mem a) ∧ (∀ (f : Func) (a : Nat), Memory.get t.host.bar2[f] a = Memory.get s.host.bar2[f] a)
  ∧ (∀ (d : DomeId) (a : Nat), Memory.get t.moor[d].data a = Memory.get s.moor[d].data a)
  ∧ ∀ (d : DomeId) (b : BankId) (a : Nat), Memory.get t.plate[d][b].cells a = Memory.get s.plate[d][b].cells a

/-! ### Descriptors -/

/-- A descriptor can begin on its ring, and the report ring it names is set up (R344, R348). -/
def State.Fetches (s : State) (h : DescHdr) : Prop := s.canBegin h = true ∧ s.host.rrings[h.reportRing].up = true

/-- The dispatch ring of a descriptor that has completed: its consumer index has passed it, and the descriptors fetched behind it that were done (R344, R345). -/
def State.passedRing (s : State) (h : DescHdr) : DRing :=
  let x := s.host.drings[h.ring]
  { x with fetched := x.fetched.drop 1, began := none, cons := (x.cons + 1) % 2 ^ 64, prod := if x.prod = x.cons then (x.cons + 1) % 2 ^ 64 else x.prod }.pass

/-- The report a descriptor with opcode `code` asks for (R348, R349). -/
def State.reportFor (s : State) (h : DescHdr) (code : Byte) (status detail : Nat) : Report :=
  let x := s.host.drings[h.ring]
  ⟨code, false, x.func, status, h.tag, h.ring, x.cons, x.cons + 1, BitVec.ofNat 64 detail, h.irq⟩

/-- A descriptor has completed with a status: its ring has passed it, and a report is queued where it asks for one or failed (R344, R348, R349); no other ring is changed. -/
def State.Passed (s t : State) (h : DescHdr) (code : Byte) (status detail : Nat) : Prop :=
  let q := s.reportRingOf h
  t.host.drings = s.host.drings.set h.ring (s.passedRing h)
  ∧ t.host.rrings = (if s.host.rrings[q].up ∧ (h.report = true ∨ status ≠ 0) then
      s.host.rrings.set q { s.host.rrings[q] with waiting := s.host.rrings[q].waiting ++ [s.reportFor h code status detail] } else s.host.rrings)

/-! ### Engines -/

/-- A fault of code `code` has ended the run of a keeper's input (R270): it is recorded, and the run counted as abandoned (R267, R285); a transient one (STORE_ECC, REG_TIMEOUT, DMA_ERROR) that RETRY allows leaves the input busy, to restart; any other fails
the routine. -/
def State.RoutineFaulted (s t : State) (k : KeeperId) (i : Fin 16) (code : Nat) : Prop :=
  let again := transient code = true ∧ s.keepers[k].tries[i] < s.fld (.kprCtrl k) KPR_CTRL.RETRY
  t.fld (.kprFault k) KPR_FAULT.CODE = code ∧ t.fld (.kprFault k) KPR_FAULT.INPUT = i.val ∧ t.fld (.kprFault k) KPR_FAULT.ROUTINE = s.boundRoutine k i
  ∧ t.fld (.kprFault k) KPR_FAULT.WORD = s.keepers[k].word % 2 ^ 14
  ∧ t.isSet (.kprStatus k) KPR_STATUS.ABANDONED = true ∧ t.fld (.kprAbandons k) KPR_ABANDONS.COUNT = min KPR_ABANDONS.COUNT.top (s.fld (.kprAbandons k) KPR_ABANDONS.COUNT + 1)
  ∧ t.keepers[k].input = none ∧ t.keepers[k].stack = [] ∧ t.keepers[k].buffer = [] ∧ (∀ j ≠ k, t.keepers[j] = s.keepers[j])
  ∧ (again → t.keepers[k].tries[i] = s.keepers[k].tries[i] + 1 ∧ t.fld (.kprRestarts k) KPR_RESTARTS.COUNT = min KPR_RESTARTS.COUNT.top (s.fld (.kprRestarts k) KPR_RESTARTS.COUNT + 1)
      ∧ t.inputBusy (inputIx k i) = s.inputBusy (inputIx k i) ∧ t.isSet (.kprBind k i) KPR_BINDi.EN = s.isSet (.kprBind k i) KPR_BINDi.EN)
  ∧ (¬ again → t.isSet (.kprBind k i) KPR_BINDi.FAILED = true ∧ t.isSet (.kprBind k i) KPR_BINDi.EN = false ∧ t.isSet (.kprStatus k) KPR_STATUS.FAILED = true ∧ t.inputBusy (inputIx k i) = false)

/-- A mismatch of a channel has been declared by the keeper that shadows it (R280, R281): recorded with its cause, counted, and the channel, where it played or primed, is in FAULT and waits for its recovery. -/
def State.Declared (s t : State) (k : KeeperId) (c : ChanId) (cause : Nat) : Prop :=
  t.fld (.kprShdStatus k) KPR_SHD_STATUS.CHANNEL = c.val ∧ t.fld (.kprShdStatus k) KPR_SHD_STATUS.CAUSE = cause ∧ t.isSet (.kprShdStatus k) KPR_SHD_STATUS.VALID = true
  ∧ t.fld (.kprShdCount k) KPR_SHD_COUNT.COUNT = min KPR_SHD_COUNT.COUNT.top (s.fld (.kprShdCount k) KPR_SHD_COUNT.COUNT + 1)
  ∧ t.shadows[c].walks = false ∧ (∀ j ≠ c, t.shadows[j] = s.shadows[j])
  ∧ (s.chans[c].st = .playing ∨ s.chans[c].st = .priming → t.chans[c].st = .fault)
  ∧ (t.chans[c].st = .fault → t.shadows[c].declared = some t.clock.now ∧ t.fld (.oryFault c) ORY_FAULT.CAUSE = 2 ∧ t.fld (.oryFault c) ORY_FAULT.SHD_CAUSE = cause)

/-! ### Memory ports -/

/-- A port that held position `i` has been retired (R308, R311): the position is lost; the set is FAILED where another was lost already, DEGRADED with MP4 retraining where the spare stands by, UNPROTECTED
otherwise; where no migration will end, the domains of the retired ports are OFF from then on (R25). -/
def State.PortRetired (s t : State) (d : DomeId) (p : PortId) (i : Fin 4) : Prop :=
  let again := ∃ j ∈ s.moor[d].lost, j ≠ i
  t.role d p = 2 ∧ t.isSet (.moorStatus d) MOOR_STATUS.RETIRED = true ∧ i ∈ t.moor[d].lost ∧ (∀ j, j ∈ t.moor[d].lost ↔ j = i ∨ j ∈ s.moor[d].lost)
  ∧ (again → t.setState d = 4) ∧ (¬ again → s.spareFree d = true → t.setState d = 1 ∧ t.moor[d].retrain = true) ∧ (¬ again → s.spareFree d = false → t.setState d = 3)
  ∧ (again ∨ s.spareFree d = false → ∀ q : PortId, t.role d q = 2 → t.domains[domPort d q] = .retired) ∧ t.isSet (.moorMig d) MOOR_MIG.BUSY = false

/-- A walk can enter an entry of a table: the entry is loaded and passes the checks of R47, its segment among them where its home is not lost (R34, R47, R52). -/
abbrev State.Sound (s : State) (t : Table) (i : Nat) : Prop := i < t.len ∧ s.entrySound t (t.entry i) = true

end Sys2Proof.Machine
end

