-- ==== Sys2Proof/Certificates/Slice0/Obligations.lean ====
section
/-! DEFINITION. The statements for the provers. Each docstring names the rules of spec/ a statement rests on. -/
open Sys2Proof Sys2Proof.Machine

/-- A step takes the command at the front of the queue and runs it on the state with the queue's rest. -/
def Obligations.StepRunsFrontCommand : Prop := ∀ (c : Instr) (cs : List Instr) (s : State), step { s with pending := c :: cs } = exec c { s with pending := cs }

/-- R371: at reset no register is listed and every sparse table is in its canonical form; the part is DARK and the queue empty. -/
def Obligations.ResetIsDark : Prop := State.reset.Canonical ∧ State.reset.pending = [] ∧ State.reset.pwr = 0 ∧ (∀ c : ChanId, State.reset.chans[c].st = .idle) ∧ ∀ r : Reg, State.reset.rd r = r.reset

/-- R368: no two registers share an address, every register's address is a word address in its window, and the address names it. -/
def Obligations.OffsetNamesRegister : Prop := (∀ r : Reg, Reg.ofAddr? r.addr = some r ∧ r.addr % 4 = 0 ∧ r.addr < 0x1000000) ∧ ∀ r q : Reg, r.addr = q.addr → r = q

/-- No command touches the queue, and every one of them takes a machine whose sparse tables are in canonical form to such a machine: equal machines stay equal data. A step, the idle tick on an empty
queue among them (log entry 5), keeps the canonical form, and takes one command off the queue. -/
def Obligations.StateStaysCanonical : Prop := 
  (∀ (c : Instr) (s t : State), exec c s = .next t → t.pending = s.pending ∧ (s.Canonical → t.Canonical))
  ∧ (∀ s t : State, step s = .next t → t.pending = s.pending.drop 1 ∧ (s.Canonical → t.Canonical))

/-- Every command answers a next state, in every state and with every operand: no command of the block stops, not even where a die is under test controls (R375; log entry 114). -/
def Obligations.EveryCommandCompletes : Prop := ∀ (c : Instr) (s : State), ∃ t, exec c s = .next t

/-- R369: an address of BAR0 that names a register is decoded and a read of it is answered; one marked reserved reads 0 and ignores writes; any other address of a window (the holding window of R385
apart) completes as an unsupported request, and a write to it is discarded. Each of these commands is said to answer a next state, on conditions of the state and the operands alone:
registerWrite, rcFieldRead. -/
def Obligations.RequestsAreDecoded : Prop := ∀ (s : State) (f : Func) (off : Nat), s.Ordinary → s.bar0Up f = true → off % 4 = 0 → off < 0x1000000 →
  (∀ r, Reg.ofAddr? off = some r → (∃ t w, exec (.rcFieldRead (.func f) off) s = .next t ∧ t.resp = .data w) ∧ ∀ v, ∃ t, exec (.registerWrite f off v 15) s = .next t ∧ t.resp = .none)
  ∧ (Reg.ofAddr? off = none → reservedAddr off = true → exec (.rcFieldRead (.func f) off) s = .next { s with resp := .data 0 } ∧ ∀ v, exec (.registerWrite f off v 15) s = .next { s with resp := .none })
  ∧ (Reg.ofAddr? off = none → reservedAddr off = false → holdingReg off = none →
      exec (.rcFieldRead (.func f) off) s = .next { s with resp := .unsupported } ∧ ∀ v be, exec (.registerWrite f off v be) s = .next { s with resp := .unsupported })

/-- R370, R372, R381: a write of a register with not all byte enables changes only BAD_ACCESS; one of a register of RO and RC fields alone changes no register; one of a plain 32-bit RW register gives
it the value; a masked write gives the half-word its alias names the data bits that its mask names, and keeps the other bits. Each of these commands is said to answer a next state, on conditions
of the state and the operands alone: registerWrite, maskedWrite. -/
def Obligations.RegistersAreWritten : Prop := ∀ (s : State) (f : Func) (r : Reg) (v : Word), s.Ordinary → s.bar0Up f = true →
  let plain := (∃ m, r = .merSyncComp m) ∨ (∃ n, r = .lookThr n) ∨ (∃ c k, r = .winOpen c k) ∨ (∃ c k, r = .winClose c k) ∨ (∃ c k, r = .winDelay c k)
  let gets := fun (c : Instr) (w : Word) => Completes c s (fun t => t.rd r = w ∧ s.SameRegs t (· = r)
    ∧ t = { s with regs := t.regs, resp := .none, copies := t.copies, badPar := t.badPar, power := { s.power with master := t.power.master } })
  (∀ be, be ≠ 15 → Completes (.registerWrite f r.addr v be) s (fun t => t = { s with regs := t.regs, resp := .none } ∧ t.isSet (.glob .regStatus) REG_STATUS.BAD_ACCESS = true ∧ s.SameRegs t (· = .glob .regStatus)))
  ∧ (s.claimed r = false → (∀ g ∈ r.fields, g.access = .ro ∨ g.access = .rc) → Completes (.registerWrite f r.addr v 15) s (fun t =>
      t = { s with regs := t.regs, resp := .none, copies := t.copies, badPar := t.badPar } ∧ s.SameRegs t (fun _ => False)))
  ∧ (plain → s.writeReaches f r = true →
      gets (.registerWrite f r.addr v 15) v
      ∧ gets (.maskedWrite f (0x1000000 + r.addr) v) ((s.rd r &&& ~~~(v >>> 16)) ||| (v &&& 0xFFFF &&& (v >>> 16)))
      ∧ gets (.maskedWrite f (0x1800000 + r.addr) v) ((s.rd r &&& ~~~(v &&& 0xFFFF0000)) ||| ((v <<< 16) &&& (v &&& 0xFFFF0000))))
  ∧ (r.addr < 0x800000 → v >>> 16 = 0 → exec (.maskedWrite f (0x1000000 + r.addr) v) s = .next { s with resp := .none } ∧ exec (.maskedWrite f (0x1800000 + r.addr) v) s = .next { s with resp := .none })

/-- R376, R377: a read of a register with RC fields answers its value and leaves those fields at their reset values, for every reader; a read of a LO register latches its HI registers for its
requester alone, and a read of HI answers what its requester latched. Each of these commands is said to answer a next state, on conditions of the state and the operands alone: rcFieldRead,
loRegisterRead. -/
def Obligations.ReadsClearAndLatch : Prop := ∀ (s : State) (q : Requester) (r : Reg), s.Ordinary → s.canRead q = true → s.halted = false → s.windowUp r.addr = true → s.copies = [] → s.badPar = [] → s.upToNow r = s →
  (r.rcMask ≠ 0 → r.latches = [] → s.latched q r = none → Completes (.rcFieldRead q r.addr) s (fun t =>
      t.resp = .data (s.live (reqFunc q) r) ∧ (∀ g ∈ r.fields, t.fld r g = if g.access = .rc then g.get r.reset else s.fld r g)
      ∧ t = { s with regs := t.regs, resp := t.resp } ∧ s.SameRegs t (· = r)))
  ∧ (r.latches ≠ [] → Completes (.loRegisterRead q r.addr) s (fun t =>
      t.resp = .data ((s.latched q r).getD (s.live (reqFunc q) r)) ∧ (∀ h ∈ r.latches, t.latched q h = some (s.live (reqFunc q) h))
      ∧ (∀ p h, p ≠ q ∨ h ∉ r.latches → t.latched p h = s.latched p h) ∧ t = { s with latches := t.latches, resp := t.resp }))
  ∧ (∀ w, r.rcMask = 0 → r.latches = [] → s.latched q r = some w → exec (.loRegisterRead q r.addr) s = .next { s with resp := .data w })

/-- R379: when all three copies of a voted field differ, the sweep keeps copy 0, sets VOTE_FAIL, records the offset in PARITY_ADDR and publishes; the copies stay as they are until a write of the
field, which makes them one again. Each of these commands is said to answer a next state, on conditions of the state and the operands alone: registerWrite, voteSweep. -/
def Obligations.ThreeCopiesDiffer : Prop := ∀ (s : State) (r : Reg) (g : FieldSpec) (b c : Nat), g ∈ r.fields → g.voted = true → s.badPar = [] →
  b < 2 ^ g.width → c < 2 ^ g.width → s.fld r g ≠ b → s.fld r g ≠ c → b ≠ c → s.copies = [⟨r, g.lo, 1, b⟩, ⟨r, g.lo, 2, c⟩] →
  Completes (.voteSweep []) s (fun t =>
    t.fld r g = s.fld r g ∧ t.isSet (.glob .regStatus) REG_STATUS.VOTE_FAIL = true ∧ t.fld (.glob .parityAddr) PARITY_ADDR.OFFSET = r.addr
    ∧ t.fabric = (((s.raise (.glob .regStatus) REG_STATUS.VOTE_FAIL).setFld (.glob .parityAddr) PARITY_ADDR.OFFSET r.addr).regEvent r REG_STATUS.VOTE_FAIL).fabric
    ∧ t = { s with regs := t.regs, fabric := t.fabric } ∧ s.SameRegs t (fun x => x = .glob .regStatus ∨ x = .glob .parityAddr ∨ x.ofFabric = true))
  ∧ (s.Ordinary → ∀ f v, s.writeReaches f r = true → g ∈ s.taken r 0xFFFFFFFF → ∃ t, exec (.registerWrite f r.addr v 15) s = .next t ∧ t.copies = [])

/-- R378, R380: the sweep corrects one copy that differs by the two that agree, counts it and sets VOTE_CORR; it counts a register with bad parity, records it and lets it act on its stored value;
with nothing upset it changes nothing. Each of these commands is said to answer a next state, on conditions of the state and the operands alone: voteSweep. -/
def Obligations.SweepsVoteAndCheck : Prop := ∀ (s : State) (r : Reg), s.Ordinary →
  (s.copies = [] → s.badPar = [] → exec (.voteSweep []) s = .next s)
  ∧ (s.copies = [] → s.badPar = [] → ∀ g ∈ r.fields, g.voted = true → ∀ (i : Fin 3) (v : Nat), v % 2 ^ g.width ≠ s.fld r g → Completes (.voteSweep [.copy r.addr g.lo i v]) s (fun t =>
      t.fld r g = s.fld r g ∧ t.copies = [] ∧ t.fld (.glob (.voteCorr r.die)) VOTE_CORRd.COUNT = min VOTE_CORRd.COUNT.top (s.fld (.glob (.voteCorr r.die)) VOTE_CORRd.COUNT + 1)
      ∧ t.isSet (.glob .regStatus) REG_STATUS.VOTE_CORR = true ∧ t = { s with regs := t.regs, fabric := t.fabric }
      ∧ s.SameRegs t (fun x => x = .glob .regStatus ∨ x = .glob (.voteCorr r.die) ∨ x.ofFabric = true)))
  ∧ (s.copies = [] → s.badPar = [] → r.hasParity = true → ∀ g ∈ r.fields, g.access ≠ .ro → g.access ≠ .rc → ∀ b : Fin 32, g.lo ≤ b.val → b.val < g.lo + g.width → Completes (.voteSweep [.bit r.addr b]) s (fun t =>
      t.rd r = s.rd r ^^^ (1 <<< b.val) ∧ t.badPar = [r] ∧ t.fld (.glob (.parityErr r.die)) PARITY_ERRd.COUNT = min PARITY_ERRd.COUNT.top (s.fld (.glob (.parityErr r.die)) PARITY_ERRd.COUNT + 1)
      ∧ t.isSet (.glob .regStatus) REG_STATUS.PARITY = true ∧ t.fld (.glob .parityAddr) PARITY_ADDR.OFFSET = r.addr ∧ t = { s with regs := t.regs, fabric := t.fabric, badPar := t.badPar }
      ∧ s.SameRegs t (fun x => x = r ∨ x = .glob .regStatus ∨ x = .glob .parityAddr ∨ x = .glob (.parityErr r.die) ∨ x.ofFabric = true)))

/-- R340, R374, R389: the first write of FEAT_ACCEPT0 accepts the bits offered among those written and closes the negotiation; with BASE among them after ST-13 it completes ST-14, and ST-15 takes the
part to SHUTTERED, or halts it where the epoch tags differ. A later write that asks for the same is ignored, and another sets LOCK_VIOL and VIOL_ADDR. Each of these commands is said to answer a
next state, on conditions of the state and the operands alone: featAccept0Write. -/
def Obligations.FeaturesAreAccepted : Prop := ∀ (s : State) (f : Func) (v : Word), s.Ordinary →
  let r := Reg.glob (.featAccept 0)
  s.writeReaches f r = true →
  let new := v &&& BitVec.ofNat 32 (s.offer 0)
  let complete := new.getLsbD 0 = true ∧ s.fld (.glob .gStart) START.STEP = 13 ∧ s.halted = false
  (s.power.negotiated = false → ¬ complete → Completes (.featAccept0Write f v) s (fun t =>
      t.rd r = new ∧ t = { s with regs := t.regs, resp := .none, power := { s.power with negotiated := true } } ∧ s.SameRegs t (· = r)))
  ∧ (s.power.negotiated = false → complete → s.power.epochOk = true → Completes (.featAccept0Write f v) s (fun t =>
      t.rd r = new ∧ t.power.negotiated = true ∧ t.fld (.glob .gStart) START.STEP = 15 ∧ stepNibble t.steps 14 = 0xE ∧ stepNibble t.steps 15 = 0xE ∧ t.pwr = 2 ∧ t.litReady = true ∧ t.power.running = false
      ∧ (∀ x : Die, s.dieLost[x] = false → t.power.tags[x] = s.fld (.glob .gEpoch) EPOCH.EPOCH ∧ t.power.records[x] = s.fld (.glob .gEpoch) EPOCH.EPOCH)
      ∧ t.sec.vendorFloor = max s.sec.vendorFloor (min 64 s.sec.bootSec) ∧ s.SameBytes t ∧ t.chans = s.chans))
  ∧ (s.power.negotiated = false → complete → s.power.epochOk = false → Completes (.featAccept0Write f v) s (fun t =>
      t.rd r = new ∧ t.power.negotiated = true ∧ t.fld (.glob .gStart) START.STEP = 14 ∧ stepNibble t.steps 14 = 0xE ∧ stepNibble t.steps 15 = 6 ∧ t.halted = true ∧ t.pwr = 2
      ∧ t.fld (.glob .gStart) START.REASON = 15 * 0x100 + 1 ∧ t.power.alert = true ∧ s.SameBytes t ∧ t.chans = s.chans))
  ∧ (s.power.negotiated = true → new = s.rd r → exec (.featAccept0Write f v) s = .next { s with resp := .none })
  ∧ (s.power.negotiated = true → new ≠ s.rd r → Completes (.featAccept0Write f v) s (fun t =>
      t.isSet (.glob .regStatus) REG_STATUS.LOCK_VIOL = true ∧ t.fld (.glob .violAddr) VIOL_ADDR.OFFSET = 0x60 ∧ t = { s with regs := t.regs, resp := .none }
      ∧ s.SameRegs t (fun x => x = .glob .regStatus ∨ x = .glob .violAddr)))

/-- R343, R390: a write of EN = 1 sets ring 0 up with the base, size and function its registers give and the indices its doorbell slots show; with a base not aligned, a size outside 4 to 16, no
doorbell address (0: log entry 21) or, for the dispatch ring, a default report ring that is not set up, it is refused and RING_CFG is set. EN = 0 takes a ring at rest down, and is refused where
RING_TEARDOWN would be. Each of these commands is said to answer a next state, on conditions of the state and the operands alone: dring0EnWrite, rring0EnWrite. -/
def Obligations.RingZeroIsSetUp : Prop := ∀ (s : State) (f : Func) (v : Word), s.Ordinary →
  let d := Reg.glob .dring0Cfg
  let w := Reg.glob .rring0Cfg
  let frame := fun (t : State) => t = { s with regs := t.regs, host := t.host, resp := .none, copies := t.copies, badPar := t.badPar, power := { s.power with master := t.power.master } } ∧ t.host.mem = s.host.mem
    ∧ s.SameRegs t (fun x => x = d ∨ x = w ∨ x = .glob .regStatus ∨ x = .glob .lockedWr)
  (s.writeReaches f d = true → s.isSet d DRING0_CFG.EN = false → DRING0_CFG.EN.get v = 1 →
    let base := s.rd64 (.glob .dring0Lo) (.glob .dring0Hi)
    let n := DRING0_CFG.SIZE_LOG2.get v
    let q : RingId := Fin.ofNat 64 (DRING0_CFG.DEF_RRING.get v)
    let sound := ringAligned base n 64 = true ∧ 4 ≤ n ∧ n ≤ 16 ∧ s.doorbell ≠ 0 ∧ s.host.rrings[q].up = true
    (sound → Completes (.dring0EnWrite f v) s (fun t => frame t ∧ t.isSet d DRING0_CFG.EN = true
        ∧ t.host = (s.updDring 0 (fun _ => ⟨true, Fin.ofNat 2 (DRING0_CFG.FUNC.get v), base, n, q, s.slotAt 0, s.slotAt 0, [], none, []⟩)).host))
    ∧ (¬ sound → Completes (.dring0EnWrite f v) s (fun t => frame t ∧ t.host = s.host ∧ t.isSet d DRING0_CFG.EN = false ∧ t.isSet (.glob .regStatus) REG_STATUS.RING_CFG = true)))
  ∧ (s.writeReaches f d = true → s.isSet d DRING0_CFG.EN = true → s.linkUp s.host.drings[(0 : RingId)].func = true → DRING0_CFG.EN.get v = 0 →
    let rest := s.host.drings[(0 : RingId)].began = none ∧ s.ringStalled 0 = false ∧ s.host.drings[(0 : RingId)].prod = s.host.drings[(0 : RingId)].cons
    (rest → Completes (.dring0EnWrite f v) s (fun t => frame t ∧ t.isSet d DRING0_CFG.EN = false ∧ t.host = (s.updDring 0 (fun _ => HostIf.reset.drings[(0 : RingId)])).host))
    ∧ (¬ rest → Completes (.dring0EnWrite f v) s (fun t => frame t ∧ t.host = s.host ∧ t.isSet d DRING0_CFG.EN = true ∧ t.isSet (.glob .regStatus) REG_STATUS.RING_CFG = true)))
  ∧ (s.writeReaches f w = true → s.isSet w RRING0_CFG.EN = false → RRING0_CFG.EN.get v = 1 →
    let base := s.rd64 (.glob .rring0Lo) (.glob .rring0Hi)
    let n := RRING0_CFG.SIZE_LOG2.get v
    let sound := ringAligned base n 32 = true ∧ 4 ≤ n ∧ n ≤ 16 ∧ s.doorbell ≠ 0
    (sound → Completes (.rring0EnWrite f v) s (fun t => frame t ∧ t.isSet w RRING0_CFG.EN = true
        ∧ t.host = (s.updRring 0 (fun _ => ⟨true, Fin.ofNat 2 (RRING0_CFG.FUNC.get v), base, n, 0, 0, 0, s.slotAt 64, s.slotAt 64, [], 0, none⟩)).host))
    ∧ (¬ sound → Completes (.rring0EnWrite f v) s (fun t => frame t ∧ t.host = s.host ∧ t.isSet w RRING0_CFG.EN = false ∧ t.isSet (.glob .regStatus) REG_STATUS.RING_CFG = true)))
  ∧ (s.writeReaches f w = true → s.isSet w RRING0_CFG.EN = true → s.linkUp s.host.rrings[(0 : RingId)].func = true → RRING0_CFG.EN.get v = 0 →
    (s.isDefault 0 = false → Completes (.rring0EnWrite f v) s (fun t => frame t ∧ t.isSet w RRING0_CFG.EN = false ∧ t.host = (s.updRring 0 (fun _ => HostIf.reset.rrings[(0 : RingId)])).host))
    ∧ (s.isDefault 0 = true → Completes (.rring0EnWrite f v) s (fun t => frame t ∧ t.host = s.host ∧ t.isSet w RRING0_CFG.EN = true ∧ t.isSet (.glob .regStatus) REG_STATUS.RING_CFG = true)))

/-- R395 to R399, R402, R403: a start begins only in DARK. Its steps run in order: either ST-13 is reached, every step ended completed or skipped, and the part waits in DARK for the host; or the
start halts at a step that did not pass, its outcome and reason recorded, SHUTTERED in name and with SMB_ALERT_N asserted. Each of these commands is said to answer a next state, on conditions of
the state and the operands alone: startBegin. -/
def Obligations.StartsRun : Prop := ∀ (s : State) (obs : StartObs),
  (s.pwr ≠ 0 ∨ s.power.running = true → exec (.startBegin obs) s = .next s)
  ∧ (s.pwr = 0 → s.power.running = false → s.halted = false → Completes (.startBegin obs) s (fun t =>
      t.power.resetN = true ∧ (∀ i : Fin 4, t.power.pg[i] = true) ∧ t.host.mem = s.host.mem ∧ t.pending = s.pending
      ∧ ((t.halted = false ∧ t.pwr = 0 ∧ t.power.running = true ∧ t.fld (.glob .gStart) START.STEP = 13
            ∧ ∀ k : Fin 13, stepNibble t.steps (k.val + 1) ∈ (match obs.steps[k.val] with | .passes => if k.val = 2 then [0xE, 0xC, 0xA, 8] else [0xE, 0xC] | .fails => [0xA, 8]))
        ∨ (t.halted = true ∧ t.pwr = 2 ∧ t.power.running = false ∧ t.power.alert = true ∧ t.isSet (.glob .gStart) START.HALTED = true
            ∧ ∃ k : Fin 13, t.fld (.glob .gStart) START.REASON = haltReason (k.val + 1) ∧ stepNibble t.steps (k.val + 1) ∈ [6, 4] ∧ (k.val = 2 ∨ k.val = 8 ∨ obs.steps[k.val] = .fails)
              ∧ ∀ j : Fin 13, j.val < k.val → stepNibble t.steps (j.val + 1) ∈ [0xE, 0xC, 0xA, 8]))))

/-- R374, R406, R412: RESET_N low, a power-good input low and PWR_CTRL.RESET take the part to DARK: every ring, channel, transaction and key opening is gone and the master store lost; the fuses, the
ledger, the flash, host memory and the queue are kept. While the DAC supplies stand, a Lamp whose supply is valid keeps its static dark code; without PG_ANA every register is at its reset value.
Each of these commands is said to answer a next state, on conditions of the state and the operands alone: pwrResetWrite, resetNLow, powerGoodLow. -/
def Obligations.ResetsAreFull : Prop := ∀ s : State,
  let dark := fun (t : State) => t.pwr = 0 ∧ t.power.master = [] ∧ t.power.running = false ∧ (∀ c : ChanId, t.chans[c].st = .idle) ∧ (∀ r : RingId, t.host.drings[r].up = false ∧ t.host.rrings[r].up = false)
    ∧ t.liveTxns = [] ∧ t.sec = { s.sec with challenge := none, opening := false } ∧ t.ledger = { s.ledger with compacting := false, waiting := [] } ∧ t.flash = s.flash ∧ t.host.mem = s.host.mem ∧ t.pending = s.pending
    ∧ ∀ r : Reg, (∀ c, r ≠ .outDark c) → t.rd r = r.reset
  Completes .resetNLow s (fun t => dark t ∧ t.power.resetN = false ∧ t.power.pg = s.power.pg ∧ t.power.dac = s.power.dac)
  ∧ (∀ p : Fin 4, Completes (.powerGoodLow p) s (fun t => dark t ∧ t.power.pg = s.power.pg.set p false ∧ t.power.resetN = s.power.resetN
      ∧ (p = 3 → t.regs = [] ∧ ∀ n : LampId, t.power.dac[n] = false) ∧ (p ≠ 3 → t.power.dac = s.power.dac)))
  ∧ (∀ f, s.Ordinary → s.writeReaches f (.ext .pwrCtrl) = true → Completes (.pwrResetWrite f) s (fun t => dark t ∧ t.resp = .none ∧ t.power.resetN = s.power.resetN ∧ t.power.pg = s.power.pg ∧ t.power.dac = s.power.dac))

/-- R392 to R394, R398, R407: PWR_CTRL.REQ takes the part from LIT to SHUTTERED, every channel that plays, primes or is in FAULT to IDLE; from SHUTTERED to LIT once LIT-ready, at the first granule
edge after the write; and to LAID-UP, with the epoch advanced, both links down and every channel IDLE. A request for the state in force does nothing; any other, and any of a halted part, is
refused with its cause. Each of these commands is said to answer a next state, on conditions of the state and the operands alone: reqShuttered, reqLit, reqLaidUp. -/
def Obligations.PowerRequests : Prop := ∀ (s : State) (f : Func), s.Ordinary → s.writeReaches f (.ext .pwrCtrl) = true →
  let same := fun (t : State) => t.host = s.host ∧ t.streams = s.streams ∧ t.bias = s.bias ∧ s.SameBytes t
  let refused := fun (c : Instr) (cause : Nat) => Completes c s (fun t => t.isSet (.ext .pwrStatus) PWR_STATUS.REFUSED = true ∧ t.fld (.ext .pwrStatus) PWR_STATUS.CAUSE = cause ∧ t.pwr = s.pwr
    ∧ t = { s with regs := t.regs, resp := .none, copies := t.copies, badPar := t.badPar, power := { s.power with master := t.power.master } } ∧ s.SameRegs t (· = .ext .pwrStatus))
  let nothing := fun (c : Instr) => Completes c s (fun t =>
    t = { s with regs := t.regs, resp := .none, copies := t.copies, badPar := t.badPar, power := { s.power with master := t.power.master } } ∧ s.SameRegs t (fun _ => False))
  (s.halted = true → refused (.reqShuttered f) 4 ∧ refused (.reqLit f) 4 ∧ refused (.reqLaidUp f) 4)
  ∧ (s.halted = false → s.pwr = 2 → nothing (.reqShuttered f)) ∧ (s.halted = false → s.pwr = 3 → nothing (.reqLit f))
  ∧ (s.halted = false → s.pwr = 3 → Completes (.reqShuttered f) s (fun t => t.pwr = 2 ∧ t.isSet (.glob .gStart) START.LIT = false ∧ same t
      ∧ ∀ c : ChanId, (s.chans[c].st.busy = true → t.chans[c].st = .idle) ∧ (s.chans[c].st.busy = false → t.chans[c].st = s.chans[c].st)))
  ∧ (s.halted = false → s.pwr = 2 → s.litReady = true → Completes (.reqLit f) s (fun t => t.pwr = 3 ∧ t.isSet (.glob .gStart) START.LIT = true ∧ t.clock = (s.reachGran unitLamp (s.gran unitLamp + 1)).clock ∧ t.chans = s.chans ∧ same t
      ∧ ∀ n : LampId, t.power.litOnce[n] = (s.power.litOnce[n] || s.power.dac[n])))
  ∧ (s.halted = false → s.pwr = 2 → s.litReady = false → refused (.reqLit f) 4)
  ∧ (s.halted = false → s.pwr ≠ 1 → (∃ c : ChanId, s.chans[c].st.busy = true) → refused (.reqLaidUp f) 1)
  ∧ (s.halted = false → s.pwr ≠ 1 → (∀ c : ChanId, s.chans[c].st.busy = false) → (∃ st : StreamId, s.attached st = true) → refused (.reqLaidUp f) 2)
  ∧ (s.halted = false → s.pwr ≠ 1 → (∀ c : ChanId, s.chans[c].st.busy = false) → (∀ st : StreamId, s.attached st = false) → s.liveTxns ≠ [] → refused (.reqLaidUp f) 3)
  ∧ (s.halted = false → 2 ≤ s.pwr → (∀ c : ChanId, s.chans[c].st.busy = false) → (∀ st : StreamId, s.attached st = false) → s.liveTxns = [] → Completes (.reqLaidUp f) s (fun t =>
      t.pwr = 1 ∧ t.fld (.glob .gEpoch) EPOCH.EPOCH = (s.fld (.glob .gEpoch) EPOCH.EPOCH + 1) % 2 ^ 32 ∧ t.power.laidUps = s.power.laidUps + 1 ∧ (∀ g : Func, t.linkUp g = false)
      ∧ (∀ c : ChanId, t.chans[c].st = .idle) ∧ (∀ r : RingId, t.host.drings[r].fetched = []) ∧ (∀ x : DomId, s.domains[x] = .retired → t.domains[x] = .retired) ∧ t.pending = s.pending))

/-- R408, R409: the exit from LAID-UP ends in SHUTTERED, the dies in service at the current epoch and the saved tables back; a step that fails sets EXIT_FAIL and leads to a full start, as the
65,536th entry does. With no exit under way, nothing happens. R410, R411: the heartbeat of a lost Lamp die that returns begins its readmission only with READMIT set: its state is stale and
discarded, its channels IDLE. A readmission that completes puts the die back in service at the current epoch and sets READMITTED. Each of these commands is said to answer a next state, on
conditions of the state and the operands alone: laidupExitDone, dieReturn, readmitDone. -/
def Obligations.ExitsAndReadmissions : Prop := 
  (∀ (s : State) (obs : StartObs),
  (s.isSet (.ext .pwrState) PWR_STATE.EXITING = false → exec (.laidupExitDone obs) s = .next s)
  ∧ (s.isSet (.ext .pwrState) PWR_STATE.EXITING = true → exitFails obs = true → Completes (.laidupExitDone obs) s (fun t =>
      t.pwr = 0 ∧ t.isSet (.ext .pwrStatus) PWR_STATUS.EXIT_FAIL = true ∧ t.host.mem = s.host.mem ∧ t.ledger.records = s.ledger.records ∧ t.pending = s.pending ∧ ∀ c : ChanId, t.chans[c].st = .idle))
  ∧ (s.isSet (.ext .pwrState) PWR_STATE.EXITING = true → exitFails obs = false → 65536 ≤ s.power.laidUps → Completes (.laidupExitDone obs) s (fun t =>
      t.pwr = 0 ∧ t.isSet (.ext .pwrStatus) PWR_STATUS.EXIT_FAIL = false ∧ t.host.mem = s.host.mem ∧ t.ledger.records = s.ledger.records ∧ t.pending = s.pending))
  ∧ (s.isSet (.ext .pwrState) PWR_STATE.EXITING = true → exitFails obs = false → s.power.laidUps < 65536 → Completes (.laidupExitDone obs) s (fun t =>
      t.pwr = 2 ∧ t.isSet (.ext .pwrState) PWR_STATE.EXITING = false ∧ t.fld (.glob .gEpoch) EPOCH.EPOCH = s.fld (.glob .gEpoch) EPOCH.EPOCH ∧ t.power.saved = []
      ∧ (∀ x : Die, t.dieLost[x] = false → t.power.tags[x] = s.fld (.glob .gEpoch) EPOCH.EPOCH ∧ t.power.records[x] = s.fld (.glob .gEpoch) EPOCH.EPOCH)
      ∧ (∀ x : Die, s.dieLost[x] = true → t.dieLost[x] = true) ∧ t.host.mem = s.host.mem ∧ t.pending = s.pending)))
  ∧ (∀ (s : State) (n : LampId),
  let x := Die.ofLamp n
  let returns := s.dieLost[x] = true ∧ s.isSet (.ext .pwrCtrl) PWR_CTRL.READMIT = true ∧ 2 ≤ s.pwr ∧ s.halted = false
  (returns → Completes (.dieReturn x) s (fun t => t.isSet (.ext .pwrStatus) PWR_STATUS.STALE = true ∧ t.power.readmit = s.power.readmit.set n true ∧ t.dieLost = s.dieLost ∧ (∀ c : ChanId, lampOf c = n → t.chans[c].st = .idle)
      ∧ (∀ c : ChanId, lampOf c ≠ n → t.chans[c] = s.chans[c]) ∧ t.host = s.host ∧ s.SameBytes t))
  ∧ (¬ returns → exec (.dieReturn x) s = .next s) ∧ (∀ y : Die, y.val < 4 → exec (.dieReturn y) s = .next s)
  ∧ (s.power.readmit[n] = true → Completes (.readmitDone n) s (fun t => t.dieLost = s.dieLost.set x false ∧ t.isSet (.ext .pwrStatus) PWR_STATUS.READMITTED = true ∧ t.power.readmit = s.power.readmit.set n false
      ∧ t.fld (.ext .pwrExcl) PWR_EXCL.DIES / 2 ^ x.val % 2 = 0 ∧ t.power.tags = s.power.tags.set x (s.fld (.glob .gEpoch) EPOCH.EPOCH) ∧ t.power.records = s.power.records.set x (s.fld (.glob .gEpoch) EPOCH.EPOCH)
      ∧ t.host = s.host ∧ s.SameBytes t))
  ∧ (s.power.readmit[n] = false → exec (.readmitDone n) s = .next s))

/-- R404, R405: 256 hours on, the 48 ageing values join the log in SHUTTERED or LIT. CLEAR_ALT takes the steps it names out of the sticky mask, each with an entry. COMPACT begins a compaction; it
ends with the generation advanced, the last four start records, one entry for each item in force and then the entries that waited, and a copy that fails is marked bad. Each of these commands is
said to answer a next state, on conditions of the state and the operands alone: ageingLog, ledgerCompactDone, clearAltWrite, compactWrite. -/
def Obligations.LedgerIsKept : Prop := ∀ s : State, s.Ordinary →
  (s.pwr < 2 → exec .ageingLog s = .next s)
  ∧ (2 ≤ s.pwr → s.ledger.compacting = false → s.ledger.log.length + 48 + 64 ≤ logSize → Completes .ageingLog s (fun t => ∃ es : List LogEntry, es.length = 48
      ∧ t = { s with ledger := { s.ledger with log := s.ledger.log ++ es } } ∧ (∀ e ∈ es, e.kind = 9 ∧ e.b < 2 ^ 24)
      ∧ (∀ (d : DomeId) (p : PortId), ⟨9, (Die.ofDome d).val, 5 * d.val + p.val, min (2 ^ 24 - 1) (s.fld (.mpAge d p) MP_AGE.HOURS)⟩ ∈ es)
      ∧ (∀ c : ChanId, ⟨9, (Die.ofLamp (lampOf c)).val, 16 + c.val, min (2 ^ 24 - 1) (s.fld (.outState c) OUT_STATE.SWAPS)⟩ ∈ es)
      ∧ ∀ l : LinkId, ⟨9, (linkDies l).1.val, 32 + l.val, min (2 ^ 24 - 1) s.links[l].swaps⟩ ∈ es))
  ∧ (s.ledger.compacting = true → ∀ ok0 ok1, Completes (.ledgerCompactDone ok0 ok1) s (fun t =>
      t.ledger = ⟨s.ledger.generation + 1, s.ledger.records.drop (s.ledger.records.length - 4), inForce s.ledger.log ++ s.ledger.waiting, false, [], s.ledger.sticky⟩
      ∧ t.isSet (.ext .ledgStatus) LEDG_STATUS.COMPACTED = true ∧ (ok0 = false → t.isSet (.ext .ledgStatus) LEDG_STATUS.FLASH0_BAD = true) ∧ (ok1 = false → t.isSet (.ext .ledgStatus) LEDG_STATUS.FLASH1_BAD = true)
      ∧ (ok0 = false ∨ ok1 = false → t.isSet (.ext .ledgStatus) LEDG_STATUS.WRITE_FAIL = true) ∧ t = { s with regs := t.regs, ledger := t.ledger } ∧ s.SameRegs t (· = .ext .ledgStatus)))
  ∧ (s.ledger.compacting = false → ∀ ok0 ok1, exec (.ledgerCompactDone ok0 ok1) s = .next s)
  ∧ (∀ f, s.writeReaches f (.ext .ledgCtrl) = true →
      (∀ v : Word, LEDG_CTRL.COMPACT.get v = 0 → s.ledger.compacting = false → s.ledger.log.length + 15 + 64 ≤ logSize → Completes (.clearAltWrite f v) s (fun t =>
        t.ledger.log = s.ledger.log ++ ((List.range 15).filter (fun k => v.getLsbD k)).map (fun k => ⟨10, s.leader.val, k + 1, 0⟩)
        ∧ (∀ k < 15, t.ledger.sticky.testBit k = (s.ledger.sticky.testBit k && !v.getLsbD k)) ∧ t.ledger.records = s.ledger.records ∧ s.SameBytes t ∧ t.chans = s.chans))
      ∧ Completes (.compactWrite f) s (fun t => t.ledger = { s.ledger with compacting := true } ∧ s.SameBytes t ∧ t.chans = s.chans ∧ s.SameRegs t (fun _ => False)))

/-- R451: before the end of ST-2 the SMBus port NACKs; from then on each Block Read answers the bytes of the table, and changes nothing else. R451: AVAIL_COND as it stands is what its Block Read
answers; the Alert Response Address read releases SMB_ALERT_N and is answered with the part's own address as ST-2 read its straps, and is NACKed where the alert is not asserted. R459: a refresh
gives every die in service its temperature and power, a die that is OFF 0x800 and 0, and every rail its voltage; no byte of memory and no channel changes. Each of these commands is said to answer
a next state, on conditions of the state and the operands alone: smbStatus, smbTemps, smbPower, smbCase, smbAvail, smbSerial, smbRails, smbAlertResponse, telemetryRefresh. -/
def Obligations.SmBusAndTelemetry : Prop := 
  (∀ s : State,
  (s.power.smbUp = false → ∀ c ∈ [Instr.smbStatus, .smbTemps, .smbPower, .smbCase, .smbSerial, .smbRails], exec c s = .next { s with resp := .nack })
  ∧ (s.power.smbUp = true →
      Completes .smbStatus s (fun t => ∃ bs, t = { s with resp := .bytes bs } ∧ bs.length = 8
        ∧ fromBytes (bs.take 4) = (s.live 0 (.ext .pwrState)).toNat ∧ fromBytes (bs.drop 4) = (s.live 0 (.glob .gStart)).toNat)
      ∧ Completes .smbTemps s (fun t => ∃ bs, t = { s with resp := .bytes bs } ∧ bs.length = 16
        ∧ ∀ d : Fin 8, toSigned 16 (fromBytes ((bs.drop (2 * d.val)).take 2)) = toSigned 12 (s.fld (.ext (.telDie d)) TEL_DIEd.TEMP))
      ∧ Completes .smbPower s (fun t => ∃ bs, t = { s with resp := .bytes bs } ∧ bs.length = 16
        ∧ ∀ d : Fin 8, fromBytes ((bs.drop (2 * d.val)).take 2) = s.fld (.ext (.telDie d)) TEL_DIEd.POWER)
      ∧ Completes .smbCase s (fun t => ∃ bs, t = { s with resp := .bytes bs } ∧ bs.length = 4 ∧ fromBytes bs = (s.live 0 (.ext .telCase)).toNat)
      ∧ Completes .smbSerial s (fun t => ∃ bs, t = { s with resp := .bytes bs } ∧ bs.length = 8
        ∧ fromBytes (bs.take 4) = (s.live 0 (.glob .serialLo)).toNat ∧ fromBytes (bs.drop 4) = (s.live 0 (.glob .serialHi)).toNat)
      ∧ Completes .smbRails s (fun t => ∃ bs, t = { s with resp := .bytes bs } ∧ bs.length = 24
        ∧ ∀ j : Fin 12, fromBytes ((bs.drop (2 * j.val)).take 2) = s.fld (.ext (.telRail j)) TEL_RAILj.MV)))
  ∧ (∀ s : State, s.power.smbUp = true →
  Completes .smbAvail s (fun t => t.resp = .bytes (toBytes 4 (t.live 0 (.ext .availCond)).toNat) ∧ t = { s with regs := t.regs, resp := t.resp }
    ∧ s.SameRegs t (fun r => r = .ext .availCond ∨ r = .ext .availLapses))
  ∧ (s.power.alert = true → exec .smbAlertResponse s = .next
      { s with resp := .bytes [BitVec.ofNat 8 ((0x58 + s.power.smbAddr.toNat) * 2)], power := { s.power with alert := false } })
  ∧ (s.power.alert = false → exec .smbAlertResponse s = .next { s with resp := .nack }))
  ∧ (∀ (s : State) (temps powers : Vector (BitVec 12) 8) (rails : Vector (BitVec 16) 12) (out : BitVec 12),
  Completes (.telemetryRefresh temps powers rails out) s (fun t =>
    (∀ d : Die, s.dieUp d = true → t.fld (.ext (.telDie d)) TEL_DIEd.TEMP = temps[d].toNat ∧ t.fld (.ext (.telDie d)) TEL_DIEd.POWER = powers[d].toNat)
    ∧ (∀ d : Die, s.dieUp d = false → t.fld (.ext (.telDie d)) TEL_DIEd.TEMP = 0x800 ∧ t.fld (.ext (.telDie d)) TEL_DIEd.POWER = 0)
    ∧ (∀ j : Fin 12, t.fld (.ext (.telRail j)) TEL_RAILj.MV = rails[j].toNat)
    ∧ t.fld (.ext .telCase) TEL_CASE.WARN = (if ∃ d : Die, s.dieUp d = true ∧ 1600 ≤ temps[d].toInt then 1 else 0)
    ∧ t = { s with regs := t.regs, fabric := t.fabric, power := t.power }
    ∧ s.SameRegs t (fun r => r.ofFabric = true ∨ (∃ d, r = .ext (.telDie d)) ∨ (∃ j, r = .ext (.telRail j)) ∨ r = .ext .telCase ∨ r = .ext .availCond ∨ r = .ext .availLapses)))

/-- R432: BYPASS passes its bit, IDCODE answers, SAMPLE/PRELOAD and EXTEST act as BYPASS unless RESET_N is low; CHALLENGE returns 32 bytes, which are the one valid challenge from then on. R432, R433,
R435: UNLOCK spends the challenge. A good token begins the opening with the erasure mark written; another is refused and counted, the fourth refusal sets LOCKOUT. The opening erases the key pair,
the enrolment and the owner images, counts the opening and shows HATCH_OPEN. Each of these commands is said to answer a next state, on conditions of the state and the operands alone:
hatchChallenge, hatchUnlock, hatchOpenDone, hatchBypass, hatchIdcode, hatchSamplePreload, hatchExtest. -/
def Obligations.HatchAnswersAndOpens : Prop := 
  (∀ s : State,
  (∀ tdi : Bool, exec (.hatchBypass tdi) s = .next { s with resp := .data (if tdi then 1 else 0) })
  ∧ exec .hatchIdcode s = .next { s with resp := .data Config.idcode }
  ∧ (s.power.resetN = true → exec .hatchSamplePreload s = exec (.hatchBypass false) s ∧ exec .hatchExtest s = exec (.hatchBypass false) s)
  ∧ (s.power.resetN = false → ∃ w, exec .hatchSamplePreload s = .next { s with resp := .data w, free := s.free + 1 } ∧ exec .hatchExtest s = exec .hatchSamplePreload s)
  ∧ (s.Ordinary → Completes .hatchChallenge s (fun t => ∃ bs : List Byte, bs.length = 32 ∧ t.resp = .bytes bs
      ∧ t = { s with regs := t.regs, resp := t.resp, free := t.free, sec := { s.sec with challenge := some bs } }
      ∧ t.fld hatchReg SEC_HATCH.STATE = (if s.fld hatchReg SEC_HATCH.STATE = 2 then 2 else 1) ∧ s.SameRegs t (· = hatchReg))))
  ∧ (∀ s : State, s.Ordinary →
  (∀ token, s.tokenGood token = true → Completes (.hatchUnlock token) s (fun t =>
      t = { s with regs := t.regs, resp := .none, sec := { s.sec with challenge := none, erasing := true, opening := true } } ∧ s.SameRegs t (· = hatchReg)))
  ∧ (∀ token, s.tokenGood token = false → Completes (.hatchUnlock token) s (fun t =>
      t = { s with regs := t.regs, resp := .none, fabric := t.fabric, sec := { s.sec with challenge := none } }
      ∧ t.fld hatchReg SEC_HATCH.REFUSALS = min 4 (s.fld hatchReg SEC_HATCH.REFUSALS + 1)
      ∧ t.fld hatchReg SEC_HATCH.LOCKOUT = (if s.fld hatchReg SEC_HATCH.REFUSALS = 3 then 1 else s.fld hatchReg SEC_HATCH.LOCKOUT)
      ∧ s.SameRegs t (fun r => r = hatchReg ∨ r.ofFabric = true)))
  ∧ (s.isSet hatchReg SEC_HATCH.LOCKOUT = true → ∀ token, s.tokenGood token = false)
  ∧ (s.sec.opening = true → Completes .hatchOpenDone s (fun t =>
      t.sec = { s.sec with attKey := none, enrolled := false, erased := true, openings := min 65535 (s.sec.openings + 1), erasing := false, opening := false }
      ∧ t.fld hatchReg SEC_HATCH.STATE = 2 ∧ t.fld hatchReg SEC_HATCH.OPENINGS = min 65535 (s.sec.openings + 1) ∧ t.fld (.ext .secStatus) SEC_STATUS.HATCH_OPEN = 1
      ∧ t.fld (.ext .secStatus) SEC_STATUS.ATT_GEN = 0 ∧ t.ownerNew = none ∧ (∀ k : KeeperId, t.keepers[k].owner = none) ∧ (∀ d : DomeId, t.pb3[d].owner = none)
      ∧ t = { s with regs := t.regs, sec := t.sec, ownerNew := t.ownerNew, pb3 := t.pb3, keepers := t.keepers, fabric := t.fabric }
      ∧ s.SameRegs t (fun r => r = hatchReg ∨ r = .ext .secStatus ∨ (∃ k, r = .kprImage k) ∨ (∃ k i, r = .kprBind k i) ∨ r.ofFabric = true))))

/-- R13 to R16: a CRC error is noted against its lane, and the third within 1 ms declares the lane bad and begins its swap; a swap whose spare has trained uses that spare and is counted. R33: a Dome
in service sends its heartbeat 1 µs after the last. A heartbeat missed by the Meridian alone declares nothing; missed by the other Dome alone, the Dome–Dome link is lost; missed by both, the Dome
is. Each of these commands is said to answer a next state, on conditions of the state and the operands alone: flitCrcError, laneSwapDone, heartbeatSend, heartbeatMissed. -/
def Obligations.LanesAndHeartbeats : Prop := 
  (∀ (s : State) (l : LinkId) (ret : Bool), s.Ordinary → s.links[l].lost = false →
  let recent := fun lane => (s.links[l].dirs[dirOf ret].replays.filter (fun r => s.clock.now < r.2 + qMs)).filter (fun r => r.1 == lane)
  (∀ lane, lane ∉ s.links[l].dirs[dirOf ret].bad → (recent lane).length < 2 → Completes (.flitCrcError l ret lane) s (fun t =>
      t = { s with links := t.links } ∧ (lane, s.clock.now) ∈ t.links[l].dirs[dirOf ret].replays ∧ t.links[l].dirs[dirOf ret].bad = s.links[l].dirs[dirOf ret].bad
      ∧ t.links[l].swapping = s.links[l].swapping ∧ ∀ k ≠ l, t.links[k] = s.links[k]))
  ∧ (∀ lane, lane ∉ s.links[l].dirs[dirOf ret].bad → 2 ≤ (recent lane).length → s.links[l].dirs[dirOf ret].spares < (linkLanes l ret).2.1 → s.links[l].swapping = none →
      Completes (.flitCrcError l ret lane) s (fun t =>
        t = { s with links := t.links } ∧ t.links[l].dirs[dirOf ret].bad = s.links[l].dirs[dirOf ret].bad ++ [lane] ∧ t.links[l].swapping = some (ret, lane) ∧ ∀ k ≠ l, t.links[k] = s.links[k]))
  ∧ (∀ lane, s.links[l].swapping = some (ret, lane) → s.links[l].queued = [] → Completes (.laneSwapDone l ret true) s (fun t =>
      t.links[l].swaps = s.links[l].swaps + 1 ∧ t.links[l].dirs[dirOf ret].spares = s.links[l].dirs[dirOf ret].spares + 1 ∧ t.links[l].swapping = none
      ∧ (∀ k ≠ l, t.links[k] = s.links[k]) ∧ s.SameBytes t ∧ t.chans = s.chans)))
  ∧ (∀ (s : State) (d : DomeId), s.Ordinary →
  (s.dieUp (Die.ofDome d) = true → Completes (.heartbeatSend d) s (fun t =>
      t.clock.now = max s.clock.now (s.beats[d].sent + qUs) ∧ t.beats[d].sent = t.clock.now ∧ t = { s with clock := t.clock, beats := t.beats } ∧ t.beats[twin d] = s.beats[twin d]))
  ∧ (s.dieLost[Die.ofDome d] = false → s.beats[d].missedPeer = false → Completes (.heartbeatMissed d false true) s (fun t =>
      t = { s with clock := t.clock, beats := t.beats } ∧ t.beats[d].missedMerid = true ∧ t.beats[d].missedPeer = false))
  ∧ (s.dieLost[Die.ofDome d] = false → s.beats[d].missedMerid = false → Completes (.heartbeatMissed d true false) s (fun t =>
      t.links[linkDomes].lost = true ∧ t.dieLost = s.dieLost ∧ s.SameBytes t))
  ∧ (s.dieLost[Die.ofDome d] = false → Completes (.heartbeatMissed d true true) s (fun t => t.dieLost = s.dieLost.set (Die.ofDome d) true)))

/-- R31, R35, R442: losses. A Lamp die that is lost is marked so and its channels are IDLE; a rail monitor that trips on a Lamp die also switches its DAC cells off; MERID_B takes the lead when
MERID_A is lost; with the last Meridian lost the part is in DARK. Each of these commands is said to answer a next state, on conditions of the state and the operands alone: meridianLost,
railMonitorTrip, dieHeartbeatMissed. -/
def Obligations.LossesOfDies : Prop := ∀ s : State, s.Ordinary →
  (∀ n : LampId, s.dieLost[Die.ofLamp n] = false → Completes (.dieHeartbeatMissed n) s (fun t =>
      t.dieLost = s.dieLost.set (Die.ofLamp n) true ∧ ∀ c : ChanId, lampOf c = n → t.chans[c].st = .idle))
  ∧ (∀ (n : LampId) (rail : Fin 12), s.dieLost[Die.ofLamp n] = false → Completes (.railMonitorTrip (Die.ofLamp n) rail) s (fun t =>
      t.power.dac[n] = false ∧ t.power.litOnce[n] = false ∧ t.dieLost = s.dieLost.set (Die.ofLamp n) true ∧ ∀ c : ChanId, lampOf c = n → t.chans[c].st = .idle))
  ∧ (∀ (d : DomeId) (rail : Fin 12), s.dieLost[Die.ofDome d] = false → Completes (.railMonitorTrip (Die.ofDome d) rail) s (fun t => t.dieLost = s.dieLost.set (Die.ofDome d) true))
  ∧ (∀ (m : MerId) (rail : Fin 12), rail.val ≠ 0 → exec (.railMonitorTrip (Die.ofMerid m) rail) s = exec (.meridianLost m) s)
  ∧ (∀ m : MerId, Completes (.railMonitorTrip (Die.ofMerid m) 0) s (fun t => t.pwr = 0 ∧ t.host.mem = s.host.mem ∧ ∀ c : ChanId, t.chans[c].st = .idle))
  ∧ (s.dieLost[Die.meridA] = false → s.dieLost[Die.meridB] = false → Completes (.meridianLost 0) s (fun t => t.dieLost[Die.meridA] = true ∧ t.leader = 1))
  ∧ (∀ m : MerId, s.dieLost[Die.ofMerid m] = false → s.dieLost[Die.ofMerid (twin m)] = true → Completes (.meridianLost m) s (fun t =>
      t.pwr = 0 ∧ t.pending = s.pending ∧ t.host.mem = s.host.mem ∧ t.ledger.records = s.ledger.records ∧ ∀ c : ChanId, t.chans[c].st = .idle))

/-- R191 to R193, R203: a band search that ends puts its loop in SETTLE with the band shown; a loop that has settled is LOCKED, and the leading sample loop's lock is followed by the internal
alignment, which sets SYNC_STALE; a lost lock restarts the search, of both loops where the fixed one lost it. R194, R195: REF_IN valid takes the DPLL from FREE to ACQUIRE at 1 kHz and from COAST
to RETURN; REF_IN lost takes it to COAST; the bandwidth steps down one code at a time to BW; the lock test at BW gives LOCKED. R196, R197: in RETURN the measured offset, folded into half a REF_IN
period, is reported; within WINDOW the DPLL slews, beyond it PHASE_BEYOND is set and POLICY decides; a slew that has removed the offset gives LOCKED. Each of these commands is said to answer a
next state, on conditions of the state and the operands alone: bandFound, loopLocked, lockLoss, refValid, refLost, dpllBwStep, dpllLock, refOffsetMeasured, slewDone. -/
def Obligations.LoopsAndDpll : Prop := 
  (∀ (s : State) (m : MerId), s.Ordinary → s.dieLost[Die.ofMerid m] = false →
  (∀ (loop : Fin 2) (band : Nat), band < 64 → s.loopState m loop = 1 → (loop = 0 ∨ s.loopState m 0 = 3) → Completes (.bandFound m loop band) s (fun t =>
      t.loopState m loop = 2 ∧ t.fld (.merState m) (bandField loop) = band ∧ t.loopState m (twin loop) = s.loopState m (twin loop) ∧ t = { s with regs := t.regs } ∧ s.SameRegs t (· = .merState m)))
  ∧ (s.loopState m 0 = 2 → Completes (.loopLocked m 0) s (fun t =>
      t.loopState m 0 = 3 ∧ t.loopState m 1 = s.loopState m 1 ∧ t = { s with regs := t.regs, clock := t.clock } ∧ t.clock.now = s.clock.now ∧ s.SameRegs t (· = .merState m)))
  ∧ (s.loopState m 1 = 2 → m ≠ s.leader → Completes (.loopLocked m 1) s (fun t =>
      t.loopState m 1 = 3 ∧ t.mers[m].gated = s.mers[s.leader].gated ∧ t = { s with regs := t.regs, clock := t.clock, mers := t.mers } ∧ s.SameRegs t (· = .merState m)))
  ∧ (s.loopState m 1 = 2 → m = s.leader → Completes (.loopLocked m 1) s (fun t =>
      t.loopState m 1 = 3 ∧ (∀ i : MerId, t.isSet (.merState i) MER_STATE.SYNC_STALE = true ∧ t.mers[i].gated = false) ∧ s.SameBytes t))
  ∧ (∀ loop : Fin 2, s.loopState m loop = 3 → Completes (.lockLoss m loop) s (fun t =>
      t.loopState m loop = 1 ∧ (loop = 0 → t.loopState m 1 = 1) ∧ (loop = 1 → t.loopState m 0 = s.loopState m 0) ∧ t.fld (.merStatus m) MER_STATUS.LOCK_LOST = 1
      ∧ t = { s with regs := t.regs, clock := t.clock, fabric := t.fabric }
      ∧ s.SameRegs t (fun r => r = .merState m ∨ r = .merStatus m ∨ (∃ i, r = .merSel i ∨ r = .merFov i ∨ r = .merFovTimeLo i ∨ r = .merFovTimeHi i) ∨ r.ofFabric = true))))
  ∧ (∀ (s : State) (m : MerId), s.Ordinary → s.dieLost[Die.ofMerid m] = false →
  (s.loopState m 0 ≠ 0 → Completes (.refValid m) s (fun t =>
      t.mers[m].refValid = true ∧ t.dpll m = (if s.dpll m = 0 then 1 else if s.dpll m = 3 then 4 else s.dpll m) ∧ (s.dpll m = 0 → t.mers[m].acqBw = 12) ∧ (s.dpll m = 3 → t.mers[m].returns = .measuring)
      ∧ t = { s with regs := t.regs, mers := t.mers } ∧ t.mers[twin m] = s.mers[twin m] ∧ s.SameRegs t (· = .merState m)))
  ∧ (s.mers[m].refValid = true → Completes (.refLost m) s (fun t =>
      t.mers[m].refValid = false ∧ t.dpll m = (if s.dpll m = 0 then 0 else 3) ∧ t.fld (.merStatus m) MER_STATUS.REF_LOST = 1
      ∧ t = { s with regs := t.regs, mers := t.mers, fabric := t.fabric } ∧ t.mers[twin m] = s.mers[twin m] ∧ s.SameRegs t (fun r => r = .merState m ∨ r = .merStatus m ∨ r.ofFabric = true)))
  ∧ (s.dpll m = 1 → s.fld (.merDpll m) MER_DPLL.BW < s.mers[m].acqBw → Completes (.dpllBwStep m) s (fun t =>
      t.mers[m] = { s.mers[m] with acqBw := s.mers[m].acqBw - 1 } ∧ t = { s with mers := t.mers } ∧ t.mers[twin m] = s.mers[twin m]))
  ∧ (s.dpll m = 1 → s.mers[m].acqBw ≤ s.fld (.merDpll m) MER_DPLL.BW → Completes (.dpllLock m) s (fun t =>
      t.dpll m = 2 ∧ t = { s with regs := t.regs } ∧ s.SameRegs t (· = .merState m))))
  ∧ (∀ (s : State) (m : MerId), s.Ordinary → s.dieLost[Die.ofMerid m] = false → s.dpll m = 4 →
  (∀ offset : Int, s.mers[m].returns = .measuring →
    let x := foldInto offset (if s.isSet (.merCtrl m) MER_CTRL.REF_FREQ then 40000 else 400000)
    Completes (.refOffsetMeasured m offset) s (fun t =>
      t.rd (.merRefOffset m) = BitVec.ofNat 32 (ofSigned 32 x)
      ∧ (x.natAbs ≤ 400 * s.fld (.merDpll m) MER_DPLL.WINDOW → t.mers[m].returns = .slewing ∧ t.rd (.merStatus m) = s.rd (.merStatus m))
      ∧ (400 * s.fld (.merDpll m) MER_DPLL.WINDOW < x.natAbs → t.fld (.merStatus m) MER_STATUS.PHASE_BEYOND = 1
        ∧ (s.fld (.merDpll m) MER_DPLL.POLICY = 0 → t.mers[m].returns = .slewing) ∧ (s.fld (.merDpll m) MER_DPLL.POLICY = 1 → t.mers[m].returns = .stepAtSync)
        ∧ (s.fld (.merDpll m) MER_DPLL.POLICY = 2 → t.mers[m].returns = .hold))
      ∧ t.dpll m = 4 ∧ t = { s with regs := t.regs, free := t.free, mers := t.mers, fabric := t.fabric } ∧ t.mers[twin m] = s.mers[twin m]
      ∧ s.SameRegs t (fun r => r = .merRefOffset m ∨ r = .merStatus m ∨ r.ofFabric = true)))
  ∧ (s.mers[m].returns = .slewing → Completes (.slewDone m) s (fun t =>
      t.dpll m = 2 ∧ t.mers[m] = { s.mers[m] with returns := .none } ∧ t = { s with regs := t.regs, mers := t.mers } ∧ t.mers[twin m] = s.mers[twin m] ∧ s.SameRegs t (· = .merState m))))

/-- R197, R214, R215: a write of 1 to SLEW or STEP_SYNC acts in HOLD; FIRE on a leading master begins one SYNC_OUT pulse within 100 ns; MEASURE_ECHO on a slave writes the echo delay of the part (log
entry 39), 2.5 to 4.5 ns in 0.25 ps units. R193, R200, R201: the staged values of the leading Meridian are refused as a whole, or take effect as a whole in both windows; a changed M or F restarts
the sample loops with the Lamp outputs gated. R200, R210: a delay walks one step toward the value in force; a residual of the two inputs of any of the ten consumers is measured where both run, is
shown for a Lamp, and beyond half a step MERID_B's delay of that output moves by one step, or the twin input is marked bad at the end of the range (the direction the sign asks for is not stated:
log entry 73). Each of these commands is said to answer a next state, on conditions of the state and the operands alone: dpllCmdSlew, dpllCmdStepSync, applyNow, delayWalkStep, syncFire,
measureEcho, twinTrim. -/
def Obligations.MeridianSettingsApply : Prop := 
  (∀ (s : State) (f : Func) (m : MerId), s.Ordinary →
  (s.writeReaches f (.merDpllCmd m) = true →
    Completes (.dpllCmdSlew f m) s (fun t => t.mers[m].returns = (if s.mers[m].returns = .hold then .slewing else s.mers[m].returns) ∧ t.mers[twin m] = s.mers[twin m] ∧ s.SameBytes t
      ∧ t.chans = s.chans ∧ s.SameRegs t (· = .merDpllCmd m))
    ∧ Completes (.dpllCmdStepSync f m) s (fun t => t.mers[m].returns = (if s.mers[m].returns = .hold then .stepAtSync else s.mers[m].returns) ∧ t.mers[twin m] = s.mers[twin m] ∧ s.SameBytes t
      ∧ t.chans = s.chans ∧ s.SameRegs t (· = .merDpllCmd m)))
  ∧ (s.writeReaches f (.merSyncCtrl m) = true →
    (m = s.leader → s.fld (.merSyncCtrl m) MER_SYNC_CTRL.ROLE = 1 → Completes (.syncFire f m) s (fun t =>
      (∃ d < 100 * qNs, t.mers[m] = { s.mers[m] with fired := some (s.clock.now + d) }) ∧ s.SameBytes t ∧ t.chans = s.chans ∧ s.SameRegs t (· = .merSyncCtrl m)))
    ∧ (¬ (m = s.leader ∧ s.fld (.merSyncCtrl m) MER_SYNC_CTRL.ROLE = 1) → Completes (.syncFire f m) s (fun t => t.mers = s.mers))
    ∧ (∀ drift : Int, s.fld (.merSyncCtrl m) MER_SYNC_CTRL.ROLE = 2 → Completes (.measureEcho f m drift) s (fun t =>
      (t.rd (.merEchoDly m)).toNat = echoShown drift ∧ 10000 ≤ echoShown drift ∧ echoShown drift ≤ 18000 ∧ (10000 ≤ echoDelay + drift → echoDelay + drift ≤ 18000 → (echoShown drift : Int) = echoDelay + drift) ∧ t = { s with regs := t.regs, resp := .none } ∧ s.SameRegs t (· = .merEchoDly m)))
    ∧ (s.fld (.merSyncCtrl m) MER_SYNC_CTRL.ROLE ≠ 2 → ∀ drift : Int, exec (.measureEcho f m drift) s = .next { s with resp := .none })))
  ∧ (∀ (s : State) (f : Func) (m : MerId), s.Ordinary → s.writeReaches f (.merApply m) = true → m = s.leader →
  let x := s.mers[m].staged
  (x.refused = true → Completes (.applyNow f m) s (fun t => t.fld (.merStatus m) MER_STATUS.APPLY_REFUSED = 1 ∧ t.mers = s.mers ∧ t.clock = s.clock ∧ t.chans = s.chans ∧ s.SameBytes t
      ∧ s.SameRegs t (fun r => r = .merStatus m ∨ r = .merApply m)))
  ∧ (x.refused = false → Completes (.applyNow f m) s (fun t =>
      (∀ i : MerId, t.fld (.merSfreq i) MER_SFREQ.M = x.m % 2 ^ 8 ∧ t.fld (.merSfreq i) MER_SFREQ.F = x.f % 2 ^ 24)
      ∧ (∀ (i : MerId) (k : Fin 12), k.val < 10 → t.fld (.merOut i k) MER_OUTk.DIV = x.div[k] % 2 ^ 12 ∧ t.isSet (.merOut i k) MER_OUTk.EN = x.en[k])
      ∧ (∀ k : Fin 12, k.val < 10 → t.fld (.merOut m k) MER_OUTk.DELAY = x.delay[k] % 2 ^ 10)
      ∧ t.isSet (.merApply m) MER_APPLY.AT_SYNC = false
      ∧ ((x.m ≠ s.fld (.merSfreq m) MER_SFREQ.M ∨ x.f ≠ s.fld (.merSfreq m) MER_SFREQ.F) → ∀ i : MerId, t.mers[i].gated = true ∧ (s.loopState i 1 ≠ 0 → t.loopState i 1 = 1))
      ∧ s.SameBytes t)))
  ∧ (∀ s : State, s.Ordinary →
  (∀ (m : MerId) (k : Fin 12), s.dieLost[Die.ofMerid m] = false → Completes (.delayWalkStep m k) s (fun t =>
      let d := s.fld (.merOut m k) MER_OUTk.DELAY
      (s.mers[m].delayNow[k] < d → t.mers[m].delayNow[k] = s.mers[m].delayNow[k] + 1) ∧ (d < s.mers[m].delayNow[k] → t.mers[m].delayNow[k] = s.mers[m].delayNow[k] - 1)
      ∧ (s.mers[m].delayNow[k] = d → t.mers[m].delayNow[k] = d) ∧ t = { s with mers := t.mers } ∧ t.mers[twin m] = s.mers[twin m]))
  ∧ (∀ (k : Fin 10) (residual : Int), ¬ (s.feeds 0 k = true ∧ s.feeds 1 k = true) → exec (.twinTrim k residual) s = .next s)
  ∧ (∀ (k : Fin 10) (residual : Int), -128 ≤ residual → residual ≤ 127 → s.feeds 0 k = true → s.feeds 1 k = true → Completes (.twinTrim k residual) s (fun t =>
      let o : Fin 12 := ⟨k.val, by omega⟩
      let d := s.fld (.merOut 1 o) MER_OUTk.DELAY
      (∀ (n : LampId) (i : MerId), n.val = k.val → toSigned 8 (t.fld (.merTwinCal i n) MER_TWIN_CALn.RESIDUAL) = residual)
      ∧ (residual.natAbs ≤ 8 ∨ s.inUse k = 1 → t = { s with regs := t.regs } ∧ s.SameRegs t (fun r => ∃ (n : LampId) (i : MerId), n.val = k.val ∧ r = .merTwinCal i n))
      ∧ (8 < residual.natAbs → s.inUse k = 0 →
          t.fld (.merOut 1 o) MER_OUTk.DELAY = d + 1 ∨ t.fld (.merOut 1 o) MER_OUTk.DELAY + 1 = d
          ∨ (t.fld (.merOut 1 o) MER_OUTk.DELAY = d ∧ (d = 0 ∨ d = 1023) ∧ t.fld (.merStatus 1) MER_STATUS.TWIN_RANGE = 1 ∧ bitOf (t.fld (.merTwinBad s.leader) MER_TWIN_BAD.BAD) k.val = true))
      ∧ t = { s with regs := t.regs, mers := t.mers, fabric := t.fabric }
      ∧ s.SameRegs t (fun r => (∃ (n : LampId) (i : MerId), n.val = k.val ∧ r = .merTwinCal i n) ∨ (∃ i, r = .merTwinBad i) ∨ r = .merOut 1 o ∨ r = .merStatus 1 ∨ r.ofFabric = true))))

/-- R202, R204, R214: a SYNC edge with ARM set and in time is scheduled where no channel plays or FORCE is set, and refused with SYNC_REFUSED otherwise; without ARM it changes no clock; one that
comes too late sets SYNC_LATE. The scheduled SYNC clears SYNC_STALE and ARM and restarts the grid at its event edge; with ARM clear by then, it leaves the grid alone. Each of these commands is
said to answer a next state, on conditions of the state and the operands alone: syncEdge, syncApply. -/
def Obligations.SyncArmsAndApplies : Prop := ∀ s : State, s.Ordinary →
  (∀ stamp : Nat, stamp < 2 ^ 64 →
    let u := s.reachTime (s.clock.epochAt + stamp)
    let e := u.eventTime stamp
    let role := s.syncFld MER_SYNC_CTRL.ROLE
    s.timebase s.leader = true →
    (role ≠ 3 → 125 * (u.clock.now : Int) < e → s.syncFld MER_SYNC_CTRL.ARM = 1 → s.mers[s.leader].sync = none → s.anyPlays = false ∨ s.syncFld MER_SYNC_CTRL.FORCE = 1 → Completes (.syncEdge stamp) s (fun t =>
        t.mers[s.leader].sync = some ⟨realised e⟩ ∧ t = { s with clock := t.clock, mers := t.mers } ∧ t.clock.now = max s.clock.now (s.clock.epochAt + stamp) ∧ t.clock.tSync = s.clock.tSync))
    ∧ (role ≠ 3 → 125 * (u.clock.now : Int) < e → s.syncFld MER_SYNC_CTRL.ARM = 1 → s.mers[s.leader].sync = none → s.anyPlays = true → s.syncFld MER_SYNC_CTRL.FORCE = 0 → Completes (.syncEdge stamp) s (fun t =>
        t.fld (.merStatus s.leader) MER_STATUS.SYNC_REFUSED = 1 ∧ t.mers[s.leader].sync = none ∧ t.clock.tSync = s.clock.tSync ∧ t = { s with clock := t.clock, regs := t.regs, mers := t.mers, fabric := t.fabric }
        ∧ s.SameRegs t (fun r => r = .merStatus s.leader ∨ (∃ i, r = .merSyncDev i) ∨ r.ofFabric = true)))
    ∧ (role ≠ 3 → 125 * (u.clock.now : Int) < e → s.syncFld MER_SYNC_CTRL.ARM = 0 → Completes (.syncEdge stamp) s (fun t =>
        t = { s with clock := t.clock, regs := t.regs, mers := t.mers } ∧ t.mers[s.leader].sync = s.mers[s.leader].sync ∧ t.clock.tSync = s.clock.tSync ∧ s.SameRegs t (fun r => ∃ i, r = .merSyncDev i)))
    ∧ (role ≠ 3 → e ≤ 125 * (u.clock.now : Int) → Completes (.syncEdge stamp) s (fun t =>
        t.fld (.merStatus s.leader) MER_STATUS.SYNC_LATE = 1 ∧ t = { s with clock := t.clock, regs := t.regs, mers := t.mers } ∧ t.mers[s.leader].sync = s.mers[s.leader].sync
        ∧ s.SameRegs t (fun r => r = .merStatus s.leader ∨ ∃ i, r = .merSyncDev i))))
  ∧ (∀ stamp : Nat, s.timebase s.leader = false → exec (.syncEdge stamp) s = .next s)
  ∧ (s.mers[s.leader].sync = none → exec .syncApply s = .next s)
  ∧ (∀ e : SyncEvent, s.mers[s.leader].sync = some e → s.syncFld MER_SYNC_CTRL.ARM = 0 → Completes .syncApply s (fun t =>
        t.mers[s.leader].sync = none ∧ t.clock.tSync = s.clock.tSync ∧ t.clock.ugcBase = s.clock.ugcBase ∧ t = { s with clock := t.clock, regs := t.regs, mers := t.mers } ∧ s.SameRegs t (fun r => ∃ i, r = .merSyncDev i)))
  ∧ (∀ e : SyncEvent, s.mers[s.leader].sync = some e → s.syncFld MER_SYNC_CTRL.ARM = 1 → s.isSet (.merApply 0) MER_APPLY.AT_SYNC = false → s.isSet (.merApply 1) MER_APPLY.AT_SYNC = false →
      Completes .syncApply s (fun t =>
        t.clock.tSync = e.time ∧ (∀ i : MerId, t.isSet (.merState i) MER_STATE.SYNC_STALE = false ∧ t.fld (.merSyncFine i) MER_SYNC_FINE.FINE = fineOf e.time)
        ∧ t.fld (.merSyncCtrl s.leader) MER_SYNC_CTRL.ARM = 0 ∧ t.mers[s.leader].sync = none ∧ s.SameBytes t))

/-- R211, R213: a consumer of MERID_A that loses its clock runs from the twin from then on, where the twin's output runs and is not marked bad, and counts one failover; the end of the selector's
switch darkens a Lamp to its next granule edge and publishes its CLK_SWITCH, and makes a memory controller issue again what has not completed. Each of these commands is said to answer a next
state, on conditions of the state and the operands alone: clockPresenceLoss, failoverSwitchDone. -/
def Obligations.ClocksFailOver : Prop := ∀ (s : State) (k : Fin 10), s.Ordinary →
  (s.leader = 0 → s.inUse k = 0 → s.feeds 0 k = true → s.feeds 1 k = true → bitOf (s.fld (.merTwinBad 0) MER_TWIN_BAD.BAD) k.val = false → k ∉ s.mers[(0 : MerId)].failed →
      s.mers[(0 : MerId)].spares.toList.contains (some k) = false → Completes (.clockPresenceLoss k) s (fun t =>
        t.inUse k = 1 ∧ (∀ j ≠ k, t.inUse j = s.inUse j) ∧ k ∈ t.mers[(0 : MerId)].failed ∧ t.clock.switching[k] = true
        ∧ t.fld (.merFov 0) MER_FOV.LAST = 2 ^ k.val ∧ t.fld (.merFov 0) MER_FOV.COUNT = min 0xFFFF (s.fld (.merFov 0) MER_FOV.COUNT + 1) ∧ s.SameBytes t ∧ t.chans = s.chans))
  ∧ (s.clock.switching[k] = true → Completes (.failoverSwitchDone k) s (fun t =>
        t.clock.switching[k] = false ∧ (∀ j ≠ k, t.clock.switching[j] = s.clock.switching[j]) ∧ (∀ n : LampId, n.val = k.val → t.clock.foEnd[n] = s.gran n + 1)
        ∧ (∀ n : LampId, n.val ≠ k.val → t.clock.foEnd[n] = s.clock.foEnd[n]) ∧ (∀ d : DomeId, k.val ≠ 4 + d.val → t.moor[d] = s.moor[d])
        ∧ (∀ (d : DomeId) (p : PortId), k.val = 4 + d.val → t.moor[d].ports[p].retry.map (·.seq) = s.moor[d].ports[p].retry.map (·.seq))
        ∧ t = { s with regs := t.regs, free := t.free, clock := t.clock, fabric := t.fabric, moor := t.moor } ∧ s.SameBytes t ∧ s.SameRegs t (fun r => r.ofFabric = true)))
  ∧ (s.clock.switching[k] = false → exec (.failoverSwitchDone k) s = .next s)

/-- R221 to R223, R227: an accepted edge is stamped by each unit in service, which shows its record in the LAST registers; an edge within 4 ns of the one before is missed and counted. Outside the
slot of the log no byte of memory changes. On the internal taps of a channel the edges are those its walk has sent, which are stamped when they fell, the input's offset later, within 435 q (the
bound of the error is the model's choice: log entry 117). In LAID-UP an edge is not stamped. R222, R228: an input at its active level for TIME is stuck and shown so by every unit in service; its
release re-arms it; the sixtieth calibrated input sets ALL_CAL. Each of these commands is said to answer a next state, on conditions of the state and the operands alone: transitEdge, inputStuck,
inputRelease, interpCalDone. -/
def Obligations.TransitStampsInputs : Prop := 
  (∀ (s : State) (i : TrnIn) (fall : Bool) (tA tB : Nat), s.Ordinary → i.val < 60 →
  (isTap i = true → (∀ e ∈ s.taps, e.input ≠ i) → exec (.transitEdge i fall tA tB) s = .next s)
  ∧ (∀ e ∈ s.taps, isTap i = true → e.input = i → (∀ x ∈ s.taps, x.input = i → e.time ≤ x.time ∧ (x.time = e.time → x = e)) →
      s.fld (.trnInCtrl i) TRN_INk_CTRL.EDGE = (if e.fall then 1 else 0) → s.isSet (.trnInStuck i) TRN_INk_STUCK.STUCK = false → s.timebase s.leader = true → Completes (.transitEdge i fall tA tB) s (fun t =>
        t.taps = s.taps.erase e ∧ (∀ m ∈ s.trnUnits, s.timebase m = true → s.transit[m].inputs[i].last = none →
          let x : Int := (e.time : Int) - s.clock.epochAt + toSigned 32 (s.rd (.trnInOff m i)).toNat
          ∃ at_, t.transit[m].inputs[i].last = some at_ ∧ (x - 435).toNat ≤ at_ ∧ at_ ≤ (x + 435).toNat ∧ t.transit[m].seq = (s.transit[m].seq + 1) % 2 ^ 32 ∧ t.rd (.trnInLast m i 0) = BitVec.ofNat 32 at_)
        ∧ t.host.mem = s.host.mem ∧ t.moor = s.moor ∧ t.chans = s.chans))
  ∧ (s.laidInput i = true → s.fld (.trnInCtrl i) TRN_INk_CTRL.EDGE = (if fall then 1 else 0) → s.isSet (.trnInStuck i) TRN_INk_STUCK.STUCK = false → s.transit[s.leader].inputs[i].last = none →
      Completes (.transitEdge i fall tA tB) s (fun t =>
        t.transit[s.leader].inputs[i].last = some (ceilDiv (if s.leader = 0 then tA else tB) qAclk * qAclk) ∧ (∀ m, t.transit[m].seq = s.transit[m].seq ∧ ∀ w, t.rd (.trnInLast m i w) = s.rd (.trnInLast m i w))
        ∧ s.SameBytes t ∧ t.chans = s.chans))
  ∧ (isTap i = false → s.fld (.trnInCtrl i) TRN_INk_CTRL.EDGE = (if fall then 1 else 0) → s.isSet (.trnInStuck i) TRN_INk_STUCK.STUCK = false → s.laidInput i = false → s.timebase s.leader = true →
  Completes (.transitEdge i fall tA tB) s (fun t =>
    (∀ m ∈ s.trnUnits, s.timebase m = true → s.transit[m].inputs[i].last = none →
      let at_ := if m = 0 then tA else tB
      t.transit[m].inputs[i].last = some at_ ∧ t.transit[m].inputs[i].missed = 0 ∧ t.transit[m].seq = (s.transit[m].seq + 1) % 2 ^ 32
      ∧ t.rd (.trnInLast m i 0) = BitVec.ofNat 32 at_ ∧ t.rd (.trnInLast m i 1) = BitVec.ofNat 32 (at_ / 2 ^ 32) ∧ t.rd (.trnInLast m i 3) = BitVec.ofNat 32 s.transit[m].seq)
    ∧ (∀ m ∈ s.trnUnits, s.timebase m = true → ∀ l, s.transit[m].inputs[i].last = some l → (if m = 0 then tA else tB) < l + 24576 →
      t.transit[m].inputs[i].last = some l ∧ t.transit[m].inputs[i].missed = s.transit[m].inputs[i].missed + 1 ∧ t.transit[m].seq = s.transit[m].seq
      ∧ t.fld (.trnInMissed m i) TRN_INk_MISSED.COUNT = min TRN_INk_MISSED.COUNT.top (s.fld (.trnInMissed m i) TRN_INk_MISSED.COUNT + 1))
    ∧ t.host.mem = s.host.mem ∧ t.moor = s.moor ∧ t.chans = s.chans
    ∧ (∀ (d : DomeId) (b : BankId) (a : Nat),
        let a0 := s.fld .trnLogCtrl TRN_LOG_CTRL.BASE * 4096 + s.fld .trnLogWr TRN_LOG_WR.INDEX * 16
        ¬ (d = s.logHome ∧ b = 4 ∧ a0 ≤ a ∧ a < a0 + 16) → Memory.get t.plate[d][b].cells a = Memory.get s.plate[d][b].cells a))))
  ∧ (∀ (s : State) (i : TrnIn), s.Ordinary →
  (s.stuckRuns i = true → s.isSet (.trnInStuck i) TRN_INk_STUCK.STUCK = false → Completes (.inputStuck i) s (fun t =>
      t.isSet (.trnInStuck i) TRN_INk_STUCK.STUCK = true ∧ (∀ m ∈ s.trnUnits, t.transit[m].inputs[i].stuck = true ∧ t.fld (.trnStatus m) TRN_STATUS.STUCK = 1)
      ∧ t = { s with regs := t.regs, transit := t.transit, fabric := t.fabric }
      ∧ s.SameRegs t (fun r => r = .trnInStuck i ∨ (∃ m, r = .trnStatus m ∨ r = .trnStuck0 m ∨ r = .trnStuck1 m) ∨ r.ofFabric = true)))
  ∧ (s.isSet (.trnInStuck i) TRN_INk_STUCK.STUCK = true → Completes (.inputRelease i) s (fun t =>
      t.isSet (.trnInStuck i) TRN_INk_STUCK.STUCK = false ∧ (∀ m ∈ s.trnUnits, t.transit[m].inputs[i].stuck = false ∧ t.fld (.trnStatus m) TRN_STATUS.RELEASED = 1)
      ∧ t = { s with regs := t.regs, transit := t.transit } ∧ s.SameRegs t (fun r => r = .trnInStuck i ∨ ∃ m, r = .trnStatus m ∨ r = .trnStuck0 m ∨ r = .trnStuck1 m)))
  ∧ (∀ m : MerId, s.dieLost[Die.ofMerid m] = false → s.timebase m = true → Completes (.interpCalDone m i) s (fun t =>
      i.val ∈ t.transit[m].cal ∧ (∀ j, j ∈ t.transit[m].cal ↔ j ∈ s.transit[m].cal ∨ j = i.val) ∧ ((∀ j < 60, j ∈ t.transit[m].cal) → t.fld (.trnCal m) TRN_CAL.ALL_CAL = 1)
      ∧ t = { s with regs := t.regs, transit := t.transit } ∧ t.transit[twin m] = s.transit[twin m] ∧ s.SameRegs t (· = .trnCal m))))

/-- R234, R236: a write of RUN = 1 clears the counts and accumulators and starts a run; RUN = 0 aborts it without DONE, the results kept; a pair that is not completed within the timeout counts in
ENG_OTHER and the engine is re-armed. Each of these commands is said to answer a next state, on conditions of the state and the operands alone: engRunStart, engRunAbort, enginePairTimeout. -/
def Obligations.StatisticsRuns : Prop := ∀ (s : State) (f : Func) (m : MerId) (e : EngId), s.Ordinary →
  (∀ v : Word, ENG_CTRL.RUN.get v = 1 → s.writeReaches f (.eng m e .ctrl) = true → Completes (.engRunStart f m e v) s (fun t =>
      t.engBusy m e = true ∧ t.rd (.eng m e .count) = 0 ∧ t.rd (.eng m e .unres) = 0 ∧ t.rd (.eng m e .order) = 0 ∧ t.rd (.eng m e .other) = 0
      ∧ t.transit[m].engines[e] = ⟨none, 0, 0, 0, 0, 0, false⟩ ∧ (∀ x ≠ e, t.transit[m].engines[x] = s.transit[m].engines[x]) ∧ t.transit[twin m] = s.transit[twin m] ∧ s.SameBytes t ∧ t.chans = s.chans
      ∧ s.SameRegs t (fun r => r = .eng m e .ctrl ∨ r = .eng m e .status ∨ r = .eng m e .count ∨ r = .eng m e .unres ∨ r = .eng m e .order ∨ r = .eng m e .other ∨ r = .glob .lockedWr)))
  ∧ (∀ v : Word, ENG_CTRL.RUN.get v = 0 → s.writeReaches f (.eng m e .ctrl) = true → Completes (.engRunAbort f m e v) s (fun t =>
      t.engBusy m e = false ∧ t.fld (.eng m e .status) ENG_STATUS.DONE = s.fld (.eng m e .status) ENG_STATUS.DONE ∧ t.transit[m].engines[e].edge = none ∧ t.transit[m].engines[e].count = s.transit[m].engines[e].count
      ∧ s.SameBytes t ∧ t.chans = s.chans ∧ s.SameRegs t (fun r => r = .eng m e .ctrl ∨ r = .eng m e .status ∨ r = .glob .lockedWr)))
  ∧ (s.dieLost[Die.ofMerid m] = false → s.engBusy m e = true → s.fld (.eng m e .ctrl) ENG_CTRL.MODE = 1 → s.transit[m].engines[e].edge ≠ none → s.transit[m].engines[e].ended = false →
      Completes (.enginePairTimeout m e) s (fun t =>
        t.transit[m].engines[e] = { s.transit[m].engines[e] with edge := none } ∧ t.engBusy m e = true ∧ t.fld (.eng m e .other) ENG_OTHER.COUNT = min ENG_OTHER.COUNT.top (s.fld (.eng m e .other) ENG_OTHER.COUNT + 1)
        ∧ t = { s with regs := t.regs, transit := t.transit } ∧ s.SameRegs t (· = .eng m e .other)))

/-- R238: channel 0 is the null channel: a publication on it changes nothing, and a consumer whose channel field is 0 is not subscribed. -/
def Obligations.ChannelZeroIsNull : Prop := ∀ s : State,
  (∀ p : Payload, s.deliver 0 p = s) ∧ (∀ (src : Source) (info : Nat) (r : Option StampRec), s.publishOn src 0 info r = s)
  ∧ (∀ i : ConsId, s.fld (.bcnCons i) BCN_CONSi.CH = 0 → s.consChannel i = none) ∧ ∀ i : ConsId, s.consChannel i ≠ some 0

/-- R253, R242, R244: a write to BCN_INJECT publishes on its channel as source INJECT of the leading Meridian with INFO in the information word; where a delivery is in flight on the channel it merges
and is counted, and the delivery stays that of the publication that began it, save where the arbiter of R244 prefers the lower source of the same instant; an injection on channel 0 is discarded.
Each of these commands is said to answer a next state, on conditions of the state and the operands alone: bcnInjectWrite. -/
def Obligations.InjectPublishes : Prop := ∀ (s : State) (f : Func) (v : Word), s.Ordinary → s.writeReaches f .bcnInject = true → s.isSet (Source.reg' (.inject s.leader)) BCN_SRCs.EN = true →
  s.sourceAlive (Source.num (.inject s.leader)) = true →
  let ch : BeaconCh := Fin.ofNat 256 (BCN_INJECT.CH.get v)
  (ch ≠ 0 → s.delivery ch = none → Completes (.bcnInjectWrite f v) s (fun t => (∃ d, t.delivery ch = some d ∧ d.payload = ⟨Source.num (.inject s.leader), BitVec.ofNat 32 (BCN_INJECT.INFO.get v), none⟩)
      ∧ s.SameBytes t ∧ t.chans = s.chans ∧ s.SameRegs t (fun r => r = .bcnInject ∨ r.ofFabric = true)))
  ∧ (ch ≠ 0 → s.delivery ch ≠ none → Completes (.bcnInjectWrite f v) s (fun t => t.fld (.bcnChOvr ch) BCN_CHc_OVR.COUNT = min BCN_CHc_OVR.COUNT.top (s.fld (.bcnChOvr ch) BCN_CHc_OVR.COUNT + 1)
      ∧ t.fld .bcnStatus BCN_STATUS.CH_MERGE = 1 ∧ (∀ c ≠ ch, t.delivery c = s.delivery c)
      ∧ (∀ d, s.delivery ch = some d → ∃ e, t.delivery ch = some e ∧ e.waiting = d.waiting ∧ e.born = d.born
          ∧ (d.born ≠ s.clock.now ∨ d.taken = true ∨ d.payload.src ≤ Source.num (.inject s.leader) → e.payload = d.payload))))
  ∧ (ch = 0 → Completes (.bcnInjectWrite f v) s (fun t => t.fabric = s.fabric ∧ s.SameRegs t (· = .bcnInject)))

/-- R242, R243: a delivery ends when every handshake has returned to zero; a leg that has not is completed by the hub and counted. Deliveries on other channels stay. R245 to R247: a delivery that
reaches a task input is acknowledged; a busy input counts an overrun and keeps one activation pending; an idle one starts what it drives: an event output, a timer, a vector, a keeper routine or
an armed transaction. R247: the pending activation of an input that is no longer busy starts its task, and is pending no more. R249: a pulse on an event output ends at its time and its input is
no longer busy, unless an activation waits, which starts a new pulse. Each of these commands is said to answer a next state, on conditions of the state and the operands alone: taskInputActivate,
pendingActivationStart, deliveryComplete, legTimeout, evOutPulseEnd. -/
def Obligations.DeliveriesReachConsumers : Prop := 
  (∀ (s : State) (ch : BeaconCh) (d : Delivery), s.Ordinary → s.delivery ch = some d →
  (d.waiting = [] → Completes (.deliveryComplete ch) s (fun t => t.delivery ch = none ∧ (∀ c ≠ ch, t.delivery c = s.delivery c) ∧ t = { s with regs := t.regs, fabric := t.fabric }
      ∧ s.SameRegs t (fun r => ∃ w, r = .bcnInflight w)))
  ∧ (d.waiting ≠ [] → exec (.deliveryComplete ch) s = .next s)
  ∧ Completes (.legTimeout ch) s (fun t => t.delivery ch = none ∧ (∀ c ≠ ch, t.delivery c = s.delivery c)
      ∧ t.fld .bcnLegTimeout BCN_LEG_TIMEOUT.COUNT = min BCN_LEG_TIMEOUT.COUNT.top (s.fld .bcnLegTimeout BCN_LEG_TIMEOUT.COUNT + max 1 d.waiting.length)
      ∧ t.fld .bcnStatus BCN_STATUS.LEG_TIMEOUT = 1 ∧ t = { s with regs := t.regs, fabric := t.fabric } ∧ s.SameRegs t (fun r => (∃ w, r = .bcnInflight w) ∨ r = .bcnLegTimeout ∨ r = .bcnStatus)))
  ∧ (∀ (s : State) (i : ConsId) (ch : BeaconCh) (extra : Nat) (d : Delivery), s.Ordinary → s.delivery ch = some d → Consumer.task i ∈ d.waiting →
  let idle := s.inputBusy i = false ∧ s.inputPending i = false
  (¬ idle → Completes (.taskInputActivate i ch extra) s (fun t =>
      (∃ e, t.delivery ch = some e ∧ e.waiting = d.waiting.filter (· ≠ .task i)) ∧ t.inputPending i = true
      ∧ t.fld (.bcnConsOvr i) BCN_CONSi_OVR.COUNT = min BCN_CONSi_OVR.COUNT.top (s.fld (.bcnConsOvr i) BCN_CONSi_OVR.COUNT + 1) ∧ t.fld .bcnStatus BCN_STATUS.CONS_OVR = 1
      ∧ (extra ≠ 0 → t.fld (.bcnConsMerged i) BCN_CONSi_MERGED.COUNT = min BCN_CONSi_MERGED.COUNT.top (s.fld (.bcnConsMerged i) BCN_CONSi_MERGED.COUNT + 1))
      ∧ t = { s with regs := t.regs, fabric := t.fabric } ∧ s.SameRegs t (fun r => r = .bcnConsStat i ∨ r = .bcnConsOvr i ∨ r = .bcnConsMerged i ∨ r = .bcnStatus)))
  ∧ (idle → Completes (.taskInputActivate i ch extra) s (fun t =>
      (∃ e, t.delivery ch = some e ∧ e.waiting = d.waiting.filter (· ≠ .task i))
      ∧ (∀ j : EvOutId, i = consOfEvOut j → t.fabric.evOut[j] =
          (if s.isSet (.bcnEvout j) BCN_EVOUTj.MODE then { s.fabric.evOut[j] with active := !s.fabric.evOut[j].active } else ⟨true, some (s.clock.now + s.alwaysOn (s.evWidth j * q25))⟩))
      ∧ (∀ x : TimerId, i = consOfTimer x → t.isSet (.bcnTmrCtrl x) BCN_TMRt_CTRL.RUNNING = true ∧ t.fabric.timers[x].start = s.clock.now ∧ t.fabric.timers[x].ticks = 0)
      ∧ (∀ v : Fin 128, i = consOfVector v → t.inputBusy i = true)
      ∧ (∀ (k : KeeperId) (x : Fin 16), i = inputIx k x → s.isSet (.kprBind k x) KPR_BINDi.EN = true → s.ownerHeld k x = false → t.inputBusy i = true ∧ t.fabric.payloads[16 * k.val + x.val] = some d.payload)
      ∧ (∀ (k : KeeperId) (x : Fin 16), i = inputIx k x → s.isSet (.kprBind k x) KPR_BINDi.EN = true → s.ownerHeld k x = true → t.inputPending i = true ∧ t.heldPayload i = some d.payload)
      ∧ (∀ (x : TxnId) (c : BeaconCh), i.val = 208 + x.val → s.host.txns[x].phase = .armed c → t.host.txns[x].phase = .due (s.edgeAfter unitLamp (s.clock.now + qUs)) ∧ t.inputBusy i = true)
      ∧ (i = consWake → s.pwr = 1 → t.isSet (.ext .pwrState) PWR_STATE.EXITING = true ∧ t.isSet (.ext .pwrState) PWR_STATE.WAKE_VALID = true
          ∧ t.fld (.ext .pwrState) PWR_STATE.WAKE_SRC = d.payload.src % 1024)
      ∧ s.SameBytes t ∧ t.chans = s.chans)))
  ∧ (∀ (s : State) (i : ConsId), s.Ordinary →
  (s.inputPending i = true → s.inputBusy i = false → Completes (.pendingActivationStart i) s (fun t =>
      ((∀ (k : KeeperId) (x : Fin 16), i = inputIx k x → s.ownerHeld k x = false) → t.inputPending i = false)
      ∧ (∀ (k : KeeperId) (x : Fin 16), i = inputIx k x → s.isSet (.kprBind k x) KPR_BINDi.EN = true → s.ownerHeld k x = false → t.inputBusy i = true ∧ t.fabric.payloads[16 * k.val + x.val] = s.heldPayload i)
      ∧ (∀ j : EvOutId, i = consOfEvOut j → t.fabric.evOut[j].active = (if s.isSet (.bcnEvout j) BCN_EVOUTj.MODE then !s.fabric.evOut[j].active else true))
      ∧ (∀ x : TimerId, i = consOfTimer x → t.isSet (.bcnTmrCtrl x) BCN_TMRt_CTRL.RUNNING = true ∧ t.fabric.timers[x].start = s.clock.now)
      ∧ s.SameBytes t ∧ t.chans = s.chans))
  ∧ (¬ (s.inputPending i = true ∧ s.inputBusy i = false) → exec (.pendingActivationStart i) s = .next s))
  ∧ (∀ (s : State) (j : EvOutId) (e : Nat), s.Ordinary → s.fabric.evOut[j].ends = some e →
  Completes (.evOutPulseEnd j) s (fun t =>
    t.clock.now = max s.clock.now e ∧ t.inputPending (consOfEvOut j) = false
    ∧ (s.inputPending (consOfEvOut j) = false → t.fabric.evOut[j] = ⟨false, none⟩ ∧ t.inputBusy (consOfEvOut j) = false)
    ∧ (s.inputPending (consOfEvOut j) = true → t.fabric.evOut[j].active = true)
    ∧ (∀ k ≠ j, t.fabric.evOut[k] = s.fabric.evOut[k]) ∧ t = { s with regs := t.regs, clock := t.clock, fabric := t.fabric } ∧ s.SameRegs t (· = .bcnConsStat (consOfEvOut j))))

/-- R248: a write of 1 to START starts or restarts a timer; a write of 1 to STOP stops it and discards a pending activation; an instant publishes unless it falls within MINP of the publication
before, which defers it; in ONE_SHOT the timer stops when it has published. Each of these commands is said to answer a next state, on conditions of the state and the operands alone:
timerStartWrite, timerStopWrite, timerExpire, timerDeferredPublish. -/
def Obligations.TimersRun : Prop := ∀ (s : State) (f : Func) (x : TimerId), s.Ordinary →
  (∀ v : Word, BCN_TMRt_CTRL.START.get v = 1 → s.writeReaches f (.bcnTmrCtrl x) = true → Completes (.timerStartWrite f x v) s (fun t =>
      t.isSet (.bcnTmrCtrl x) BCN_TMRt_CTRL.RUNNING = true ∧ t.inputBusy (consOfTimer x) = true ∧ t.fabric.timers[x].start = s.clock.now ∧ t.fabric.timers[x].ticks = 0
      ∧ t.fabric.timers[x].deferred = false ∧ (∀ y ≠ x, t.fabric.timers[y] = s.fabric.timers[y]) ∧ s.SameBytes t ∧ t.chans = s.chans
      ∧ s.SameRegs t (fun r => r = .bcnTmrCtrl x ∨ r = .bcnConsStat (consOfTimer x))))
  ∧ (∀ v : Word, BCN_TMRt_CTRL.STOP.get v = 1 → BCN_TMRt_CTRL.START.get v = 0 → s.writeReaches f (.bcnTmrCtrl x) = true → Completes (.timerStopWrite f x v) s (fun t =>
      t.isSet (.bcnTmrCtrl x) BCN_TMRt_CTRL.RUNNING = false ∧ t.inputBusy (consOfTimer x) = false ∧ t.inputPending (consOfTimer x) = false ∧ t.fabric.timers[x].deferred = false
      ∧ (∀ y ≠ x, t.fabric.timers[y] = s.fabric.timers[y]) ∧ s.SameBytes t ∧ t.chans = s.chans ∧ s.SameRegs t (fun r => r = .bcnTmrCtrl x ∨ r = .bcnConsStat (consOfTimer x))))
  ∧ (s.isSet (.bcnTmrCtrl x) BCN_TMRt_CTRL.RUNNING = true → s.fabric.timers[x].deferred = false →
      let due := s.fabric.timers[x].start + s.timerSpan x (s.fabric.timers[x].ticks + 1)
      Completes (.timerExpire x) s (fun t =>
        t.clock.now = max s.clock.now due ∧ t.fabric.timers[x].ticks = s.fabric.timers[x].ticks + 1 ∧ t.fabric.timers[x].start = s.fabric.timers[x].start
        ∧ ((∀ p, s.fabric.timers[x].lastPub = some p → p + s.timerMinp x ≤ due) → t.fabric.timers[x].lastPub = some t.clock.now
            ∧ t.isSet (.bcnTmrCtrl x) BCN_TMRt_CTRL.RUNNING = s.isSet (.bcnTmrCtrl x) BCN_TMRt_CTRL.MODE)
        ∧ (∀ p, s.fabric.timers[x].lastPub = some p → due < p + s.timerMinp x → t.fabric.timers[x].deferred = true ∧ t.fabric.timers[x].lastPub = some p)
        ∧ t = { s with regs := t.regs, clock := t.clock, fabric := t.fabric } ∧ s.SameRegs t (fun r => r = .bcnTmrCtrl x ∨ r = .bcnConsStat (consOfTimer x) ∨ r.ofFabric = true)))
  ∧ (∀ p, s.fabric.timers[x].deferred = true → s.fabric.timers[x].lastPub = some p → Completes (.timerDeferredPublish x) s (fun t =>
        t.clock.now = max s.clock.now (p + s.timerMinp x) ∧ t.fabric.timers[x].lastPub = some t.clock.now ∧ t.fabric.timers[x].deferred = false
        ∧ (s.isSet (.bcnTmrCtrl x) BCN_TMRt_CTRL.MODE = false → t.isSet (.bcnTmrCtrl x) BCN_TMRt_CTRL.RUNNING = false)
        ∧ t = { s with regs := t.regs, clock := t.clock, fabric := t.fabric } ∧ s.SameRegs t (fun r => r = .bcnTmrCtrl x ∨ r = .bcnConsStat (consOfTimer x) ∨ r.ofFabric = true)))

/-- R161 to R165: when its DAC supplies become valid a Lamp die reads the dark codes of its fuses, and shows them until it is LIT; DARK_N low darkens every output with supplies and is shown on every
channel in service; its rise ends the condition on each Lamp at a granule edge at most 4 gc later, and the granules held are counted by the time a read shows them. Each of these commands is said
to answer a next state, on conditions of the state and the operands alone: dacSupplyValid, darkNFall, darkNRise. -/
def Obligations.DarkCodeAndDarkN : Prop := ∀ s : State, s.Ordinary →
  (∀ n : LampId, Completes (.dacSupplyValid n) s (fun t =>
      t.power.dac[n] = true ∧ t.power.litOnce[n] = false ∧ (∀ c : ChanId, lampOf c = n → t.rd (.outDark c) = s.darkWord c ∧ (s.pwr ≠ 1 → t.ballCode c = some (t.fld (.outDark c) OUT_DARK.CODE)))
      ∧ t = { s with regs := t.regs, power := t.power } ∧ s.SameRegs t (fun r => ∃ c, lampOf c = n ∧ r = .outDark c)))
  ∧ (s.power.darkN = true → Completes .darkNFall s (fun t =>
      t.power = { s.power with darkN := false, darkFrom := s.clock.gran }
      ∧ (∀ c : ChanId, s.dieUp (Die.ofLamp (lampOf c)) = true → t.fld (.outStatus c) OUT_STATUS.DARK_N_SEEN = 1)
      ∧ (∀ c : ChanId, s.power.dac[lampOf c] = true → s.pwr ≠ 1 → t.ballCode c = some (s.fld (.outDark c) OUT_DARK.CODE))
      ∧ t = { s with regs := t.regs, power := t.power, fabric := t.fabric } ∧ s.SameRegs t (fun r => (∃ c, r = .outStatus c ∨ r = .outDarknGran c) ∨ r.ofFabric = true)))
  ∧ (s.power.darkN = false → Completes .darkNRise s (fun t =>
      t.power.darkN = true ∧ (∀ n : LampId, s.gran n < t.power.darkEnd[n] ∧ t.power.darkEnd[n] ≤ s.gran n + 4)
      ∧ (∀ (c : ChanId) (g : Nat), t.power.darkEnd[lampOf c] ≤ g → ((t.reachGranC c g).upToNow (.outDarknGran c)).fld (.outDarknGran c) OUT_DARKN_GRAN.GRANULES
          = min OUT_DARKN_GRAN.GRANULES.top (s.fld (.outDarknGran c) OUT_DARKN_GRAN.GRANULES + (t.power.darkEnd[lampOf c] - s.power.darkFrom[lampOf c])))
      ∧ t = { s with power := t.power, free := t.free } ∧ t.power = { s.power with darkN := true, darkEnd := t.power.darkEnd }))
  ∧ (s.power.darkN = false → exec .darkNFall s = .next s) ∧ (s.power.darkN = true → exec .darkNRise s = .next s)

/-- R166, R167: the reference gain switches Nh granules after the first sample of a range change; the output resumes after 2 Nh, with the discarded samples counted and RANGE_DONE set. R171: a
marker's written setting waits while the marker is active and takes effect at its first inactive sample. Each of these commands is said to answer a next state, on conditions of the state and the
operands alone: rangeGainSwitch, rangeResume, markerSettingApply. -/
def Obligations.RangesAndMarkers : Prop := 
  (∀ (s : State) (c : ChanId) (x : RangeChange) (rest : List RangeChange), s.Ordinary → s.chans[c].changes = x :: rest →
  (x.switched = false → Completes (.rangeGainSwitch c) s (fun t =>
      t.clock = (s.reachGranC c (ceilDiv (x.first + 32 * x.nh) 32)).clock ∧ ceilDiv (x.first + 32 * x.nh) 32 ≤ t.granC c ∧ t.chans[c] = { s.chans[c] with range := x.range, changes := { x with switched := true } :: rest }
      ∧ (∀ k ≠ c, t.chans[k] = s.chans[k]) ∧ t = { s with clock := t.clock, chans := t.chans }))
  ∧ (x.switched = true → Completes (.rangeResume c) s (fun t =>
      t.clock = (s.reachGranC c (ceilDiv (x.first + 64 * x.nh) 32)).clock ∧ ceilDiv (x.first + 64 * x.nh) 32 ≤ t.granC c ∧ t.chans[c].changes = rest ∧ t.chans[c].range = s.chans[c].range ∧ t.fld (.outStatus c) OUT_STATUS.RANGE_DONE = 1
      ∧ (x.atStart = false → t.fld (.outDiscard c) OUT_DISCARD.SAMPLES = min OUT_DISCARD.SAMPLES.top (s.fld (.outDiscard c) OUT_DISCARD.SAMPLES + 64 * x.nh)) ∧ s.SameBytes t))
  ∧ (x.switched = true → exec (.rangeGainSwitch c) s = .next s) ∧ (x.switched = false → exec (.rangeResume c) s = .next s))
  ∧ (∀ (s : State) (c : ChanId) (mk : Fin 2) (m : MarkerSetting), s.Ordinary → s.chans[c].markers[mk].waiting = some m →
  (s.markerLevel c mk = false → Completes (.markerSettingApply c mk) s (fun t =>
      t.chans[c].markers[mk] = { s.chans[c].markers[mk] with inForce := m, waiting := none } ∧ t.chans[c].markers[twin mk] = s.chans[c].markers[twin mk] ∧ t = { s with chans := t.chans, taps := t.taps }
      ∧ ∀ k ≠ c, t.chans[k] = s.chans[k]))
  ∧ (s.markerLevel c mk = true → exec (.markerSettingApply c mk) s = .next s))

/-- R174 to R176, R179: at a tick of a Lamp's bias block a line in OFF stops driving; a line in HOLD drives, at once from OFF and by at most BIAS_SLEW codes otherwise, toward BIAS_LEVEL brought
within the clamps; BIAS_NOW shows the code. R177 to R179: a write of BIAS_PDATA stores one entry and advances BIAS_PADDR, or enters the queue, or finds it full; a write of BIAS_CTRL is held, and
a line newly in another class begins afresh; the deglitcher shows the new level 300 ns after the code changed. Each of these commands is said to answer a next state, on conditions of the state
and the operands alone: biasTick, biasPdataWrite, biasCtrlWrite, deglitchTrack. -/
def Obligations.BiasLinesMove : Prop := 
  (∀ (s : State) (n : LampId), s.Ordinary → s.biasOn n = true → s.clock.runs[n] = true →
  Completes (.biasTick n) s (fun t =>
    (∀ b : BiasId, lampOfBias b = n → s.fld (.biasCtrl b) BIAS_CTRL.CLASS = 0 → t.bias[b].drives = false ∧ t.bias[b].first = true ∧ t.fld (.biasStatus b) BIAS_STATUS.SLEWING = 0)
    ∧ (∀ b : BiasId, lampOfBias b = n → s.fld (.biasCtrl b) BIAS_CTRL.CLASS = 1 →
        let target := min (s.fld (.biasClampHi b) BIAS_CLAMP_HI.HI) (max (s.fld (.biasClampLo b) BIAS_CLAMP_LO.LO) (s.fld (.biasLevel b) BIAS_LEVEL.LEVEL))
        let code := if s.bias[b].first then target else slewed s.bias[b].code target (s.fld (.biasSlew b) BIAS_SLEW.SLEW)
        t.bias[b].drives = true ∧ t.bias[b].code = code ∧ t.fld (.biasNow b) BIAS_NOW.CODE = code % 2 ^ 20 ∧ (t.fld (.biasStatus b) BIAS_STATUS.SLEWING = 0 ↔ code = target))
    ∧ (∀ b : BiasId, lampOfBias b ≠ n → t.bias[b] = s.bias[b])
    ∧ t.clock = (s.reachGran n (s.biasBlk[n].base + s.biasBlk[n].index * s.biasBlk[n].tick)).clock ∧ s.biasBlk[n].base + s.biasBlk[n].index * s.biasBlk[n].tick ≤ t.gran n
    ∧ t.biasBlk[n].index = (if s.tickOf n = s.biasBlk[n].tick then s.biasBlk[n].index + 1 else 1) ∧ t.biasBlk[n].tick = s.tickOf n
    ∧ t = { s with regs := t.regs, clock := t.clock, bias := t.bias, biasBlk := t.biasBlk, fabric := t.fabric }
    ∧ s.SameRegs t (fun r => (∃ b, lampOfBias b = n ∧ (r = .biasNow b ∨ r = .biasStatus b ∨ r = .biasClamped b ∨ r = .biasQfill b)) ∨ r.ofFabric = true)))
  ∧ (∀ (s : State) (f : Func) (b : BiasId) (v : Word), s.Ordinary →
  (s.writeReaches f (.biasPdata b) = true →
    let a := s.fld (.biasPaddr b) BIAS_PADDR.ADDR
    let queue := s.fld (.biasCtrl b) BIAS_CTRL.CLASS = 2
    (¬ (queue ∧ 1024 ≤ s.bias[b].queue.length) → Completes (.biasPdataWrite f b v) s (fun t =>
        t.bias[b].entry a = BIAS_PDATA.DATA.get v ∧ (∀ i ≠ a, t.bias[b].entry i = s.bias[b].entry i) ∧ t.fld (.biasPaddr b) BIAS_PADDR.ADDR = (a + 1) % 1024
        ∧ (queue → t.bias[b].queue = s.bias[b].queue ++ [BIAS_PDATA.DATA.get v]) ∧ (¬ queue → t.bias[b].queue = s.bias[b].queue) ∧ (∀ k ≠ b, t.bias[k] = s.bias[k]) ∧ s.SameBytes t ∧ t.chans = s.chans
        ∧ s.SameRegs t (fun r => r = .biasPdata b ∨ r = .biasPaddr b ∨ r = .biasQfill b)))
    ∧ (queue ∧ 1024 ≤ s.bias[b].queue.length → Completes (.biasPdataWrite f b v) s (fun t =>
        t.bias = s.bias ∧ t.fabric = s.fabric ∧ t.fld (.biasStatus b) BIAS_STATUS.QUEUE_FULL = 1 ∧ s.SameBytes t ∧ s.SameRegs t (fun r => r = .biasPdata b ∨ r = .biasStatus b))))
  ∧ (s.writeReaches f (.biasCtrl b) = true → Completes (.biasCtrlWrite f b v) s (fun t =>
        t.rd (.biasCtrl b) = v ∧ (BIAS_CTRL.CLASS.get v ≠ s.fld (.biasCtrl b) BIAS_CTRL.CLASS → t.bias[b] = { s.bias[b] with queue := [], synced := false, cycle := 0 } ∧ t.fld (.biasQfill b) BIAS_QFILL.FILL = 0)
        ∧ (BIAS_CTRL.CLASS.get v = s.fld (.biasCtrl b) BIAS_CTRL.CLASS → t.bias[b] = s.bias[b]) ∧ (∀ k ≠ b, t.bias[k] = s.bias[k]) ∧ s.SameBytes t ∧ t.chans = s.chans
        ∧ s.SameRegs t (fun r => r = .biasCtrl b ∨ r = .biasQfill b)))
  ∧ (s.bias[b].holding = true → Completes (.deglitchTrack b) s (fun t =>
        t.clock.now = max s.clock.now (s.bias[b].movedAt + 300 * qNs) ∧ t.bias[b] = { s.bias[b] with shown := s.bias[b].code, holding := false } ∧ (∀ k ≠ b, t.bias[k] = s.bias[k])
        ∧ t = { s with clock := t.clock, bias := t.bias })))

/-- R181, R182, R186: one measurement takes one place of the frames; a failed reference check stops the comparisons; a channel's measurement joins its block or is skipped and counted; a bias line's
residual is shown. R183, R185: at the end of a block each channel's mean and rms residual are tested against their thresholds and LOOK_FAIL set where one is exceeded; the next block begins empty.
A cell swap that is due takes place at the next granule edge; SWAP_NOW makes a waiting one due. Each of these commands is said to answer a next state, on conditions of the state and the operands
alone: lookoutMeasure, lookoutBlockEnd, cellSwap, swapNow. -/
def Obligations.LookoutsMeasure : Prop := 
  (∀ (s : State) (n : LampId) (measured : Int), s.Ordinary → s.lookRuns n = true →
  let x := s.looks[n]
  let reference := x.slot = 0 ∧ x.self = 63
  let c := chanOfLamp n (Fin.ofNat 4 x.slot)
  let b := biasOfLamp n (Fin.ofNat 8 (2 * x.frame + (x.slot - 32)))
  let v := s.reachGran n x.gran
  let u := v.ballAt c (v.sampleNow c + x.lfsr.toNat % 32)
  Completes (.lookoutMeasure n measured) s (fun t =>
    t.looks[n].slot = (x.next 0).slot ∧ t.looks[n].frame = (x.next 0).frame ∧ t.looks[n].inBlock = (x.next 0).inBlock ∧ t.looks[n].lfsr = lfsr16 x.lfsr ∧ t.clock = v.clock ∧ (∀ k ≠ n, t.looks[k] = s.looks[k])
    ∧ (reference → 500 < (measured - 100000).natAbs → t.looks[n].stopped = true ∧ t.fld (.lookStatus n) LOOK_STATUS.SELF_FAIL = 1)
    ∧ (reference → (measured - 100000).natAbs ≤ 500 → t.looks[n].stopped = false ∧ t.rd (.lookStatus n) = s.rd (.lookStatus n))
    ∧ (¬ reference → x.slot < 32 → v.lookChanSkips c u = true → t.looks[n].samples = x.samples ∧ t.fld (.lookSkipped n) LOOK_SKIPPED.COUNT = min LOOK_SKIPPED.COUNT.top (s.fld (.lookSkipped n) LOOK_SKIPPED.COUNT + 1))
    ∧ (¬ reference → x.slot < 32 → v.lookChanSkips c u = false → ∃ y, t.looks[n].samples = x.samples ++ [y] ∧ y.chan = c ∧ t.rd (.lookSkipped n) = s.rd (.lookSkipped n))
    ∧ (32 ≤ x.slot → v.lookBiasSkips b = false → t.fld (.lookBias b) LOOK_BIASj.RESIDUAL = ofSigned 24 (measured - (s.bias[b].code : Int)) % 2 ^ LOOK_BIASj.RESIDUAL.width)
    ∧ t = { s with regs := t.regs, clock := t.clock, looks := t.looks, bias := t.bias, fabric := t.fabric }
    ∧ s.SameRegs t (fun r => r = .lookSkipped n ∨ r = .lookStatus n ∨ (∃ k, r = .lookBias k) ∨ r.ofFabric = true)))
  ∧ (∀ s : State, s.Ordinary →
  (∀ n : LampId, s.lookRuns n = true → s.blockFrames n ≤ s.looks[n].inBlock → Completes (.lookoutBlockEnd n) s (fun t =>
      t.looks[n].inBlock = 0 ∧ t.looks[n].samples = [] ∧ (∀ k ≠ n, t.looks[k] = s.looks[k])
      ∧ (∀ c : ChanId, lampOf c = n →
          let rs := s.looks[n].residuals c
          256 * s.fld (.lookThr n) LOOK_THR.MEAN * rs.length < rs.sum.natAbs → rs ≠ [] → t.fld (.outStatus c) OUT_STATUS.LOOK_FAIL = 1)
      ∧ s.SameBytes t ∧ t.power = s.power ∧ t.clock = s.clock))
  ∧ (∀ (c : ChanId) (cell : Nat), s.chans[c].cellDue = some cell → Completes (.cellSwap c) s (fun t =>
      t.fld (.outCell c) OUT_CELL.CELL = cell % 2 ^ OUT_CELL.CELL.width ∧ t.fld (.outState c) OUT_STATE.SPARE_USED = 1 ∧ t.fld (.outStatus c) OUT_STATUS.CELL_SWAPPED = 1
      ∧ t.fld (.outState c) OUT_STATE.SWAPS = min OUT_STATE.SWAPS.top (s.fld (.outState c) OUT_STATE.SWAPS + 1) ∧ t.chans[c] = { s.chans[c] with cellDue := none, cellWait := none }
      ∧ (∀ k ≠ c, t.chans[k] = s.chans[k]) ∧ t.clock = (s.reachGranC c (s.granC c + 1)).clock ∧ s.granC c + 1 ≤ t.granC c ∧ s.SameBytes t
      ∧ s.SameRegs t (fun r => r = .outCell c ∨ r = .outState c ∨ r = .outStatus c ∨ r.ofFabric = true)))
  ∧ (∀ (f : Func) (c : ChanId), s.writeReaches f (.outCell c) = true → Completes (.swapNow f c) s (fun t =>
      (∀ cell, s.chans[c].cellWait = some cell → t.chans[c] = { s.chans[c] with cellDue := some cell, cellWait := none }) ∧ (s.chans[c].cellWait = none → t.chans[c] = s.chans[c])
      ∧ (∀ k ≠ c, t.chans[k] = s.chans[k]) ∧ s.SameBytes t ∧ s.SameRegs t (· = .outCell c))))

/-- R36, R39, R347: LOAD_TABLE puts `count` entries from `first` on into the staged slot of a channel, and raises the table's length; the other entries and the active table stay. A slot that is not
the staged one is refused with ACTIVE_TABLE, a channel whose tables move or whose swap is committed with TABLE_BUSY, a home that cannot be mirrored with MIRROR_DOWN, and tables beyond the blocks
of PB1 with PB1_FULL (R38 to R40). R38: a write of TABLE_HOME of a channel that is not busy moves its tables to the Domes named: the field reads the new value and the channel is moving until the
move completes; a Dome newly named that lacks the blocks, or that the Dome–Dome link does not reach, sets HOME_REFUSED and changes nothing; so does the reserved value 3 (the model's choice: log
entry 110). The end of the move leaves the tables where TABLE_HOME says. Each of these commands is said to answer a next state, on conditions of the state and the operands alone: loadTable,
tableHomeWrite, tableMoveDone. -/
def Obligations.TablesLoadAndMove : Prop := 
  (∀ (s : State) (h : DescHdr) (addr : QWord) (c : ChanId) (slot : Fin 2) (first count : Nat),
  s.Ordinary → s.Fetches h →
  let b := s.hostRead addr.toNat (64 * count)
  let fits := count ≠ 0 ∧ first + count ≤ 16384
  (¬ fits → Completes (.loadTable h addr c slot first count) s (fun t => s.Passed t h 3 Reason.badField 0 ∧ t = { s with host := t.host } ∧ t.host.mem = s.host.mem))
  ∧ (fits → slot ≠ s.stagedSlot c → Completes (.loadTable h addr c slot first count) s (fun t => s.Passed t h 3 Reason.activeTable 0 ∧ t = { s with host := t.host } ∧ t.host.mem = s.host.mem))
  ∧ (fits → slot = s.stagedSlot c → s.chans[c].move ≠ none ∨ s.stagedBusy c = true → Completes (.loadTable h addr c slot first count) s (fun t =>
      s.Passed t h 3 Reason.tableBusy 0 ∧ t = { s with host := t.host } ∧ t.host.mem = s.host.mem))
  ∧ (fits → slot = s.stagedSlot c → s.chans[c].move = none → s.stagedBusy c = false → s.mirrorDown (s.homeOf c) = true ∨ s.pb1Over c ((s.staged c).load first count b) = true →
      Completes (.loadTable h addr c slot first count) s (fun t => s.Passed t h 3 (if s.mirrorDown (s.homeOf c) = true then Reason.mirrorDown else Reason.pb1Full) 0 ∧ t = { s with host := t.host } ∧ t.host.mem = s.host.mem))
  ∧ (fits → slot = s.stagedSlot c → s.chans[c].move = none → s.stagedBusy c = false → s.mirrorDown (s.homeOf c) = false → s.pb1Over c ((s.staged c).load first count b) = false →
      Completes (.loadTable h addr c slot first count) s (fun t => s.Passed t h 3 0 (64 * count)
        ∧ (∀ i, (t.staged c).entry i = if first ≤ i ∧ i < first + count then entryAt b (i - first) else (s.staged c).entry i) ∧ (t.staged c).len = max (s.staged c).len (first + count)
        ∧ t.table c = s.table c ∧ (∀ x ≠ c, t.chans[x] = s.chans[x]) ∧ t = { s with chans := t.chans, host := t.host } ∧ t.host.mem = s.host.mem)))
  ∧ (∀ (s : State) (c : ChanId), s.Ordinary →
  (∀ (f : Func) (home : Fin 4), s.writeReaches f (.charCtrl c) = true → s.chans[c].st.busy = false → Completes (.tableHomeWrite f c home) s (fun t =>
      (home.val = s.homeOf c → t.chans = s.chans ∧ s.SameRegs t (fun _ => False))
      ∧ (home.val ≠ s.homeOf c → home.val = 3 ∨ s.homeRefused c home.val = true → t.isSet (.charStatus c) CHAR_STATUS.HOME_REFUSED = true ∧ t.chans = s.chans ∧ s.SameRegs t (· = .charStatus c))
      ∧ (home.val ≠ s.homeOf c → home.val ≠ 3 → s.homeRefused c home.val = false → t.homeOf c = home.val ∧ t.chans[c].move = some ⟨s.homeOf c⟩ ∧ t.table c = s.table c ∧ t.staged c = s.staged c
          ∧ (∀ x ≠ c, t.chans[x] = s.chans[x]) ∧ s.SameRegs t (· = .charCtrl c))
      ∧ s.SameBytes t))
  ∧ (s.chans[c].move ≠ none → Completes (.tableMoveDone c) s (fun t => t.chans[c].move = none ∧ (∀ d : DomeId, t.chans[c].heldOn[d] = (homeNames (s.homeOf c) d && decide (0 < s.chans[c].blocks)))
      ∧ t.table c = s.table c ∧ t.staged c = s.staged c ∧ (∀ x ≠ c, t.chans[x] = s.chans[x]) ∧ t = { s with chans := t.chans }))
  ∧ (s.chans[c].move = none → exec (.tableMoveDone c) s = .next s))

/-- R40: SWAP_CANCEL cancels a committed swap, whether or not its commit has taken effect, with SWAP_CANCELLED; a swap that falls due as an iteration ends releases the old table, makes the staged one
active and enters it at the SWAP_ENTRY of its commit, with SWAP_DONE. R43, R48, R51, R52: where neither a swap nor a jump is due, an iteration that ends is followed by the next of its visit, by a
visit of the entry the walk leads to, by the stop at END, or, with no frame to close, by a walking fault FRAME_UNDERFLOW. Each of these commands is said to answer a next state, on conditions of
the state and the operands alone: swapCancel, swapTake, iterationEnd. -/
def Obligations.WalksAndSwaps : Prop := 
  (∀ (s : State) (c : ChanId), s.Ordinary →
  (∀ f : Func, s.writeReaches f (.charCtrl c) = true → Completes (.swapCancel f c) s (fun t =>
      t.chans[c] = (if s.stagedBusy c = false then s.chans[c] else { s.chans[c] with swap := none, readyNext := none }) ∧ (∀ x ≠ c, t.chans[x] = s.chans[x]) ∧ t.stagedBusy c = false
      ∧ (s.stagedBusy c = true → t.isSet (.charStatus c) CHAR_STATUS.SWAP_CANCELLED = true) ∧ s.SameRegs t (fun r => s.stagedBusy c = true ∧ r = .charStatus c) ∧ s.SameBytes t))
  ∧ (∀ w, s.atIterationEnd c = true → s.chans[c].swap = some w → s.swapDue c (s.iterEnd c) = true →
      let i := w.entry
      Completes (.swapTake c) s (fun t => t.chans[c].swap = none ∧ t.chans[c].activeSlot = s.stagedSlot c ∧ t.table c = s.staged c ∧ (t.staged c).len = 0 ∧ t.chans[c].startEntry = i
        ∧ t.isSet (.charStatus c) CHAR_STATUS.SWAP_DONE = true ∧ s.chans[c].startGran + s.iterEnd c / 32 ≤ t.granC c
        ∧ (s.Sound (s.staged c) i → t.chans[c].st = .playing ∧ t.chans[c].entry = i ∧ t.chans[c].iter = 0 ∧ t.chans[c].iterStart = s.iterEnd c ∧ t.chans[c].visitStart = s.iterEnd c) ∧ s.SameBytes t))
  ∧ (¬ (s.atIterationEnd c = true ∧ s.swapDue c (s.iterEnd c) = true) → exec (.swapTake c) s = .next s))
  ∧ (∀ (s : State) (c : ChanId), s.Ordinary → s.atIterationEnd c = true → s.swapDue c (s.iterEnd c) = false → s.jumpDueAt c (s.iterEnd c) = false →
  (∀ w, walkNext (s.table c) (s.walkPos c) = .again w → Completes (.iterationEnd c) s (fun t => t.chans[c].st = .playing ∧ t.chans[c].entry = s.chans[c].entry ∧ t.chans[c].iter = s.chans[c].iter + 1
      ∧ t.chans[c].frames = s.chans[c].frames ∧ t.chans[c].visit = s.chans[c].visit ∧ t.chans[c].iterStart = s.iterEnd c ∧ t.clock = (s.reachPos c (s.iterEnd c)).clock ∧ s.SameBytes t))
  ∧ (∀ i lb fs fr, walkNext (s.table c) (s.walkPos c) = .visit i lb fs → s.Sound (s.table c) i → enterFrames ((s.table c).entry i) lb fs = some fr → Completes (.iterationEnd c) s (fun t =>
      t.chans[c].st = .playing ∧ t.chans[c].entry = i ∧ t.chans[c].iter = 0 ∧ t.chans[c].frames = fr ∧ t.chans[c].visit = s.chans[c].visit + 1 ∧ t.chans[c].iterStart = s.iterEnd c
      ∧ t.chans[c].visitStart = s.iterEnd c ∧ s.chans[c].startGran + s.iterEnd c / 32 ≤ t.granC c ∧ s.SameBytes t))
  ∧ (walkNext (s.table c) (s.walkPos c) = .stop → Completes (.iterationEnd c) s (fun t => t.chans[c].st = .ended ∧ t.chans[c].stopPos = s.iterEnd c ∧ t.chans[c].pend = none
      ∧ t.isSet (.charStatus c) CHAR_STATUS.END_REACHED = true ∧ s.chans[c].startGran + s.iterEnd c / 32 ≤ t.granC c ∧ s.SameBytes t))
  ∧ (walkNext (s.table c) (s.walkPos c) = .underflow → Completes (.iterationEnd c) s (fun t => t.chans[c].st = .fault ∧ t.isSet (.charStatus c) CHAR_STATUS.WALK_FAULT = true
      ∧ t.fld (.charFault c) CHAR_FAULT.FAULT_ENTRY = s.chans[c].entry % 2 ^ 14 ∧ t.fld (.charFault c) CHAR_FAULT.FAULT_CODE = 2 ∧ s.SameBytes t)))

/-- R52, R53: an entry that arrives sound, from its place or from its mirror copy, changes nothing of the walk; one in error beyond correction with no sound mirror copy is a walking fault ENTRY_ECC,
and one that fails R47 a walking fault ENTRY_INVALID. Each of these commands is said to answer a next state, on conditions of the state and the operands alone: entryRead. -/
def Obligations.EntriesAreChecked : Prop := ∀ (s : State) (c : ChanId) (i : Nat) (ecc mirror : Ecc), s.Ordinary → s.chans[c].st = .playing ∨ s.chans[c].st = .priming → i < (s.table c).len →
  let read := ecc ≠ .double ∨ (s.tableMirrored c = true ∧ mirror ≠ .double)
  (read → s.Sound (s.table c) i → Completes (.entryRead c i ecc mirror) s (fun t => t.chans = s.chans ∧ (ecc = .clean → t = s) ∧ s.SameBytes t))
  ∧ (¬ (read ∧ s.Sound (s.table c) i) → Completes (.entryRead c i ecc mirror) s (fun t => t.chans[c].st = .fault ∧ t.isSet (.charStatus c) CHAR_STATUS.WALK_FAULT = true
      ∧ t.fld (.charFault c) CHAR_FAULT.FAULT_ENTRY = i % 2 ^ 14 ∧ (¬ read → t.fld (.charFault c) CHAR_FAULT.FAULT_CODE = 3) ∧ (read → t.fld (.charFault c) CHAR_FAULT.FAULT_CODE = 4) ∧ s.SameBytes t))

/-- R55, R57, R59: the lookahead asks for granules up to the lead target and the landed granules; those asked for arrive; one that has not arrived at its play time plays dark and is counted on its
Dome; priming is done when the lead is complete, or holds every landed granule of a stream. Each of these commands is said to answer a next state, on conditions of the state and the operands
alone: lookaheadRequest, granuleArrive, granuleLate, primingDone. -/
def Obligations.PrefetchKeepsTheLead : Prop := ∀ (s : State) (c : ChanId) (n : Nat), s.Ordinary →
  (s.chans[c].st = .playing ∨ s.chans[c].st = .priming → Completes (.lookaheadRequest c n) s (fun t =>
      t.chans[c] = { s.chans[c] with reqTo := max s.chans[c].reqTo (min (s.chans[c].reqTo + n) (s.playGran c + min (s.leadTarget c) (s.landedLead c))) } ∧ (∀ x ≠ c, t.chans[x] = s.chans[x])
      ∧ t = { s with regs := t.regs, chans := t.chans } ∧ s.SameRegs t (fun r => s.chans[c].st = .playing ∧ r = .charLead c)))
  ∧ (s.chans[c].st = .playing ∨ s.chans[c].st = .priming → Completes (.granuleArrive c n) s (fun t =>
      t.chans[c] = { s.chans[c] with arrTo := min (s.chans[c].arrTo + n) s.chans[c].reqTo } ∧ (∀ x ≠ c, t.chans[x] = s.chans[x]) ∧ t = { s with chans := t.chans }))
  ∧ (s.chans[c].st = .playing → memFormat (s.entryOf c).format = true → s.chans[c].arrTo ≤ s.playGran c → Completes (.granuleLate c) s (fun t =>
      let d := s.readDome c (s.entryOf c)
      t.chans[c].darkTo = s.playGran c + 1 ∧ t.chans[c].arrTo = s.playGran c + 1 ∧ t.chans[c].st = .playing ∧ t.chans[c].entry = s.chans[c].entry ∧ t.chans[c].iterStart = s.chans[c].iterStart
      ∧ t.fld (.moorLateGran d) MOOR_LATE_GRAN.GRANULES = min MOOR_LATE_GRAN.GRANULES.top (s.fld (.moorLateGran d) MOOR_LATE_GRAN.GRANULES + 1)
      ∧ t.isSet (.moorStatus d) MOOR_STATUS.LATE = true ∧ t.clock = s.clock ∧ s.SameBytes t))
  ∧ (s.chans[c].st = .priming → Completes (.primingDone c) s (fun t => t.chans[c].primed = true ∧ t.chans[c].st = .priming ∧ s.playGran c + min (s.leadTarget c) (s.landedLead c) ≤ t.chans[c].arrTo ∧ t.chans[c].arrTo ≤ max t.chans[c].reqTo s.chans[c].arrTo
      ∧ (s.chans[c].startAt = none → s.chans[c].startWith = [] → t.chans[c].startAt = some (s.nextEdge c)) ∧ (∀ g, s.chans[c].startAt = some g → t.chans = s.chans.set c t.chans[c] ∧ t.chans[c].startAt = some g)
      ∧ t = { s with chans := t.chans }))

/-- R59, R117, R282: at its start instant a primed channel plays its start entry from its first granule; granules that have not arrived play dark and are counted; a resuming start takes up the walk
where an unbroken one stands at that instant, with the request pending there, or stays ENDED where that one has stopped at END. R46, R64 to R66: the pulse of a marker program begins at its START
sample, in the first iteration or in each, and ends WIDTH samples later, or with a longer pulse that runs already, on the channel and in pair mode on its twin; neither a jump taken before it nor
a pause of R151 lets it begin. Each of these commands is said to answer a next state, on conditions of the state and the operands alone: startInstant, markerPulseStart, markerPulseEnd. -/
def Obligations.StartsAndMarkers : Prop := 
  (∀ (s : State) (c : ChanId) (dark g : Nat), s.Ordinary → s.chans[c].st = .priming → s.chans[c].startAt = some g →
  (∀ fr, s.chans[c].resume = false → s.Sound (s.table c) s.chans[c].startEntry → enterFrames ((s.table c).entry s.chans[c].startEntry) false s.chans[c].frames = some fr →
    Completes (.startInstant c dark) s (fun t => t.chans[c].st = .playing ∧ t.chans[c].entry = s.chans[c].startEntry ∧ t.chans[c].iter = 0 ∧ t.chans[c].frames = fr ∧ t.chans[c].iterStart = 0
      ∧ t.chans[c].startGran = g - s.chans[c].stopPos / 32 ∧ t.chans[c].darkTo = s.chans[c].stopPos / 32 + dark ∧ t.clock = (s.reachGranC c g).clock
      ∧ (dark ≠ 0 → s.chans[c].primed = false → t.isSet (.charStatus c) CHAR_STATUS.PRIME_GAP = true
          ∧ t.fld (.charPrimeGap c) CHAR_PRIME_GAP.GRANULES = min CHAR_PRIME_GAP.GRANULES.top (s.fld (.charPrimeGap c) CHAR_PRIME_GAP.GRANULES + dark)) ∧ s.SameBytes t))
  ∧ (∀ k, s.chans[c].resume = true → s.chans[c].kept = some k →
      let u := s.reachGranC c g
      let r := u.unbrokenAt c k g
      Completes (.startInstant c dark) s (fun t =>
        (r.2 = .ended → t.chans[c].st = .ended)
        ∧ (r.2 ≠ .ended → t.chans[c].st = .playing ∧ t.chans[c].entry = r.1.piece.pos.entry ∧ t.chans[c].iter = r.1.piece.pos.iter ∧ t.chans[c].frames = r.1.piece.pos.frames
            ∧ t.chans[c].iterStart = r.1.piece.start ∧ t.chans[c].pend = r.1.pend ∧ t.chans[c].startGran = g - u.unbrokenStop c r g / 32)
        ∧ t.chans[c].resume = false ∧ t.chans[c].kept = none ∧ t.clock = u.clock ∧ s.SameBytes t)))
  ∧ (∀ (s : State) (c : ChanId) (mk : Fin 2), s.Ordinary →
  let prog := (s.entryOf c).marker mk
  let p := s.chans[c].iterStart + mkStart prog
  (s.chans[c].st = .playing → mkMode prog = 3 ∨ (mkMode prog = 2 ∧ s.chans[c].iter = 0) → p < s.iterEnd c → s.chans[c].resumed ≤ p → (∀ q, s.heldFrom c = some q → p < q) →
    (∀ j, s.chans[c].pend = some j → j.atBoundary = true ∨ p < j.take) →
    Completes (.markerPulseStart c mk) s (fun t => (∀ x : ChanId, x ∈ s.markerChans c → t.chans[x].markers[mk].pulseEnd = some (max (p + mkWidth prog) (s.chans[x].markers[mk].pulseEnd.getD 0)))
      ∧ (∀ x : ChanId, x ∉ s.markerChans c → t.chans[x] = s.chans[x]) ∧ t.clock = (s.reachPos c p).clock ∧ t = { s with clock := t.clock, chans := t.chans, taps := t.taps }))
  ∧ (∀ e, s.chans[c].markers[mk].pulseEnd = some e → Completes (.markerPulseEnd c mk) s (fun t =>
      (∀ x : ChanId, x ∈ s.markerChans c → t.chans[x].markers[mk].pulseEnd = none)
      ∧ (∀ x : ChanId, x ∉ s.markerChans c → t.chans[x] = s.chans[x]) ∧ t.clock = (s.reachPos c e).clock ∧ t = { s with clock := t.clock, chans := t.chans, taps := t.taps }))
  ∧ (s.chans[c].markers[mk].pulseEnd = none → exec (.markerPulseEnd c mk) s = .next s))

/-- R72 to R85, R93: a delivery on a beacon channel that reaches the engine of a playing channel outside any group registers the first candidate slot that passes: a BOUNDARY request takes the first
boundary of the path 40 gc or more on, a GRANULE request whose target is held takes the granule 48 gc on, and a TIMED request that is in time takes the edge plus its window's delay; a GRANULE
request whose target is not held is degraded to the boundary, a TIMED one that is too late takes it as LATE; of two requests that meet one is dropped and counted; with no candidate the event is
counted as unmatched; a channel that does not play ignores it. R78, R80, R86, R95, R103: at its take point a pending jump ends the visit and enters its target, and JMP_LAST, its companions and
the counters describe it: inside the iteration in play, or at the boundary at which that iteration ends. Each of these commands is said to answer a next state, on conditions of the state and the
operands alone: jumpEventRegister, jumpTake. -/
def Obligations.JumpsRegisterAndTake : Prop := 
  (∀ (s : State) (c : ChanId) (ch : BeaconCh) (merged : Nat) (d : Delivery), s.Ordinary → s.delivery ch = some d → Consumer.engine c ∈ d.waiting → s.groupOf c = none →
  let r := s.playGran c
  let edge := d.payload.stamp.map (s.edgeSample c)
  let all := s.candidates c ch (edge.bind (s.chans[c].visitAt (32 * (s.entryOf c).lenG)))
  let first := all.find? (s.passes c)
  Completes (.jumpEventRegister c ch merged) s (fun t =>
    (∃ e, t.delivery ch = some e ∧ e.waiting = d.waiting.filter (· ≠ .engine c)) ∧ t.clock = s.clock ∧ (∀ x ≠ c, t.chans[x] = s.chans[x]) ∧ t.chans[c].entry = s.chans[c].entry ∧ s.SameBytes t
    ∧ (merged ≠ 0 → t.fld (.bcnEngMerged c) BCN_ENGc_MERGED.COUNT = min BCN_ENGc_MERGED.COUNT.top (s.fld (.bcnEngMerged c) BCN_ENGc_MERGED.COUNT + 1))
    ∧ (s.chans[c].st ≠ .playing → t.chans = s.chans ∧ t.isSet (.jmpStatus c) JMP_STATUS.IGNORED = true
        ∧ t.fld (.jmpIgnored c) JMP_IGNORED.COUNT = min JMP_IGNORED.COUNT.top (s.fld (.jmpIgnored c) JMP_IGNORED.COUNT + 1))
    ∧ (s.chans[c].st = .playing → first = none → t.chans = s.chans ∧ t.fld (.jmpUnmatched c) JMP_UNMATCHED.COUNT = min JMP_UNMATCHED.COUNT.top (s.fld (.jmpUnmatched c) JMP_UNMATCHED.COUNT + 1)
        ∧ (all ≠ [] → t.isSet (.jmpStatus c) JMP_STATUS.WINDOW_REJECT = true))
    ∧ (∀ x b, s.chans[c].st = .playing → first = some x → slotMode x.word = 0 → s.chans[c].pend = none → s.boundaryTake c (r + s.groupLag c false) = some b →
        ∃ j, t.chans[c].pend = some j ∧ j.mode = .boundary ∧ j.atBoundary = true ∧ j.take = b ∧ j.slot = x.slot ∧ j.target = slotTarget x.word ∧ j.source = x.source ∧ j.channel = ch)
    ∧ (∀ x, s.chans[c].st = .playing → first = some x → slotMode x.word = 1 → s.chans[c].pend = none → s.heldTarget c (slotTarget x.word) = true →
        ∃ j, t.chans[c].pend = some j ∧ j.mode = .granule ∧ j.atBoundary = false ∧ j.take = 32 * (r + s.groupLag c false + 48) ∧ j.slot = x.slot ∧ j.target = slotTarget x.word ∧ j.source = x.source ∧ j.channel = ch)
    ∧ (∀ x, s.chans[c].st = .playing → first = some x → slotMode x.word = 2 → s.chans[c].pend = none →
        let splice := (edge.getD 0 + s.fld (.winDelay c (slotWindow x.word)) WINk_DELAY.DELAY).toNat
        r + s.groupLag c false + (if s.heldTarget c (slotTarget x.word) then 16 else 96) ≤ splice / 32 →
        ∃ j, t.chans[c].pend = some j ∧ j.mode = .timed ∧ j.atBoundary = false ∧ j.take = splice ∧ j.slot = x.slot ∧ j.target = slotTarget x.word ∧ j.source = x.source ∧ j.channel = ch)
    ∧ (∀ x b, s.chans[c].st = .playing → first = some x → slotMode x.word = 1 → s.chans[c].pend = none → s.heldTarget c (slotTarget x.word) = false → s.boundaryTake c (r + s.groupLag c false) = some b →
        t.fld (.jmpDegraded c) JMP_DEGRADED.COUNT = min JMP_DEGRADED.COUNT.top (s.fld (.jmpDegraded c) JMP_DEGRADED.COUNT + 1) ∧ t.isSet (.jmpStatus c) JMP_STATUS.DEGRADED = true
        ∧ ∃ j, t.chans[c].pend = some j ∧ j.mode = .boundary ∧ j.atBoundary = true ∧ j.take = b ∧ j.degraded = true ∧ j.slot = x.slot ∧ j.target = slotTarget x.word ∧ j.source = x.source ∧ j.channel = ch)
    ∧ (∀ x b, s.chans[c].st = .playing → first = some x → slotMode x.word = 2 → s.chans[c].pend = none → s.boundaryTake c (r + s.groupLag c false) = some b →
        let splice := (edge.getD 0 + s.fld (.winDelay c (slotWindow x.word)) WINk_DELAY.DELAY).toNat
        ¬ r + s.groupLag c false + (if s.heldTarget c (slotTarget x.word) then 16 else 96) ≤ splice / 32 →
        t.fld (.jmpLate c) JMP_LATE.COUNT = min JMP_LATE.COUNT.top (s.fld (.jmpLate c) JMP_LATE.COUNT + 1) ∧ t.isSet (.jmpStatus c) JMP_STATUS.LATE_ACCEPT = true
        ∧ ∃ j, t.chans[c].pend = some j ∧ j.mode = .boundary ∧ j.atBoundary = true ∧ j.take = b ∧ j.late = true ∧ j.slot = x.slot ∧ j.target = slotTarget x.word ∧ j.source = x.source ∧ j.channel = ch)
    ∧ (∀ x old, s.chans[c].st = .playing → first = some x → s.chans[c].pend = some old →
        t.chans[c].pend ≠ none ∧ t.fld (.jmpDropped c) JMP_DROPPED.COUNT = min JMP_DROPPED.COUNT.top (s.fld (.jmpDropped c) JMP_DROPPED.COUNT + 1))))
  ∧ (∀ (s : State) (c : ChanId) (j : PendingJump) (fr : List Frame), s.Ordinary → s.chans[c].st = .playing → s.chans[c].pend = some j → s.heldFrom c = none →
  s.Sound (s.table c) j.target → enterFrames ((s.table c).entry j.target) false s.chans[c].frames = some fr →
  let taken := fun (p : Nat) (t : State) =>
    t.chans[c].st = .playing ∧ t.chans[c].entry = j.target ∧ t.chans[c].iter = 0 ∧ t.chans[c].frames = fr ∧ t.chans[c].iterStart = p ∧ t.chans[c].visitStart = p ∧ t.chans[c].pend = none
    ∧ t.rd (.jmpLast c) = BitVec.ofNat 32 (jumpWord { j with take := p } (decide (s.chans[c].visit ≠ j.regVisit))) ∧ t.rd (.jmpLastGc c) = BitVec.ofNat 32 (p / 32) ∧ t.rd (.jmpLastReg c) = BitVec.ofInt 32 j.seenGc
    ∧ t.fld (.jmpLastSrc c) JMP_LAST_SRC.SOURCE = j.source % 2 ^ 14 ∧ t.fld (.jmpLastSrc c) JMP_LAST_SRC.CHANNEL = j.channel.val
    ∧ t.fld (.jmpTaken c) JMP_TAKEN.COUNT = min JMP_TAKEN.COUNT.top (s.fld (.jmpTaken c) JMP_TAKEN.COUNT + 1) ∧ t.isSet (.jmpStatus c) JMP_STATUS.TAKEN = true
    ∧ s.chans[c].startGran + p / 32 ≤ t.granC c ∧ s.SameBytes t
  (j.atBoundary = false → s.chans[c].iterStart < j.take → j.take < s.iterEnd c → Completes (.jumpTake c) s (taken j.take))
  ∧ (j.atBoundary = true ∨ j.take = s.iterEnd c → s.jumpDueAt c (s.iterEnd c) = true → s.swapDue c (s.iterEnd c) = false → Completes (.jumpTake c) s (taken (s.iterEnd c))))

/-- R87 to R89: a head read that ends well marks its place of the list read held, with the bytes of the head; one that failed, or whose bytes cannot be read, leaves it not held, with HEAD_LOST unless
the entry's segment lies on a lost Dome; an answer about no place of the list changes nothing. Which of two lists an answer concerns is the model's choice (log entry 111). R99, R282: a group
order reaches a member that plays: its slot for the channel takes the leader's take point where that is still ahead and the target can be there, and otherwise the member's own boundary, with
GROUP_SPLIT; of two requests that meet one is dropped and counted. A member with no slot armed for the channel, as one that does not play, stays, with GROUP_MISS; while it recovers the order is
kept for the walk it takes up again (the model's reading, log entry 118). Each of these commands is said to answer a next state, on conditions of the state and the operands alone: headReadDone,
groupOrderReceive. -/
def Obligations.HeadReadsAndGroups : Prop := 
  (∀ (s : State) (c : ChanId) (place : Fin 8) (ok : Bool), s.Ordinary →
  let next := s.chans[c].readsNext place.val
  let l := if next then s.chans[c].readyNext.getD [] else s.chans[c].ready
  (l[place.val]? = none → exec (.headReadDone c place ok) s = .next s)
  ∧ (∀ r, l[place.val]? = some r →
      let e := (if next then s.staged c else s.table c).entry r.entry
      let head := if ok then s.headBytes c e else none
      Completes (.headReadDone c place ok) s (fun t =>
        let l' := if next then t.chans[c].readyNext.getD [] else t.chans[c].ready
        l'[place.val]? = some { r with held := head.isSome, head := head.getD [] } ∧ (∀ i, i ≠ place.val → l'[i]? = l[i]?)
        ∧ (next = true → t.chans[c].ready = s.chans[c].ready) ∧ (next = false → t.chans[c].readyNext = s.chans[c].readyNext) ∧ (∀ x ≠ c, t.chans[x] = s.chans[x])
        ∧ (head = none → ¬ (ok = true ∧ s.segLost e = true) → t.isSet (.jmpStatus c) JMP_STATUS.HEAD_LOST = true)
        ∧ t = { s with regs := t.regs, chans := t.chans } ∧ s.SameRegs t (fun x => head = none ∧ ¬ (ok = true ∧ s.segLost e = true) ∧ x = .jmpStatus c))))
  ∧ (∀ (s : State) (c : ChanId) (o : GroupOrder) (rest : List GroupOrder), s.Ordinary → s.chans[c].orders = o :: rest →
  let slot := if s.chans[c].st = .playing then (s.entryOf c).armedSlot o.channel else none
  (slot = none → Completes (.groupOrderReceive c) s (fun t =>
      t.chans[c] = { s.chans[c] with orders := rest, missed := if s.chans[c].st = .fault ∨ s.chans[c].resume = true then s.chans[c].missed ++ [⟨o, s.granC c⟩] else s.chans[c].missed }
      ∧ (∀ x ≠ c, t.chans[x] = s.chans[x]) ∧ t.isSet (.jmpStatus c) JMP_STATUS.GROUP_MISS = true ∧ t = { s with regs := t.regs, chans := t.chans, fabric := t.fabric }
      ∧ s.SameRegs t (fun r => r = .jmpStatus c ∨ r.ofFabric = true)))
  ∧ (∀ k, slot = some k →
      let (base, exact) := s.memberJump c o k s.chans[c].entry s.chans[c].visit (s.playPos c)
      let target := slotTarget ((s.entryOf c).slot k)
      (s.chans[c].pend = none → exact = true → Completes (.groupOrderReceive c) s (fun t => (∃ j, t.chans[c].pend = some j ∧ j.group = true ∧ j.mode = o.mode ∧ j.slot = k ∧ j.target = target
          ∧ (j.take : Int) = o.take - 32 * s.startUgc c ∧ j.atBoundary = false) ∧ t.chans[c].orders = rest ∧ (∀ x ≠ c, t.chans[x] = s.chans[x]) ∧ t = { s with chans := t.chans }))
      ∧ (∀ b, s.chans[c].pend = none → exact = false → s.boundaryTake c (base.regGc + s.groupLag c true) = some b → Completes (.groupOrderReceive c) s (fun t =>
          (∃ j, t.chans[c].pend = some j ∧ j.group = true ∧ j.slot = k ∧ j.target = target ∧ j.take = b ∧ j.atBoundary = true) ∧ t.chans[c].orders = rest ∧ (∀ x ≠ c, t.chans[x] = s.chans[x])
          ∧ t.isSet (.jmpStatus c) JMP_STATUS.GROUP_SPLIT = true ∧ t = { s with regs := t.regs, chans := t.chans, fabric := t.fabric } ∧ s.SameRegs t (fun r => r = .jmpStatus c ∨ r.ofFabric = true)))
      ∧ (∀ old, s.chans[c].pend = some old → Completes (.groupOrderReceive c) s (fun t => t.chans[c].orders = rest ∧ t.chans[c].pend ≠ none
          ∧ t.fld (.jmpDropped c) JMP_DROPPED.COUNT = min JMP_DROPPED.COUNT.top (s.fld (.jmpDropped c) JMP_DROPPED.COUNT + 1)))))

/-- R119, R115: a write of FREQ_LO is held; the write of FREQ_HI that follows takes effect with it as one word at a granule edge within 4 gc; the curvature joins the rate of a chirp after each 32nd
sample, the bound sector's word having grown by the old rate in each, and the other sectors' phases by their words; with no chirp there is nothing to do. The registers of CH(2k+1) of a pair take
no write (the model's reading, log entry 116). Each of these commands is said to answer a next state, on conditions of the state and the operands alone: freqLoWrite, freqHiWrite, chirpCurveStep. -/
def Obligations.FrequencyWordsPair : Prop := ∀ (s : State) (c : ChanId), s.Ordinary →
  (∀ (f : Func) (k : Fin 8) (v : Word), s.pairSlave c = false → s.writeReaches f (.lantSecFreqLo c k) = true → Completes (.freqLoWrite f c k v) s (fun t =>
      t.chans[c] = { s.chans[c] with nco := { s.chans[c].nco with loHeld := s.chans[c].nco.loHeld.set k v } } ∧ (∀ x ≠ c, t.chans[x] = s.chans[x]) ∧ s.SameRegs t (fun _ => False) ∧ s.SameBytes t))
  ∧ (∀ (f : Func) (k : Fin 8) (v : Word), s.pairSlave c = false → s.writeReaches f (.lantSecFreqHi c k) = true → Completes (.freqHiWrite f c k v) s (fun t =>
      (∃ i : Fin 4, t.chans[c] = { s.chans[c] with nco := { s.chans[c].nco with
          writes := insertWrite ⟨k, BitVec.ofNat 48 (s.chans[c].nco.loHeld[k].toNat + v.toNat % 2 ^ 16 * 2 ^ 32), 32 * (s.granC c + 1 + i.val)⟩ s.chans[c].nco.writes } })
      ∧ (∀ x ≠ c, t.chans[x] = s.chans[x]) ∧ s.SameRegs t (fun r => r = .lantSecFreqHi c k) ∧ s.SameBytes t))
  ∧ (∀ (f : Func) (k : Fin 8) (v : Word), s.pairSlave c = true → s.writeReaches f (.lantSecFreqLo c k) = true → Completes (.freqLoWrite f c k v) s (fun t => t.chans = s.chans ∧ s.SameRegs t (fun _ => False)))
  ∧ (∀ (f : Func) (k : Fin 8) (v : Word), s.pairSlave c = true → s.writeReaches f (.lantSecFreqHi c k) = true → Completes (.freqHiWrite f c k v) s (fun t => t.chans = s.chans ∧ s.SameRegs t (fun r => r = .lantSecFreqHi c k)))
  ∧ (s.chans[c].nco.chirp = none ∨ s.chans[c].nco.runs = false → exec (.chirpCurveStep c) s = .next s)
  ∧ (∀ ch, s.chans[c].nco.chirp = some ch → s.chans[c].nco.runs = true → ch.start ≤ s.chans[c].nco.at_ → s.chans[c].nco.writes = [] →
      let x := s.chans[c].nco
      let edge := ch.start + ((x.at_ - ch.start) / 32 + 1) * 32
      let n := BitVec.ofNat 48 (edge - x.at_)
      Completes (.chirpCurveStep c) s (fun t => t.chans[c].nco.at_ = edge ∧ t.chans[c].nco.rate = x.rate + BitVec.ofInt 40 ch.curv ∧ t.chans[c].nco.chirp = some ch
        ∧ t.chans[c].nco.freq[ch.sector] = x.freq[ch.sector] + n * x.rate.signExtend 48 ∧ (∀ k : Fin 8, k ≠ ch.sector → t.chans[c].nco.freq[k] = x.freq[k] ∧ t.chans[c].nco.acc[k] = x.acc[k] + n * x.freq[k])
        ∧ t.clock = (s.reachGranC c (ceilDiv edge 32)).clock ∧ s.SameBytes t))

/-- R135, R140, R143, R144, R347: STREAM_ATTACH of a detached stream whose values are sound writes its registers and leaves it FILLING at position 0 with nothing pulled; a region or watermarks that
break their rules refuse it, and an attached stream is refused with TENDER_BUSY; nothing changes then but the ring and the report. R143, R347: STREAM_DETACH of an attached stream whose channel is
not PRIMING, PLAYING or in FAULT leaves it DETACHED and its region empty; while its channel is, it is refused with TENDER_BUSY. R143, R152, R144, R157: a write of ATTACH attaches a detached
stream or is refused with its reason, and a write of 0 detaches an attached one unless its channel is busy; TND_LIMIT is refused below the blocks already pulled; watermarks that break their rule
are refused on an attached stream, on which FILL keeps its value. Each of these commands is said to answer a next state, on conditions of the state and the operands alone: streamAttach,
streamDetach, tndAttachWrite, tndDetachWrite, tndLimitWrite, tndWmWrite. -/
def Obligations.StreamsAttachAndDetach : Prop := 
  (∀ (s : State) (h : DescHdr) (st : StreamId) (ctrl region fallback ringLo ringHi : Word) (cons : QWord) (wmA wmB limit : Word),
  s.Ordinary → s.Fetches h → s.feature 1 = true → TND_CTRL.ATTACH.get ctrl = 1 → cons.toNat % 8 = 0
  → (∀ p ∈ [((Reg.tndCtrl st), ctrl), (.tndRegion st, region), (.tndFallback st, fallback), (.tndRingLo st, ringLo)], p.2 &&& p.1.reservedMask = 0) →
  let run := Instr.streamAttach h st ctrl region fallback ringLo ringHi cons wmA wmB limit
  let detail := detailOf none none (some st)
  (s.attached st = true → Completes run s (fun t => s.Passed t h 5 Reason.tenderBusy detail ∧ t = { s with host := t.host } ∧ t.host.mem = s.host.mem))
  ∧ (∀ reason, s.attached st = false → s.attachRefused st ctrl.toNat region.toNat wmA.toNat wmB.toNat = some reason →
      Completes run s (fun t => s.Passed t h 5 reason detail ∧ t = { s with host := t.host } ∧ t.host.mem = s.host.mem))
  ∧ (s.attached st = false → s.attachRefused st ctrl.toNat region.toNat wmA.toNat wmB.toNat = none → Completes run s (fun t => s.Passed t h 5 0 0
      ∧ t.streams = s.streams.set st { Stream.reset with st := .filling, owner := s.host.drings[h.ring].func }
      ∧ (∀ p ∈ [((Reg.tndCtrl st), ctrl), (.tndRegion st, region), (.tndFallback st, fallback), (.tndRingLo st, ringLo), (.tndRingHi st, ringHi), (.tndConsLo st, BitVec.ofNat 32 cons.toNat),
          (.tndConsHi st, BitVec.ofNat 32 (cons.toNat / 2 ^ 32)), (.tndWmA st, wmA), (.tndWmB st, wmB), (.tndLimit st, limit)], t.rd p.1 = p.2)
      ∧ s.SameRegs t (· ∈ [Reg.tndCtrl st, .tndRegion st, .tndFallback st, .tndRingLo st, .tndRingHi st, .tndConsLo st, .tndConsHi st, .tndWmA st, .tndWmB st, .tndLimit st])
      ∧ t = { s with regs := t.regs, streams := t.streams, power := t.power, host := t.host } ∧ t.host.mem = s.host.mem)))
  ∧ (∀ (s : State) (h : DescHdr) (st : StreamId), s.Ordinary → s.Fetches h →
  let dome := domeOfStream st
  (s.attached st = false → Completes (.streamDetach h st) s (fun t => s.Passed t h 6 0 0 ∧ t = { s with host := t.host } ∧ t.host.mem = s.host.mem))
  ∧ (s.attached st = true → s.chans[s.chanOf st].st.busy = true → Completes (.streamDetach h st) s (fun t =>
      s.Passed t h 6 Reason.tenderBusy (detailOf none none (some st)) ∧ t = { s with host := t.host } ∧ t.host.mem = s.host.mem))
  ∧ (s.attached st = true → s.chans[s.chanOf st].st.busy = false → Completes (.streamDetach h st) s (fun t => s.Passed t h 6 0 0 ∧ t.streams = s.streams.set st Stream.reset
      ∧ t.isSet (.tndCtrl st) TND_CTRL.ATTACH = false ∧ s.SameRegs t (· = .tndCtrl st)
      ∧ (∀ a, Memory.get t.moor[dome].data a = if s.regionBase st ≤ a ∧ a < s.regionBase st + s.regionSize st then 0 else Memory.get s.moor[dome].data a) ∧ t.moor[twin dome] = s.moor[twin dome]
      ∧ t = { s with regs := t.regs, streams := t.streams, moor := t.moor, host := t.host } ∧ t.host.mem = s.host.mem)))
  ∧ (∀ (s : State) (f : Func) (st : StreamId) (v : Word), s.Ordinary →
  (TND_CTRL.ATTACH.get v = 1 → s.attached st = false → s.writeReaches f (.tndCtrl st) = true →
      let refused := s.attachRefused st v.toNat (s.rd (.tndRegion st)).toNat (s.rd (.tndWmA st)).toNat (s.rd (.tndWmB st)).toNat
      Completes (.tndAttachWrite f st v) s (fun t =>
        (refused = none → t.streams = s.streams.set st { Stream.reset with st := .filling, owner := f } ∧ t.isSet (.tndCtrl st) TND_CTRL.ATTACH = true ∧ s.SameRegs t (· = .tndCtrl st))
        ∧ (∀ reason, refused = some reason → t.streams = s.streams ∧ t.isSet (.tndStatus st) TND_STATUS.ATTACH_REFUSED = true ∧ t.fld (.tndStatus st) TND_STATUS.REASON = reason % 2 ^ 16
            ∧ t.isSet (.tndCtrl st) TND_CTRL.ATTACH = s.isSet (.tndCtrl st) TND_CTRL.ATTACH ∧ s.SameRegs t (fun r => r = .tndCtrl st ∨ r = .tndStatus st))
        ∧ (∀ x ∈ [TND_CTRL.POLICY, TND_CTRL.FILL_MODE, TND_CTRL.FORMAT, TND_CTRL.INTERP, TND_CTRL.BLOCK_EV, TND_CTRL.EV_CH, TND_CTRL.CHANNEL], t.fld (.tndCtrl st) x = x.get v)
        ∧ t.chans = s.chans ∧ s.SameBytes t))
  ∧ (TND_CTRL.ATTACH.get v = 0 → s.attached st = true → s.writeReaches f (.tndCtrl st) = true → Completes (.tndDetachWrite f st v) s (fun t =>
        (s.chans[s.chanOf st].st.busy = false → t.streams = s.streams.set st Stream.reset ∧ t.isSet (.tndCtrl st) TND_CTRL.ATTACH = false
            ∧ ∀ a, Memory.get t.moor[domeOfStream st].data a = if s.regionBase st ≤ a ∧ a < s.regionBase st + s.regionSize st then 0 else Memory.get s.moor[domeOfStream st].data a)
        ∧ (s.chans[s.chanOf st].st.busy = true → t.streams = s.streams ∧ s.SameBytes t) ∧ t.chanOf st = s.chanOf st ∧ t.chans = s.chans
        ∧ s.SameRegs t (fun r => r = .tndCtrl st ∨ r = .glob .lockedWr)))
  ∧ (s.writeReaches f (.tndLimit st) = true →
      let refused := s.attached st = true ∧ v ≠ 0 ∧ v.toNat < s.streams[st].drawn
      Completes (.tndLimitWrite f st v) s (fun t =>
        (¬ refused → t.rd (.tndLimit st) = v ∧ s.SameRegs t (· = .tndLimit st))
        ∧ (refused → t.isSet (.tndStatus st) TND_STATUS.LIMIT_REFUSED = true ∧ t.fld (.tndStatus st) TND_STATUS.REASON = Reason.tenderLimit ∧ s.SameRegs t (· = .tndStatus st))
        ∧ t.streams = s.streams ∧ s.SameBytes t))
  ∧ (∀ second : Bool, s.writeReaches f (if second then .tndWmB st else .tndWmA st) = true →
      let a := if second then s.rd (.tndWmA st) else if s.attached st then TND_WM_A.FILL.put v (s.fld (.tndWmA st) TND_WM_A.FILL) else v
      let b := if second then v else s.rd (.tndWmB st)
      let refused := s.attached st = true ∧ marksOk (s.slotsOf st) a.toNat b.toNat = false
      Completes (.tndWmWrite f st second v) s (fun t =>
        (¬ refused → t.rd (.tndWmA st) = a ∧ t.rd (.tndWmB st) = b)
        ∧ (refused → t.rd (.tndWmA st) = s.rd (.tndWmA st) ∧ t.rd (.tndWmB st) = s.rd (.tndWmB st) ∧ t.isSet (.tndStatus st) TND_STATUS.WM_REFUSED = true ∧ t.streams = s.streams)
        ∧ t.chans = s.chans ∧ s.SameBytes t)))

/-- R136 to R139, R341: a poll reads the producer indexes of the rings and streams a Dome serves and fetches behind them; a block that lands fills its slot of the region from host memory; a block
that P has passed is consumed, counted where nothing of it was played, and the consumer index is written to host memory. R145 to R153: a flowing stream whose first missing granule the walk is to
play within 48 gc under-runs, and one whose is not does nothing; the test of each policy finds the granule of the re-entry; where the walk plays it the stream flows again; where the walk comes to
TND_LIMIT it is drained. Each of these commands is said to answer a next state, on conditions of the state and the operands alone: doorbellPoll, blockLanded, blockConsumed, underrunDeclare,
resumeTest, keepPositionTest, streamReentry, streamDrained. -/
def Obligations.BlocksAndUnderruns : Prop := 
  (∀ (s : State), s.Ordinary →
  (∀ d : DomeId, s.linkUp d = true → s.serves = true → Completes (.doorbellPoll d) s (fun t =>
      (∀ r : RingId, s.host.drings[r].up = true → s.host.drings[r].func = d → t.host.drings[r].prod = s.slotAt r.val ∧ s.host.drings[r].fetched <+: t.host.drings[r].fetched
          ∧ t.host.drings[r].fetched.length ≤ max 64 s.host.drings[r].fetched.length ∧ t.host.drings[r].cons = s.host.drings[r].cons ∧ t.host.drings[r].began = s.host.drings[r].began)
      ∧ (∀ r : RingId, ¬ (s.host.drings[r].up = true ∧ s.host.drings[r].func = d) → t.host.drings[r] = s.host.drings[r])
      ∧ (∀ st : StreamId, s.attached st = true → s.streamLink st = some d → t.streams[st].prod = s.slotAt (128 + st.val) ∧ s.streams[st].pulled ≤ t.streams[st].pulled ∧ t.streams[st].landed = s.streams[st].landed)
      ∧ (∀ st : StreamId, ¬ (s.attached st = true ∧ s.streamLink st = some d) → t.streams[st] = s.streams[st])
      ∧ t.host.mem = s.host.mem ∧ t.host.rrings = s.host.rrings ∧ t = { s with streams := t.streams, host := t.host }))
  ∧ (∀ (st : StreamId) (i : Nat), i ∈ s.streams[st].staged → Completes (.blockLanded st i) s (fun t =>
      let d := domeOfStream st
      let lo := s.regionBase st + i % max 1 (s.slotsOf st) * 65536
      (∀ a, Memory.get t.moor[d].data a = if lo ≤ a ∧ a < lo + 65536 then Memory.get s.host.mem (s.blockAddr st i + (a - lo)) else Memory.get s.moor[d].data a)
      ∧ t.streams[st].total = s.streams[st].total + 1 ∧ (∀ o ≠ st, t.streams[o] = s.streams[o]) ∧ t.moor[twin d] = s.moor[twin d] ∧ t.clock = s.clock))
  ∧ (∀ st : StreamId, s.attached st = true → (s.streams[st].consumed + 1) * s.gbOf st ≤ s.streamPos st → s.streams[st].consumed ∉ s.streams[st].staged → Completes (.blockConsumed st) s (fun t =>
      let b := s.streams[st].consumed
      t.streams[st].consumed = b + 1
      ∧ (b ∈ s.streams[st].landed → b ∉ s.streams[st].played → t.fld (.tndDiscarded st) TND_DISCARDED.BLOCKS = min TND_DISCARDED.BLOCKS.top (s.fld (.tndDiscarded st) TND_DISCARDED.BLOCKS + 1))
      ∧ (s.streamLink st ≠ none → Memory.readLE t.host.mem (s.consAddr st) 8 = (b + 1) % 2 ^ 64)
      ∧ (∀ a, ¬ (s.consAddr st ≤ a ∧ a < s.consAddr st + 8) → Memory.get t.host.mem a = Memory.get s.host.mem a)
      ∧ (∀ o ≠ st, t.streams[o] = s.streams[o]) ∧ t.chans = s.chans ∧ t.moor = s.moor ∧ t.clock = s.clock)))
  ∧ (∀ (s : State) (st : StreamId), s.Ordinary →
  let c := s.chanOf st
  let x := s.streams[st]
  let limit := s.fld (.tndLimit st) TND_LIMIT.BLOCKS
  let m := s.firstMissing st (s.streamPos st)
  let resumes := fun (t : State) => t.streams[st].st = .flowing ∧ t.streams[st].resumeAt = none ∧ t.isSet (.tndStatus st) TND_STATUS.RESUMED = true
  (∀ q n, x.st = .flowing → limit = 0 ∨ m < limit * s.gbOf st → s.streamDue st m 48 = some q → s.granulesTo c q = some n → n ≤ 48 → Completes (.underrunDeclare st) s (fun t =>
      t.streams[st].st = .underrun ∧ t.streams[st].missing = m ∧ t.streams[st].resumeAt = none ∧ t.rd (.tndGapLast st) = 0 ∧ t.isSet (.tndStatus st) TND_STATUS.UNDERRUN = true
      ∧ t.fld (.tndUnderruns st) TND_UNDERRUNS.COUNT = min TND_UNDERRUNS.COUNT.top (s.fld (.tndUnderruns st) TND_UNDERRUNS.COUNT + 1)
      ∧ t.chans[c].pauseFrom = (if s.keepsPosition st then some q else s.chans[c].pauseFrom) ∧ (∀ o ≠ st, t.streams[o] = s.streams[o]) ∧ t.clock = s.clock ∧ s.SameBytes t))
  ∧ (x.st ≠ .flowing ∨ (limit ≠ 0 ∧ limit * s.gbOf st ≤ m) ∨ (∀ q n, s.streamDue st m 48 = some q → s.granulesTo c q = some n → 48 < n) → exec (.underrunDeclare st) s = .next s)
  ∧ (x.st = .underrun → s.keepsPosition st = false → x.resumeAt = none →
      let k := x.tested + 1
      k * s.gbOf st ≤ s.streamPos st + 48 → Completes (.resumeTest st) s (fun t =>
        t.streams[st] = { x with tested := k, resumeAt := if s.resumeReady st k then some (k * s.gbOf st) else none } ∧ (∀ o ≠ st, t.streams[o] = s.streams[o]) ∧ t = { s with streams := t.streams }))
  ∧ (x.st = .underrun → s.keepsPosition st = true → x.resumeAt = none → s.resumeReady st (x.missing / max 1 (s.gbOf st)) = true → Completes (.keepPositionTest st) s (fun t =>
        t.streams[st] = { x with resumeAt := some x.missing, reenter := s.chans[c].iterStart + (s.playPos c - s.chans[c].iterStart) / 32 * 32 + 32 * 48 } ∧ (∀ o ≠ st, t.streams[o] = s.streams[o]) ∧ t = { s with streams := t.streams }))
  ∧ (∀ g q, x.st = .underrun → x.resumeAt = some g → s.keepsPosition st = true → s.chans[c].pauseFrom = some q → Completes (.streamReentry st) s (fun t =>
        resumes t ∧ t.chans[c].pauseFrom = none ∧ t.chans[c].iterStart = s.chans[c].iterStart + (x.reenter - q) ∧ t.fld (.tndSkipped st) TND_SKIPPED.GRANULES = s.fld (.tndSkipped st) TND_SKIPPED.GRANULES
        ∧ t.clock = (s.reachPos c x.reenter).clock ∧ s.SameBytes t))
  ∧ (∀ g q, x.st = .underrun → x.resumeAt = some g → s.keepsPosition st = false → s.chans[c].st = .playing → s.streamDue st g 4096 = some q → q < s.iterEnd c → Completes (.streamReentry st) s (fun t =>
        resumes t ∧ t.fld (.tndSkipped st) TND_SKIPPED.GRANULES = min TND_SKIPPED.GRANULES.top (s.fld (.tndSkipped st) TND_SKIPPED.GRANULES + (g - x.missing)) ∧ t.clock = (s.reachPos c q).clock ∧ s.SameBytes t))
  ∧ (∀ q, limit ≠ 0 → x.st = .flowing ∨ x.st = .underrun → s.chans[c].st = .playing →
      let g := max (limit * s.gbOf st) (s.streamPos st)
      s.streamDue st g 4096 = some q → q < s.iterEnd c → Completes (.streamDrained st) s (fun t =>
        t.streams[st].st = .drained ∧ t.streams[st].missing = g ∧ t.streams[st].resumeAt = none ∧ t.rd (.tndGapLast st) = 0 ∧ t.isSet (.tndStatus st) TND_STATUS.DRAINED = true
        ∧ t.chans[c].pauseFrom = none ∧ t.clock = (s.reachPos c q).clock ∧ s.SameBytes t)))

/-- R256, R258 to R262: a word that names no unit takes its cycles, writes its ALU result and its flags, and SEQ gives the next word, the stack or the end of a WAIT; END with an empty release buffer
completes the routine. The value the ALU leaves open (a flag no rule states, log entry 10) is free. Each of these commands is said to answer a next state, on conditions of the state and the
operands alone: microwordExecute. -/
def Obligations.EngineWordsRun : Prop := ∀ s : State, s.Ordinary →
  (∀ (k : KeeperId) (i : Fin 16) (w : Microword), s.keeperUp k = true → s.keepers[k].input = some i → s.keepers[k].releasing = false → s.keepers[k].waitEnd = none →
    s.keeperWord k s.keepers[k].word = (w, s) → keeperWordOk w = true → mwBits w 96 50 = 0 → (mwSeq w = 3 → s.keepers[k].stack.length < 8) → (mwSeq w = 4 → s.keepers[k].stack ≠ []) →
    (mwSeq w = 6 → s.keepers[k].buffer = []) →
    let x := s.keepers[k]
    let flags : AluFlags := ⟨x.zero, x.neg, x.carry⟩
    let branch := s.keeperCond k (mwCond w) (gAt x.g 0).toNat flags != mwCondNeg w
    Completes (.microwordExecute (.keeper k) .clean) s (fun t =>
      (t.keepers[k].g, AluFlags.mk t.keepers[k].zero t.keepers[k].neg t.keepers[k].carry) = aluStep w x.g flags (Config.freeBits s.free)
      ∧ t.clock = (s.reachTime (s.clock.now + mwCycles w * qCore)).clock
      ∧ (mwSeq w = 0 → t.keepers[k].word = (x.word + 1) % 16384) ∧ (mwSeq w = 1 → t.keepers[k].word = mwTarget w) ∧ (mwSeq w = 2 → t.keepers[k].word = if branch then mwTarget w else (x.word + 1) % 16384)
      ∧ (mwSeq w = 3 → t.keepers[k].word = mwTarget w ∧ t.keepers[k].stack = (x.word + 1) % 16384 :: x.stack)
      ∧ (∀ a rest, mwSeq w = 4 → x.stack = a :: rest → t.keepers[k].word = a % 16384 ∧ t.keepers[k].stack = rest)
      ∧ (mwSeq w = 5 → t.keepers[k].waitEnd = some (s.clock.now + mwTimeout w))
      ∧ (mwSeq w = 6 → t.keepers[k].input = none ∧ t.inputBusy (inputIx k i) = false) ∧ (mwSeq w ≠ 6 → t.keepers[k].input = some i ∧ t.keepers[k].committed = (x.committed || mwCommit w))
      ∧ (∀ j ≠ k, t.keepers[j] = s.keepers[j]) ∧ t = { s with regs := t.regs, free := t.free, clock := t.clock, keepers := t.keepers } ∧ s.SameRegs t (fun r => mwSeq w = 6 ∧ r = .bcnConsStat (inputIx k i))))
  ∧ (∀ (c : ChanId) (w : Microword), s.engines[c].store ≠ none → s.domainOn (domChan c) = true → s.dieLost[Die.ofLamp (lampOf c)] = false → s.channelWord c s.engines[c].word = (w, s) → channelWordOk w = true →
    mwBits w 96 47 = 0 → (mwSeq w = 3 → s.engines[c].stack.length < 8) → (mwSeq w = 4 → s.engines[c].stack ≠ []) →
    let x := s.engines[c]
    let flags : AluFlags := ⟨x.zero, x.neg, x.carry⟩
    Completes (.microwordExecute (.channel c) .clean) s (fun t =>
      let branch := State.chanCond { s with clock := t.clock } c (mwCond w) flags ((Config.freeBits s.free).getLsbD 1) != mwCondNeg w
      (t.engines[c].g, AluFlags.mk t.engines[c].zero t.engines[c].neg t.engines[c].carry) = aluStep w x.g flags (Config.freeBits s.free)
      ∧ t.clock = (if s.clock.runs[lampOf c] then (s.reachGranC c (s.granC c + mwCycles w)).clock else s.clock)
      ∧ (mwSeq w = 0 → t.engines[c].word = (x.word + 1) % 8192) ∧ (mwSeq w = 1 → t.engines[c].word = mwTarget w % 8192) ∧ (mwSeq w = 2 → t.engines[c].word = (if branch then mwTarget w else x.word + 1) % 8192)
      ∧ (mwSeq w = 3 → t.engines[c].word = mwTarget w % 8192 ∧ t.engines[c].stack = (x.word + 1) % 8192 :: x.stack)
      ∧ (∀ a rest, mwSeq w = 4 → x.stack = a :: rest → t.engines[c].word = a ∧ t.engines[c].stack = rest)
      ∧ (∀ j ≠ c, t.engines[j] = s.engines[j]) ∧ t = State.relayCheck { s with free := t.free, clock := t.clock, engines := t.engines }))

/-- R259, R266 to R268: the lowest busy input starts its routine at its entry word; a WAIT whose condition holds goes on at the next word, one that times out at TARGET with TIMEOUT; what the units
finish is seen by the conditions; a release that ends completes the routine. R270, R271, R277: a fault abandons the running routine and records its code, routine, input and word; a transient one
restarts it up to RETRY times in a row, any other fails it: an owner routine that has run for MAX_RUN (vendor routines ignore the setting), a unit's operation that fails, a register access that
does not complete, a word in error beyond correction. Each of these commands is said to answer a next state, on conditions of the state and the operands alone: routineStart, microwordExecute,
releaseDone, waitConditionMet, waitTimeout, runLimit, unitOpComplete, regPollRead, regTimeout. -/
def Obligations.KeeperRoutinesEnd : Prop := 
  (∀ (s : State) (k : KeeperId), s.Ordinary →
  (∀ i, s.keepers[k].input = none → s.keeperUp k = true → s.nextInput k = some i → (s.routineOf k (s.boundRoutine k i)).valid = true → Completes (.routineStart k) s (fun t =>
      t.keepers[k].input = some i ∧ t.keepers[k].word = (s.routineOf k (s.boundRoutine k i)).word ∧ t.keepers[k].stack = [] ∧ t.keepers[k].committed = false ∧ t.keepers[k].began = s.clock.now
      ∧ (∀ j ≠ k, t.keepers[j] = s.keepers[j]) ∧ t = { s with keepers := t.keepers }))
  ∧ (∀ i, s.keepers[k].input = none → s.keeperUp k = true → s.nextInput k = some i → (s.routineOf k (s.boundRoutine k i)).valid = false → Completes (.routineStart k) s (fun t =>
      t.keepers[k].input = none ∧ t.fld (.kprFault k) KPR_FAULT.CODE = 9 ∧ t.isSet (.kprBind k i) KPR_BINDi.FAILED = true ∧ t.isSet (.kprBind k i) KPR_BINDi.EN = false ∧ t.inputBusy (inputIx k i) = false))
  ∧ (s.keepers[k].input ≠ none ∨ s.keeperUp k = false ∨ s.nextInput k = none → exec (.routineStart k) s = .next s)
  ∧ (s.keepers[k].waitEnd = none → exec (.waitConditionMet k) s = .next s ∧ exec (.waitTimeout k) s = .next s)
  ∧ (s.keepers[k].input = none ∨ s.keepers[k].releasing = false → exec (.releaseDone k) s = .next s)
  ∧ (s.keeperRuns k = false → exec (.regPollRead k) s = .next s ∧ ∀ (unit : Fin 4) (ok : Bool), exec (.unitOpComplete k unit ok) s = .next s)
  ∧ (∀ t0, s.keepers[k].waitEnd = some t0 →
      let w := (s.keeperWord k s.keepers[k].word).1
      (s.clock.now ≤ t0 → s.waitHolds k w = true → Completes (.waitConditionMet k) s (fun t =>
          t.keepers = s.keepers.set k { s.keepers[k] with word := (s.keepers[k].word + 1) % 16384, waitEnd := none } ∧ t = { s with keepers := t.keepers, free := t.free }))
      ∧ (¬ (s.clock.now ≤ t0 ∧ s.waitHolds k w = true) → Completes (.waitConditionMet k) s (fun t => t = { s with free := t.free }))
      ∧ (s.waitHolds k w = false → Completes (.waitTimeout k) s (fun t => t.clock = (s.reachTime t0).clock ∧ t.keepers = s.keepers.set k { s.keepers[k] with word := mwTarget w % 16384, waitEnd := none }
          ∧ t.isSet (.kprStatus k) KPR_STATUS.TIMEOUT = true ∧ t = { s with regs := t.regs, clock := t.clock, keepers := t.keepers, free := t.free } ∧ s.SameRegs t (· = .kprStatus k)))
      ∧ (s.waitHolds k w = true → Completes (.waitTimeout k) s (fun t => t.clock = (s.reachTime t0).clock
          ∧ t.keepers = s.keepers.set k { s.keepers[k] with word := (s.keepers[k].word + 1) % 16384, waitEnd := none } ∧ t = { s with clock := t.clock, keepers := t.keepers, free := t.free })))
  ∧ (∀ i, s.keepers[k].input = some i → s.keepers[k].releasing = true → Completes (.releaseDone k) s (fun t =>
      t.keepers[k].input = none ∧ t.keepers[k].buffer = [] ∧ t.keepers[k].releasing = false ∧ t.inputBusy (inputIx k i) = false
      ∧ (∀ r : RingId, s.keepers[k].buffer = [.consume r.val] → s.host.drings[r].up = true → s.host.drings[r].began = none → s.host.drings[r].fetched ≠ [] → t.host.drings[r].cons = (s.host.drings[r].cons + 1) % 2 ^ 64)
      ∧ (s.keepers[k].buffer = [] → t = { s with regs := t.regs, keepers := t.keepers } ∧ s.SameRegs t (· = .bcnConsStat (inputIx k i)))))
  ∧ (s.keeperRuns k = true →
      Completes (.unitOpComplete k 1 true) s (fun t => t = { s with keepers := s.keepers.set k { s.keepers[k] with dmaDone := true } })
      ∧ Completes (.unitOpComplete k 2 true) s (fun t => t = { s with keepers := s.keepers.set k { s.keepers[k] with plateDone := true } })
      ∧ exec (.unitOpComplete k 3 true) s = .next s
      ∧ (∀ a v u, s.keepers[k].access = some a → s.mapRead (.keeper k) a.addr = (some v, u) →
          (a.poll = false → Completes (.unitOpComplete k 0 true) s (fun t => t = { u with keepers := u.keepers.set k { u.keepers[k] with g := u.keepers[k].g.set (Fin.ofNat 16 (a.reg + 1)) (v.setWidth 64), regDone := true, access := none } }))
          ∧ (a.poll = true → Completes (.regPollRead k) s (fun t => t = { u with keepers := u.keepers.set k { u.keepers[k] with regDone := true, regMatch := v.setWidth 64 &&& a.mask == a.want } })))))
  ∧ (∀ (s : State) (k : KeeperId) (i : Fin 16), s.Ordinary → s.keepers[k].input = some i → s.keepers[k].releasing = false →
  (s.keeperUp k = true → s.keepers[k].waitEnd = none → Completes (.microwordExecute (.keeper k) .double) s (fun t => s.RoutineFaulted t k i 1 ∧ s.SameBytes t ∧ t.chans = s.chans))
  ∧ (192 ≤ s.boundRoutine k i → s.fld (.kprCtrl k) KPR_CTRL.MAX_RUN ≠ 0 → Completes (.runLimit k) s (fun t =>
      s.RoutineFaulted t k i 7 ∧ t.clock = (s.reachTime (s.keepers[k].began + s.fld (.kprCtrl k) KPR_CTRL.MAX_RUN * qUs)).clock ∧ s.SameBytes t ∧ t.chans = s.chans))
  ∧ (s.boundRoutine k i < 192 ∨ s.fld (.kprCtrl k) KPR_CTRL.MAX_RUN = 0 → exec (.runLimit k) s = .next s)
  ∧ (∀ unit : Fin 4, Completes (.unitOpComplete k unit false) s (fun t => s.RoutineFaulted t k i (if unit = 0 then 2 else 4) ∧ t.clock = s.clock ∧ s.SameBytes t ∧ t.chans = s.chans))
  ∧ (s.keepers[k].access = none → exec (.regTimeout k) s = .next s)
  ∧ (s.keepers[k].access ≠ none → Completes (.regTimeout k) s (fun t => s.RoutineFaulted t k i 2 ∧ t.clock = s.clock ∧ s.SameBytes t ∧ t.chans = s.chans)))

/-- R276, R273, R404: the scrub corrects and counts a single-bit error, and repairs a word corrected in two passes in a row or beyond correction onto the next spare word, which the ledger records;
with no spare left SPARES_OUT is set. A verified owner image is written into the four keepers once no owner routine runs. Each of these commands is said to answer a next state, on conditions of
the state and the operands alone: storeScrubRead, ownerImageWrite. -/
def Obligations.StoresAreKept : Prop := ∀ s : State, s.Ordinary →
  (∀ (e : Sys2Proof.Engine) (word : Nat), word + 1 < storeWords e →
    let x := s.careOf e
    let spare := x.repairs.length
    exec (.storeScrubRead e word .clean) s = .next s
    ∧ (word ∉ x.before → Completes (.storeScrubRead e word .single) s (fun t =>
        word ∈ (t.careOf e).now ∧ (t.careOf e).before = x.before ∧ (t.careOf e).repairs = x.repairs ∧ (∀ n ∈ (t.careOf e).now, n = word ∨ n ∈ x.now)
        ∧ (∀ c, e = .channel c → t.fld (.oryCorr c) ORY_CORR.COUNT = min ORY_CORR.COUNT.top (s.fld (.oryCorr c) ORY_CORR.COUNT + 1) ∧ t.isSet (.oryStatus c) ORY_STATUS.CORR = true)
        ∧ (∀ k, e = .keeper k → t.fld (.kprCorr k) KPR_CORR.COUNT = min KPR_CORR.COUNT.top (s.fld (.kprCorr k) KPR_CORR.COUNT + 1) ∧ t.isSet (.kprStatus k) KPR_STATUS.STORE_CORR = true)
        ∧ t = { s with regs := t.regs, engines := t.engines, keepers := t.keepers } ∧ s.SameRegs t (fun r => (∃ c, r = .oryCorr c ∨ r = .oryStatus c) ∨ ∃ k, r = .kprCorr k ∨ r = .kprStatus k)))
    ∧ (∀ ecc, ecc = .double ∨ (ecc = .single ∧ word ∈ x.before) → Completes (.storeScrubRead e word ecc) s (fun t =>
        (spare < 64 → (t.careOf e).repairs = x.repairs ++ [(word, spare)] ∧ word ∉ (t.careOf e).before ∧ t.ledger = (s.logLedger 2 (engineDie e).val (engineNum e) (word * 0x40 + spare)).ledger
            ∧ (∀ c, e = .channel c → t.isSet (.oryStatus c) ORY_STATUS.REPAIR = true) ∧ ∀ k, e = .keeper k → t.isSet (.kprStatus k) KPR_STATUS.STORE_REPAIR = true)
        ∧ (64 ≤ spare → t.careOf e = x ∧ t.ledger = s.ledger
            ∧ (∀ c, e = .channel c → t.isSet (.oryStatus c) ORY_STATUS.SPARES_OUT = true) ∧ ∀ k, e = .keeper k → t.isSet (.kprStatus k) KPR_STATUS.SPARES_OUT = true)
        ∧ t = { s with regs := t.regs, fabric := t.fabric, engines := t.engines, keepers := t.keepers, ledger := t.ledger })))
  ∧ (∀ e : Sys2Proof.Engine, Completes (.storeScrubRead e (storeWords e - 1) .clean) s (fun t =>
      t.careOf e = { s.careOf e with before := (s.careOf e).now, now := [] } ∧ t = { s with engines := t.engines, keepers := t.keepers }))
  ∧ (∀ (e : Sys2Proof.Engine) (word : Nat) (ecc : Ecc), storeWords e ≤ word → exec (.storeScrubRead e word ecc) s = .next s)
  ∧ (s.ownerNew = none → exec .ownerImageWrite s = .next s)
  ∧ (∀ x, s.ownerNew = some x → s.ownerRuns = false → Completes .ownerImageWrite s (fun t =>
      t.ownerNew = none ∧ t.sec.ownerFloor = max s.sec.ownerFloor x.secVer.toNat ∧ (∀ k : KeeperId, t.keepers[k] = { s.keepers[k] with owner := some x }
        ∧ t.fld (.kprImage k) KPR_IMAGE.OWNER = x.version.toNat % 2 ^ 16 ∧ t.isSet (.kprStatus k) KPR_STATUS.LOAD_DONE = true)
      ∧ (∀ d : DomeId, s.dieLost[Die.ofDome d] = false → t.pb3[d].owner = some x)
      ∧ t = { s with regs := t.regs, ownerNew := t.ownerNew, sec := t.sec, pb3 := t.pb3, keepers := t.keepers } ∧ s.SameRegs t (fun r => ∃ k, r = .kprImage k ∨ r = .kprStatus k)))
  ∧ (s.ownerRuns = true → exec .ownerImageWrite s = .next s)

/-- R278 to R281, R283: a channel that plays reports its progress 128 gc after the last report, unless an iteration ends there; a report that fits the shadow's walk is followed; one that does not,
and a silence of 256 gc, are declared with their cause, counted, and the channel enters FAULT; a Lamp die all of whose playing channels are silent is lost (the model's reading, log entry 23); a
recovery reloads the store and counts, the third within 1 s leaves the channel IDLE with GIVEN_UP. Each of these commands is said to answer a next state, on conditions of the state and the
operands alone: progressReport, shadowReport, shadowSilent, recoverStoreRewritten. -/
def Obligations.ShadowsWatch : Prop := ∀ (s : State) (c : ChanId), s.Ordinary →
  (s.chans[c].st = .playing →
      let u := s.reachGranC c (s.chans[c].lastReport + 128)
      let x := s.chans[c]
      Completes (.progressReport c) s (fun t => t.clock = u.clock
        ∧ t.chans = (if u.walkPlace c = u.iterEnd c then s.chans
          else s.chans.set c { x with lastReport := u.granC c, reports := x.reports ++ [⟨.progress x.entry x.iter ((u.walkPlace c - x.iterStart) / 32) (u.playGran c) x.frames, u.granC c⟩] })
        ∧ t = { s with clock := t.clock, chans := t.chans }))
  ∧ (s.chans[c].st ≠ .playing → exec (.progressReport c) s = .next s)
  ∧ (∀ r rest k, s.chans[c].reports = r :: rest → s.shadowOf c = some k → s.reportPath c k = true →
      let x := s.shadows[c]
      let cause := if x.walks then x.causeOf (s.groupOf c).isSome r rest else 0
      (cause = 0 → Completes (.shadowReport c) s (fun t => t = State.relayCheck { s with chans := s.chans.set c { s.chans[c] with reports := rest }, shadows := s.shadows.set c { x.follow r rest with last := s.granC c } }))
      ∧ (cause ≠ 0 → Completes (.shadowReport c) s (fun t => s.Declared t k c cause)))
  ∧ (s.chans[c].reports = [] → Completes (.shadowReport c) s (fun t => t = s.relayCheck))
  ∧ (∀ k, s.shadowOf c = some k → s.reportPath c k = false → Completes (.shadowReport c) s (fun t => t = s.relayCheck))
  ∧ (s.chans[c].st = .playing → s.unheard c = true → s.shadows[c].walks = true →
      let u := s.reachGranC c (s.shadows[c].last + 256)
      let playing := (chansOfLamp (lampOf c)).filter (fun i => s.chans[i].st == .playing)
      let all := decide (2 ≤ playing.length) && playing.all u.isSilent
      (∀ k, s.shadowOf c = some k → all = false → Completes (.shadowSilent c) s (fun t => s.Declared t k c 5 ∧ t.clock = u.clock))
      ∧ (all = true → Completes (.shadowSilent c) s (fun t => t.dieLost[Die.ofLamp (lampOf c)] = true)))
  ∧ (s.chans[c].st ≠ .playing ∨ s.unheard c = false ∨ s.shadows[c].walks = false → Completes (.shadowSilent c) s (fun t => t = s.relayCheck))
  ∧ (∀ t0, s.chans[c].st = .fault → s.shadows[c].declared = some t0 →
      let now := max s.clock.now (t0 + 20 * qUs)
      let recent := s.chans[c].recoveries.filter (fun r => decide (now < r + 1000 * qMs))
      let image := s.pb3[(0 : DomeId)].channel <|> s.pb3[(1 : DomeId)].channel
      Completes (.recoverStoreRewritten c) s (fun t =>
        t.clock.now = now ∧ t.shadows[c].declared = none ∧ t.chans[c].recoveries = recent ++ [now]
        ∧ t.engines[c] = { ChanEngine.reset with store := image, word := (image.map (·.firstWord)).getD ChanEngine.reset.word, care := s.engines[c].care }
        ∧ t.fld (.oryState c) ORY_STATE.STORE = (if image = none then 0 else 2)
        ∧ (2 ≤ recent.length → t.chans[c].st = .idle ∧ t.isSet (.oryStatus c) ORY_STATUS.GIVEN_UP = true ∧ t.rd (.oryRecoveries c) = s.rd (.oryRecoveries c))
        ∧ (recent.length < 2 → t.chans[c].st ≠ .fault ∧ t.isSet (.oryStatus c) ORY_STATUS.RECOVERED = true
            ∧ t.fld (.oryRecoveries c) ORY_RECOVERIES.COUNT = min ORY_RECOVERIES.COUNT.top (s.fld (.oryRecoveries c) ORY_RECOVERIES.COUNT + 1))
        ∧ (∀ j ≠ c, t.engines[j] = s.engines[j] ∧ t.shadows[j] = s.shadows[j]) ∧ t.pwr = s.pwr))
  ∧ (s.chans[c].st ≠ .fault ∨ s.shadows[c].declared = none → Completes (.recoverStoreRewritten c) s (fun t => t = s.relayCheck))

/-- R294 to R297, R299, R300: a request that arrives joins the queue of its port and sub-channel, is answered from a queued write of its unit in FULL, is read around a bank under refresh, or has
retry status; the next command is an urgent refresh, the oldest request at 90 % of its target, an overdue neighbour refresh, or the next of the order of R296; a read that can be read is answered
with its unit; a write reads the old units it needs and writes its units; written whole it is in the data space; an open row without a hit for 2 µs is closed. R301 to R304: an interval adds one
refresh owed; where eight would be, one is issued at once to all banks; a reading above the threshold begins double rate, the owed counts doubling and what goes beyond eight becoming urgent; two
below it in a row end it, each count halving, rounded up; the neighbour LFSR is reseeded with a free value (log entry 4). Each of these commands is said to answer a next state, on conditions of
the state and the operands alone: memRequestArrive, memCommandIssue, writeDone, refreshInterval, tempRead, nbrLfsrReseed, openRowTimeout. -/
def Obligations.MemoryRequestsAndRefresh : Prop := 
  (∀ (s : State) (d : DomeId), s.Ordinary →
  (∀ req : MemReq, s.dataBytes d ≤ req.addr → exec (.memRequestArrive d req) s = .next { s with resp := .none })
  ∧ (∀ req : MemReq, req.addr < s.dataBytes d →
    let w := placeOf (s.half d) req.addr
    let held := (req.cls = .host ∨ req.cls = .stream) ∧ (s.moor[d].sr = some .laidUp ∨ s.moor[d].sr = some .freq)
    let new : MemWrite := ⟨req, w.port, s.clock.now, [], [], false⟩
    let room := (s.mustWrite d new).all (fun i => match s.portAt d i with | some p => decide (s.writeFill d p < 128) | none => true)
    let queued := s.half d = false ∧ ∃ x ∈ s.moor[d].writes, x.req.addr / 64 = req.addr / 64
    (held → exec (.memRequestArrive d req) s = .next { s with resp := .retry })
    ∧ (∀ v, ¬ held → s.fld (.moorSr d) MOOR_SR.STATE ≠ 1 → req.write = some v → room = true →
        exec (.memRequestArrive d req) s = .next { s with resp := .none, moor := s.moor.set d { s.moor[d] with lastReq := s.clock.now, writes := s.moor[d].writes ++ [new] } })
    ∧ (∀ v, ¬ held → s.fld (.moorSr d) MOOR_SR.STATE ≠ 1 → req.write = some v → room = false →
        exec (.memRequestArrive d req) s = .next { s with resp := .retry, moor := s.moor.set d { s.moor[d] with lastReq := s.clock.now } })
    ∧ (∀ x v, ¬ held → s.fld (.moorSr d) MOOR_SR.STATE ≠ 1 → req.write = none → s.half d = false → (s.moor[d].writes.filter (fun x => x.req.addr / 64 = req.addr / 64)).getLast? = some x → x.req.write = some v →
        exec (.memRequestArrive d req) s = .next { s with resp := .none, moor := s.moor.set d { s.moor[d] with lastReq := s.clock.now, answers := s.moor[d].answers ++ [(req.id, v, false)] } })
    ∧ (∀ p, ¬ held → s.fld (.moorSr d) MOOR_SR.STATE ≠ 1 → req.write = none → ¬ queued → s.readPort d w = some p →
        let around := s.readsAround d p req.cls = true ∧ s.bankClosed d p (subOf w.port) (bankOf w.port) = true
        let deep := ((List.finRange 4).map (fun sc => s.moor[d].ports[p].subs[sc].reads.length)).sum
        (around → s.readable d req.addr = true → exec (.memRequestArrive d req) s =
            .next { s with resp := .none, moor := s.moor.set d { s.moor[d] with lastReq := s.clock.now, answers := s.moor[d].answers ++ [(req.id, s.rebuilt d w.data w.port, false)] } })
        ∧ (¬ around → 64 ≤ deep → exec (.memRequestArrive d req) s = .next { s with resp := .retry, moor := s.moor.set d { s.moor[d] with lastReq := s.clock.now } })
        ∧ (¬ around → deep < 64 → Completes (.memRequestArrive d req) s (fun t => t = { s with resp := .none, moor := t.moor }
          ∧ t.moor[d].ports[p].subs[subOf w.port].reads = s.moor[d].ports[p].subs[subOf w.port].reads ++ [⟨req, w.port, s.clock.now⟩] ∧ t.moor[d].data = s.moor[d].data ∧ t.moor[d].writes = s.moor[d].writes
          ∧ t.moor[d].answers = s.moor[d].answers ∧ t.moor[d].lastReq = s.clock.now ∧ t.moor[twin d] = s.moor[twin d]))))
  ∧ (∀ (p : PortId) (sc : Fin 4),
    let x := s.moor[d].ports[p].subs[sc]
    let u := s.updSub d p sc (fun y => { y with batch := s.batchNow d p sc })
    let stands := s.clockHolds d = true ∨ s.isSet (.mpState d p) MP_STATE.IN_SR = true ∨ s.role d p = 2 ∨ s.role d p = 3
    let overdue := x.nbr.find? (fun n => decide (n.due ≤ s.clock.now))
    let first := match u.pressing d p sc, overdue with
      | some y, some n => if n.due ≤ y.arrival + qUs then none else some y
      | some y, none => some y
      | none, some _ => none
      | none, none => u.nextRequest d p sc
    (stands → exec (.memCommandIssue d p sc) s = .next s)
    ∧ (∀ a b, s.pressing d p sc = some a → b ∈ s.issuable d p sc (s.readsWaiting d p sc ++ s.writesWaiting d p sc) → 90 ≤ s.pct d b → 90 ≤ s.pct d a ∧ a.arrival ≤ b.arrival)
    ∧ (¬ stands → 0 < x.urgent → Completes (.memCommandIssue d p sc) s (fun t => t.moor[d].ports[p].subs[sc].urgent = x.urgent - 1 ∧ t.moor[d].ports[p].subs[sc].openRow = Vector.replicate 16 none
        ∧ t.moor[d].ports[p].subs[sc].refreshing = some (16, s.clock.now + s.fld (.mpTs4 d p (s.timingSet d)) MP_TSx_4.TRFCAB * s.mclkQ d) ∧ t.moor[twin d] = s.moor[twin d] ∧ s.SameBytes t))
    ∧ (∀ n, ¬ stands → x.urgent = 0 → overdue = some n → u.pressing d p sc = none → Completes (.memCommandIssue d p sc) s (fun t =>
        t.moor[d].ports[p].subs[sc] = { x with batch := s.batchNow d p sc, nbr := x.nbr.filter (· ≠ n), openRow := x.openRow.set n.bank none } ∧ t = { s with moor := t.moor } ∧ s.SameBytes t))
    ∧ (∀ r, ¬ stands → x.urgent = 0 → first = some (.read r) →
        (s.readable d r.req.addr = true → Completes (.memCommandIssue d p sc) s (fun t => t.moor[d].answers = s.moor[d].answers ++ [(r.req.id, s.unitRead d r.req.addr, false)]
          ∧ t.moor[d].ports[p].subs[sc].reads = x.reads.filter (· ≠ r) ∧ t.moor[d].ports[p].subs[sc].openRow[bankOf r.addr] = (if r.req.open_ then some (rowOf r.addr, s.clock.now) else none)
          ∧ t.moor[d].data = s.moor[d].data ∧ t.moor[d].writes = s.moor[d].writes ∧ t.moor[twin d] = s.moor[twin d] ∧ t = { s with regs := t.regs, free := t.free, moor := t.moor } ∧ s.SameRegs t (· = .mpNbr d p)))
        ∧ (s.readable d r.req.addr = false → Completes (.memCommandIssue d p sc) s (fun t => t.moor[d].answers = s.moor[d].answers ++ [(r.req.id, Vector.replicate 64 0, true)]
          ∧ t.fld (.moorPoison d) MOOR_POISON.COUNT = min MOOR_POISON.COUNT.top (s.fld (.moorPoison d) MOOR_POISON.COUNT + 1) ∧ t.isSet (.moorStatus d) MOOR_STATUS.POISON = true ∧ s.SameBytes t)))
    ∧ (∀ w i, ¬ stands → x.urgent = 0 → first = some (.write w) → s.positionOf d p = some i → Completes (.memCommandIssue d p sc) s (fun t =>
        let whole := w.whole || s.rowWhole d w
        let parity := !s.half d && (placeOf false w.req.addr).parity == i
        (i ∈ s.mustRead d w → t.moor[d].writes = s.moor[d].writes.map (fun y => if y = w then { y with old := y.old ++ [i] } else y))
        ∧ (i ∉ s.mustRead d w → t.moor[d].writes = s.moor[d].writes.map (fun y =>
            { y with whole := y.whole || (whole && w.sameRow y), written := if y = w ∨ (whole = true ∧ parity = true ∧ w.sameRow y = true) then y.written ++ [i] else y.written }))
        ∧ t.moor[d].answers = s.moor[d].answers ∧ t.moor[d].data = s.moor[d].data ∧ t.moor[twin d] = s.moor[twin d] ∧ t = { s with regs := t.regs, free := t.free, moor := t.moor } ∧ s.SameRegs t (· = .mpNbr d p)))
    ∧ (¬ stands → x.urgent = 0 → overdue = none → first = none → 0 < s.owed d p sc → s.fld (.moorSr d) MOOR_SR.STATE ≠ 1 → Completes (.memCommandIssue d p sc) s (fun t =>
        t.moor[d].ports[p].subs[sc].nextBank = x.nextBank + 1 ∧ t.moor[d].ports[p].subs[sc].openRow[x.nextBank] = none ∧ t.owed d p sc = s.owed d p sc - (if x.steps = 15 then 1 else 0)
        ∧ t.moor[d].ports[p].subs[sc].refreshing = some (x.nextBank.val, s.clock.now + s.fld (.mpTs4 d p (s.timingSet d)) MP_TSx_4.TRFCPB * s.mclkQ d) ∧ t.moor[twin d] = s.moor[twin d] ∧ s.SameBytes t))
    ∧ (¬ stands → x.urgent = 0 → x.nbr = [] → x.reads = [] → first = none → s.owed d p sc = 0 → s.fld (.moorSr d) MOOR_SR.STATE ≠ 1 → exec (.memCommandIssue d p sc) s = .next u)
    ∧ (∀ b : Fin 16,
        (∀ row hit, x.openRow[b] = some (row, hit) → hit + 2 * qUs ≤ s.clock.now → Completes (.openRowTimeout d p sc b) s (fun t =>
          t.moor[d].ports[p].subs[sc] = { x with openRow := x.openRow.set b none } ∧ t.moor[d].data = s.moor[d].data ∧ t = { s with moor := t.moor }))
        ∧ ((∀ y, x.openRow[b] = some y → s.clock.now < y.2 + 2 * qUs) → exec (.openRowTimeout d p sc b) s = .next s)))
  ∧ (∀ id, s.moor[d].writes.find? (fun w => w.req.id == id && (s.mustWrite d w).isEmpty) = none → exec (.writeDone d id) s = .next s)
  ∧ (∀ id w v, s.moor[d].writes.find? (fun w => w.req.id == id && (s.mustWrite d w).isEmpty) = some w → w.req.write = some v → Completes (.writeDone d id) s (fun t =>
      let a0 := w.req.addr / 64 * 64
      (∀ a, Memory.get t.moor[d].data a = if h : a0 ≤ a ∧ a < a0 + 64 then v[a - a0]'(by omega) else Memory.get s.moor[d].data a) ∧ t.moor[d].writes = s.moor[d].writes.filter (· ≠ w)
      ∧ a0 ∉ t.moor[d].poison ∧ t.moor[twin d] = s.moor[twin d] ∧ t.host = s.host ∧ t.plate = s.plate ∧ t.clock = s.clock)))
  ∧ (∀ (s : State) (d : DomeId) (p : PortId), s.Ordinary →
  (∀ sc : Fin 4, s.isSet (.mpState d p) MP_STATE.IN_SR = true ∨ s.role d p = 2 ∨ s.role d p = 3 → exec (.refreshInterval d p sc) s = .next s)
  ∧ (∀ sc : Fin 4, s.isSet (.mpState d p) MP_STATE.IN_SR = false → s.role d p ≠ 2 → s.role d p ≠ 3 →
    (s.owed d p sc + 1 < 8 → Completes (.refreshInterval d p sc) s (fun t =>
        t.owed d p sc = s.owed d p sc + 1 ∧ (∀ x ≠ sc, t.owed d p x = s.owed d p x) ∧ t = { s with regs := t.regs } ∧ s.SameRegs t (· = .mpOwed d p)))
    ∧ (8 ≤ s.owed d p sc + 1 → Completes (.refreshInterval d p sc) s (fun t =>
        t.moor[d].ports[p].subs[sc].openRow = Vector.replicate 16 none ∧ t.owed d p sc = s.owed d p sc ∧ t.moor[d].data = s.moor[d].data
        ∧ t.moor[d].ports[p].subs[sc].refreshing = some (16, s.clock.now + s.fld (.mpTs4 d p (s.timingSet d)) MP_TSx_4.TRFCAB * s.mclkQ d) ∧ t.moor[twin d] = s.moor[twin d] ∧ s.SameBytes t ∧ t.chans = s.chans)))
  ∧ (∀ celsius : BitVec 8,
    (s.isSet (.mpState d p) MP_STATE.DOUBLE = true → Completes (.tempRead d p celsius true) s (fun t =>
        t.isSet (.mpState d p) MP_STATE.DOUBLE = true ∧ t.fld (.mpState d p) MP_STATE.TEMP = celsius.toNat ∧ t.moor[d].ports[p].below = 0 ∧ t = { s with regs := t.regs, moor := t.moor } ∧ s.SameRegs t (· = .mpState d p)))
    ∧ (s.isSet (.mpState d p) MP_STATE.DOUBLE = false → Completes (.tempRead d p celsius false) s (fun t =>
        t.isSet (.mpState d p) MP_STATE.DOUBLE = false ∧ t.fld (.mpState d p) MP_STATE.TEMP = celsius.toNat ∧ t = { s with regs := t.regs } ∧ s.SameRegs t (· = .mpState d p)))
    ∧ (s.isSet (.mpState d p) MP_STATE.DOUBLE = false → (∀ sc : Fin 4, s.moor[d].ports[p].subs[sc].urgent = 0 ∧ s.owed d p sc ≤ 8) → Completes (.tempRead d p celsius true) s (fun t =>
        t.isSet (.mpState d p) MP_STATE.DOUBLE = true ∧ t.fld (.mpState d p) MP_STATE.TEMP = celsius.toNat ∧ t.isSet (.mpStatus d p) MP_STATUS.TEMP_HIGH = true
        ∧ (∀ sc : Fin 4, t.owed d p sc = min 8 (2 * s.owed d p sc) ∧ t.moor[d].ports[p].subs[sc].urgent = 2 * s.owed d p sc - 8) ∧ t.moor[d].ports[p].below = 0
        ∧ t = { s with regs := t.regs, fabric := t.fabric, moor := t.moor } ∧ s.SameRegs t (fun r => r = .mpState d p ∨ r = .mpStatus d p ∨ r = .mpOwed d p ∨ r = .mpUrgent d p ∨ r = .moorStatus d ∨ r.ofFabric = true)))
    ∧ (s.isSet (.mpState d p) MP_STATE.DOUBLE = true → s.moor[d].ports[p].below = 0 → Completes (.tempRead d p celsius false) s (fun t =>
        t.isSet (.mpState d p) MP_STATE.DOUBLE = true ∧ t.fld (.mpState d p) MP_STATE.TEMP = celsius.toNat ∧ t.moor[d].ports[p].below = 1 ∧ t = { s with regs := t.regs, moor := t.moor } ∧ s.SameRegs t (· = .mpState d p)))
    ∧ (s.isSet (.mpState d p) MP_STATE.DOUBLE = true → s.moor[d].ports[p].below ≠ 0 → Completes (.tempRead d p celsius false) s (fun t =>
        t.isSet (.mpState d p) MP_STATE.DOUBLE = false ∧ t.fld (.mpState d p) MP_STATE.TEMP = celsius.toNat ∧ (∀ sc : Fin 4, t.owed d p sc = (s.owed d p sc + 1) / 2)
        ∧ t = { s with regs := t.regs, fabric := t.fabric, moor := t.moor } ∧ s.SameRegs t (fun r => r = .mpState d p ∨ r = .mpOwed d p ∨ r.ofFabric = true))))
  ∧ Completes (.nbrLfsrReseed d p) s (fun t => ∃ v : BitVec 32, t = { s with free := s.free + 1, moor := s.moor.set d { s.moor[d] with ports := s.moor[d].ports.set p { s.moor[d].ports[p] with lfsr := v } } }))

/-- R305 to R309, R311: mismatches, alerts and failed transfers are counted; a fourth alert of one command, or an uncorrectable unit, retires its port: the position is lost and the set DEGRADED with
a spare, UNPROTECTED without, FAILED after a second loss; MP4, retrained, takes the position and migrates it stripe by stripe, the last making the set PROTECTED. R312 to R314: a Dome idle for
IDLE_US in SHUTTERED begins an idle entry; a host or wake request ends self-refresh with nothing owed; GO changes the frequency from the other timing set where the divider is trained and the Dome
quiet, and is refused with UNTRAINED or BUSY otherwise; the change ends with the new divider and set in force and RESULT DONE. Each of these commands is said to answer a next state, on conditions
of the state and the operands alone: scrubReadDone, caparAlert, edcFail, spareRetrainDone, migStartWrite, migrationStripeDone, srIdleTimeout, srExit, freqGo, freqChangeDone. -/
def Obligations.PortsAndSelfRefresh : Prop := 
  (∀ (s : State) (d : DomeId), s.Ordinary →
  (∀ stripe mismatch, s.fld (.moorScrub d) MOOR_SCRUB.DUTY = 0 → exec (.scrubReadDone d stripe mismatch) s = .next s)
  ∧ (∀ stripe, s.fld (.moorScrub d) MOOR_SCRUB.DUTY ≠ 0 → Completes (.scrubReadDone d stripe false) s (fun t =>
      t.fld (.moorScrub d) MOOR_SCRUB.PASSES = (s.fld (.moorScrub d) MOOR_SCRUB.PASSES + if stripe + 1 = s.stripes d then 1 else 0) % 2 ^ 16 ∧ t = { s with regs := t.regs } ∧ s.SameRegs t (· = .moorScrub d)))
  ∧ (∀ stripe, s.fld (.moorScrub d) MOOR_SCRUB.DUTY ≠ 0 → Completes (.scrubReadDone d stripe true) s (fun t =>
      t.fld (.moorScrubMismatch d) MOOR_SCRUB_MISMATCH.COUNT = min MOOR_SCRUB_MISMATCH.COUNT.top (s.fld (.moorScrubMismatch d) MOOR_SCRUB_MISMATCH.COUNT + 1) ∧ t.isSet (.moorStatus d) MOOR_STATUS.SCRUB_MISMATCH = true
      ∧ t.fld (.moorScrub d) MOOR_SCRUB.PASSES = (s.fld (.moorScrub d) MOOR_SCRUB.PASSES + if stripe + 1 = s.stripes d then 1 else 0) % 2 ^ 16
      ∧ t = { s with regs := t.regs, fabric := t.fabric } ∧ s.SameRegs t (fun r => r = .moorScrub d ∨ r = .moorScrubMismatch d ∨ r = .moorStatus d ∨ r.ofFabric = true)))
  ∧ (∀ (p : PortId) (oldest : Nat), s.moor[d].ports[p].retry.find? (fun x => x.seq == oldest) = none → exec (.caparAlert d p oldest) s = .next s)
  ∧ (∀ (p : PortId) (oldest : Nat) (c : MemCmd), s.moor[d].ports[p].retry.find? (fun x => x.seq == oldest) = some c →
      (c.alerts < 3 → Completes (.caparAlert d p oldest) s (fun t => t.fld (.mpCapar d p) MP_CAPAR.COUNT = min MP_CAPAR.COUNT.top (s.fld (.mpCapar d p) MP_CAPAR.COUNT + 1) ∧ t.isSet (.mpStatus d p) MP_STATUS.CAPAR = true
          ∧ t.moor = s.moor.set d { s.moor[d] with ports := s.moor[d].ports.set p { s.moor[d].ports[p] with
              retry := s.moor[d].ports[p].retry.map (fun y => if y.seq = oldest then { y with alerts := y.alerts + 1, issued := y.issued + 1 } else if oldest < y.seq then { y with issued := y.issued + 1 } else y) } }
          ∧ t = { s with regs := t.regs, fabric := t.fabric, moor := t.moor } ∧ s.SameRegs t (fun r => r = .mpCapar d p ∨ r = .mpStatus d p ∨ r.ofFabric = true)))
      ∧ (∀ i, 3 ≤ c.alerts → s.role d p = 0 ∨ s.role d p = 4 → s.positionOf d p = some i → Completes (.caparAlert d p oldest) s (fun t => s.PortRetired t d p i ∧ s.SameBytes t)))
  ∧ (∀ (p : PortId) (addr : Nat) (uncorrectable : Bool), s.role d p = 2 ∨ s.role d p = 3 → exec (.edcFail d p addr uncorrectable) s = .next s)
  ∧ (∀ (p : PortId) (addr : Nat), s.role d p = 0 ∨ s.role d p = 4 →
      let u := addr / 64 * 64
      let tried := (s.moor[d].ports[p].retries.lookup u).getD 0
      (tried < 3 → Completes (.edcFail d p addr false) s (fun t => t.fld (.mpEdc d p) MP_EDC.COUNT = min MP_EDC.COUNT.top (s.fld (.mpEdc d p) MP_EDC.COUNT + 1) ∧ t.isSet (.mpStatus d p) MP_STATUS.EDC = true
          ∧ t.moor[d].ports[p].retries.lookup u = some (tried + 1) ∧ t.moor[d].data = s.moor[d].data ∧ t.moor[d].poison = s.moor[d].poison
          ∧ t = { s with regs := t.regs, fabric := t.fabric, moor := t.moor } ∧ s.SameRegs t (fun r => r = .mpEdc d p ∨ r = .mpStatus d p ∨ r.ofFabric = true)))
      ∧ (∀ i uncorrectable, uncorrectable = true ∨ 3 ≤ tried → s.positionOf d p = some i → Completes (.edcFail d p addr uncorrectable) s (fun t =>
          t.fld (.mpUncorr d p) MP_UNCORR.COUNT = min MP_UNCORR.COUNT.top (s.fld (.mpUncorr d p) MP_UNCORR.COUNT + 1) ∧ t.isSet (.mpStatus d p) MP_STATUS.UNCORR = true
          ∧ (u ∈ t.moor[d].poison ↔ (∃ j ∈ s.positions d, s.portAt d j ≠ some p ∧ s.servesStripe d j (placeOf (s.half d) u).stripe = false) ∨ u ∈ s.moor[d].poison)
          ∧ s.PortRetired t d p i ∧ s.SameBytes t)))
  ∧ (∀ ok, s.moor[d].retrain = false → exec (.spareRetrainDone d ok) s = .next s)
  ∧ (∀ i rest, s.moor[d].retrain = true → s.moor[d].lost = i :: rest →
      Completes (.spareRetrainDone d true) s (fun t => t.portAt d i = some 4 ∧ t.role d 4 = 4 ∧ t.moor[d] = { s.moor[d] with retrain := false }
        ∧ (s.isSet (.moorMig d) MOOR_MIG.AUTO = true → t.setState d = 2 ∧ t.isSet (.moorMig d) MOOR_MIG.BUSY = true ∧ t.watermark d = 0) ∧ (s.isSet (.moorMig d) MOOR_MIG.AUTO = false → t.setState d = s.setState d) ∧ s.SameBytes t)
      ∧ Completes (.spareRetrainDone d false) s (fun t => t.isSet (.mpStatus d 4) MP_STATUS.TRAIN_FAIL = true ∧ t.role d 4 = 2 ∧ t.moor[d] = { s.moor[d] with retrain := false }
        ∧ t.setState d = (if s.setState d = 4 then 4 else 3) ∧ s.SameBytes t))
  ∧ (∀ (f : Func) (v : Word), MOOR_MIG.START.get v = 1 → s.writeReaches f (.moorMig d) = true → Completes (.migStartWrite f d v) s (fun t =>
      (s.setState d = 1 ∧ s.moor[d].retrain = false → t.setState d = 2 ∧ t.isSet (.moorMig d) MOOR_MIG.BUSY = true ∧ t.watermark d = 0) ∧ (¬ (s.setState d = 1 ∧ s.moor[d].retrain = false) → t.setState d = s.setState d)
      ∧ t.fld (.moorMig d) MOOR_MIG.SHARE = MOOR_MIG.SHARE.get v ∧ t.moor = s.moor ∧ s.SameBytes t ∧ t.chans = s.chans))
  ∧ (s.setState d ≠ 2 → exec (.migrationStripeDone d) s = .next s)
  ∧ (s.setState d = 2 →
      (s.watermark d + 1 < s.stripes d → s.watermark d + 1 < 2 ^ 25 → Completes (.migrationStripeDone d) s (fun t =>
          t.watermark d = s.watermark d + 1 ∧ t.setState d = 2 ∧ t = { s with regs := t.regs } ∧ s.SameRegs t (· = .moorMigWm d)))
      ∧ (s.stripes d ≤ s.watermark d + 1 → Completes (.migrationStripeDone d) s (fun t => t.setState d = 0 ∧ t.role d 4 = 0 ∧ t.isSet (.moorStatus d) MOOR_STATUS.MIG_DONE = true ∧ t.isSet (.moorMig d) MOOR_MIG.BUSY = false
          ∧ t.moor = s.moor.set d { s.moor[d] with lost := [] } ∧ (∀ p : PortId, s.role d p = 2 → t.domains[domPort d p] = .retired) ∧ s.SameBytes t ∧ t.chans = s.chans))))
  ∧ (∀ (s : State) (d : DomeId), s.Ordinary →
  (s.pwr = 2 → s.isSet (.moorSr d) MOOR_SR.IDLE_EN = true → s.fld (.moorSr d) MOOR_SR.STATE = 0 → s.moor[d].lastReq + max 1 (s.fld (.moorSr d) MOOR_SR.IDLE_US) * qUs ≤ s.clock.now → s.domeQuiet d = true →
      Completes (.srIdleTimeout d) s (fun t => t.fld (.moorSr d) MOOR_SR.STATE = 1 ∧ t.moor = s.moor.set d { s.moor[d] with sr := some .idle } ∧ t = { s with regs := t.regs, moor := t.moor } ∧ s.SameRegs t (· = .moorSr d)))
  ∧ (s.pwr ≠ 2 ∨ s.isSet (.moorSr d) MOOR_SR.IDLE_EN = false ∨ s.fld (.moorSr d) MOOR_SR.STATE ≠ 0 ∨ s.clock.now < s.moor[d].lastReq + max 1 (s.fld (.moorSr d) MOOR_SR.IDLE_US) * qUs ∨ s.domeQuiet d = false →
      exec (.srIdleTimeout d) s = .next s)
  ∧ (s.fld (.moorSr d) MOOR_SR.STATE ≠ 2 → exec (.srExit d) s = .next s)
  ∧ (s.isSet (.moorFreq d) MOOR_FREQ.BUSY = false → exec (.freqChangeDone d) s = .next s)
  ∧ (s.fld (.moorSr d) MOOR_SR.STATE = 2 → Completes (.srExit d) s (fun t => t.fld (.moorSr d) MOOR_SR.STATE = 0 ∧ t.moor = s.moor.set d { s.moor[d] with sr := none, lastReq := s.clock.now }
      ∧ (∀ p ∈ s.portsInUse d, s.role d p ≠ 1 → t.isSet (.mpState d p) MP_STATE.IN_SR = false ∧ t.rd (.mpOwed d p) = 0)
      ∧ t = { s with regs := t.regs, fabric := t.fabric, moor := t.moor } ∧ s.SameRegs t (fun r => r = .moorSr d ∨ (∃ p, r = .mpState d p ∨ r = .mpOwed d p) ∨ r.ofFabric = true)))
  ∧ (∀ (f : Func) (v : Word), MOOR_FREQ.GO.get v = 1 → s.writeReaches f (.moorFreq d) = true →
      let div := MOOR_FREQ.TARGET_DIV.get v
      (s.divTrained d div = false → Completes (.freqGo f d v) s (fun t => t.fld (.moorFreq d) MOOR_FREQ.RESULT = 3 ∧ t.moor = s.moor ∧ t.chans = s.chans ∧ s.SameRegs t (· = .moorFreq d)))
      ∧ (s.divTrained d div = true → s.domeQuiet d = false ∨ s.fld (.moorSr d) MOOR_SR.STATE ≠ 0 → Completes (.freqGo f d v) s (fun t =>
          t.fld (.moorFreq d) MOOR_FREQ.RESULT = 2 ∧ t.moor = s.moor ∧ t.chans = s.chans ∧ s.SameRegs t (· = .moorFreq d)))
      ∧ (s.divTrained d div = true → s.domeQuiet d = true → s.fld (.moorSr d) MOOR_SR.STATE = 0 → Completes (.freqGo f d v) s (fun t =>
          t.isSet (.moorFreq d) MOOR_FREQ.BUSY = true ∧ t.fld (.moorFreq d) MOOR_FREQ.RESULT = 0 ∧ t.fld (.moorSr d) MOOR_SR.STATE = 4 ∧ t.moor[d].target = div ∧ t.moor[d].sr = some .freq
          ∧ (∀ p ∈ s.portsInUse d, t.isSet (.mpState d p) MP_STATE.IN_SR = true ∧ t.rd (.mpOwed d p) = 0) ∧ t.moor[twin d] = s.moor[twin d] ∧ s.SameBytes t ∧ t.chans = s.chans)))
  ∧ (s.isSet (.moorFreq d) MOOR_FREQ.BUSY = true → s.moor[d].target < 16 → Completes (.freqChangeDone d) s (fun t =>
      t.fld (.moorCfg d) MOOR_CFG.DIV = s.moor[d].target ∧ t.fld (.moorCfg d) MOOR_CFG.TIMING_SET = 1 - s.fld (.moorCfg d) MOOR_CFG.TIMING_SET ∧ t.isSet (.moorFreq d) MOOR_FREQ.BUSY = false
      ∧ t.fld (.moorFreq d) MOOR_FREQ.RESULT = 1 ∧ t.fld (.moorSr d) MOOR_SR.STATE = 0 ∧ t.moor[d].sr = none ∧ t.moor[twin d] = s.moor[twin d]
      ∧ (∀ m : MerId, t.fld (.merOut m (mclkOut d)) MER_OUTk.DIV = s.moor[d].target ∧ t.mers[m].staged.div[mclkOut d] = s.moor[d].target) ∧ s.SameBytes t ∧ t.chans = s.chans ∧ t.clock = s.clock)))

/-- R321 to R324, R327: in one cycle both ports read words as they were; port A's write lands; port B's write or addition lands unless both store different values in one word, which discards it,
counts, and gives its master retry status; a single-bit error is corrected and counted, a word in error beyond correction is not returned; an access to a borrowed region waits and forces its
restore; a retried write is a new one. R326 to R330: a test borrows the next region and runs SAVE, MARCH, RESTORE and VERIFY; the last region ends a pass; a row that fails is copied onto the next
spare; a test broken off is restored and tried again, the fourth time passed over; the copy ends with the repair counted and recorded in the ledger. Each of these commands is said to answer a
next state, on conditions of the state and the operands alone: pbAccess, pbWriteRetry, pbTestStart, pbTestPhaseDone, pbRestoreDone, pbRowCopyDone. -/
def Obligations.PlateBanksWork : Prop := 
  (∀ (s : State) (d : DomeId) (b : BankId), s.Ordinary → s.domainOn (domPlate d) = true →
  let free := fun (x : PlateAccess) => x.inBank b = true ∧ s.borrowed d b x = false ∧ s.copyingRow d b x = false
  let old := fun (x : PlateAccess) => match accessWord x with | some w => s.plateWord d b w | none => 0
  let stores := fun (x : PlateAccess) (w : Nat) => if accessWord x = some w then accessStores (old x) x else none
  (∀ (pa pb : PlateAccess) (m : PlateMaster), free pa → free pb → (∀ w, accessWord pa = some w ∨ accessWord pb = some w → s.wordEcc d b w .clean = .clean) →
    let hit := collides (old pb) pa pb
    Completes (.pbAccess d b pa pb m .clean) s (fun t =>
      (∀ w, t.plateWord d b w = ((stores pa w).or (if hit then none else stores pb w)).getD (s.plateWord d b w))
      ∧ (hit = false → t.resp = .bytes (s.accessBytes d b .clean pa ++ s.accessBytes d b .clean pb) ∧ t.plate[d][b].retries = s.plate[d][b].retries ∧ s.SameRegs t (fun _ => False))
      ∧ (hit = true → t.resp = .retry ∧ t.plate[d][b].retries = s.plate[d][b].retries ++ [(pb, m)] ∧ t.isSet (.pbStatus d) PB_STATUS.COLLIDE = true
          ∧ t.fld (.pbbCollide d b) PBb_COLLIDE.COUNT = min PBb_COLLIDE.COUNT.top (s.fld (.pbbCollide d b) PBb_COLLIDE.COUNT + 1)
          ∧ s.SameRegs t (fun r => r = .pbbCollide d b ∨ r = .pbStatus d ∨ r.ofFabric = true))
      ∧ (∀ (x : DomeId) (y : BankId), ¬ (x = d ∧ y = b) → t.plate[x][y] = s.plate[x][y]) ∧ t = { s with regs := t.regs, resp := t.resp, fabric := t.fabric, plate := t.plate }))
  ∧ (∀ (w : Nat) (m : PlateMaster) (ecc : Ecc), free (.read w) →
    (s.wordEcc d b w ecc = .single → Completes (.pbAccess d b .none (.read w) m ecc) s (fun t => t.resp = .bytes (toBytes 8 (s.plateWord d b w).toNat) ∧ w ∉ t.plate[d][b].single
        ∧ t.fld (.pbbCorr d b) PBb_CORR.COUNT = min PBb_CORR.COUNT.top (s.fld (.pbbCorr d b) PBb_CORR.COUNT + 1) ∧ t.isSet (.pbStatus d) PB_STATUS.CORR = true ∧ t.isSet (.pbbLast d b) PBb_LAST.VALID = true
        ∧ t.fld (.pbbLast d b) PBb_LAST.KIND = 0 ∧ t.fld (.pbbLast d b) PBb_LAST.ROW = rowOfWord w ∧ t.plate[d][b].now = s.plate[d][b].now ∧ s.SameBytes t))
    ∧ (s.wordEcc d b w ecc = .double → Completes (.pbAccess d b .none (.read w) m ecc) s (fun t => t.resp = .bytes [] ∧ w ∈ t.plate[d][b].double
        ∧ t.fld (.pbbUncorr d b) PBb_UNCORR.COUNT = min PBb_UNCORR.COUNT.top (s.fld (.pbbUncorr d b) PBb_UNCORR.COUNT + 1) ∧ t.isSet (.pbStatus d) PB_STATUS.UNCORR = true
        ∧ t.isSet (.pbbLast d b) PBb_LAST.VALID = true ∧ t.fld (.pbbLast d b) PBb_LAST.ROW = rowOfWord w ∧ s.SameBytes t)))
  ∧ (∀ (pa pb : PlateAccess) (m : PlateMaster) (ecc : Ecc), pa.inBank b = true → pb.inBank b = true → s.borrowed d b pa = true ∨ s.borrowed d b pb = true → s.plate[d][b].phase ≠ some .forced →
      Completes (.pbAccess d b pa pb m ecc) s (fun t => t.plate[d][b] = { s.plate[d][b] with phase := some .forced, waiting := s.plate[d][b].waiting ++ [(pa, pb, m, ecc)] }
        ∧ t.fld (.pbbRestores d b) PBb_RESTORES.COUNT = min PBb_RESTORES.COUNT.top (s.fld (.pbbRestores d b) PBb_RESTORES.COUNT + 1) ∧ t = { s with regs := t.regs, plate := t.plate }
        ∧ s.SameRegs t (fun r => r = .pbbRestores d b ∨ r = .pbStatus d) ∧ s.SameBytes t))
  ∧ (∀ w v mask m rest, s.plate[d][b].retries = (.write w v mask, m) :: rest → free (.write w v mask) → Completes (.pbWriteRetry d b) s (fun t =>
      (∀ x, t.plateWord d b x = if x = w then mergeWord (s.plateWord d b w) v mask else s.plateWord d b x) ∧ t.plate[d][b].retries = rest ∧ t = { s with resp := t.resp, plate := t.plate })))
  ∧ (∀ (s : State) (d : DomeId) (b : BankId), s.Ordinary →
  let x := s.plate[d][b]
  let r := s.fld (.pbbState d b) PBb_STATE.REGION
  let entered := fun (p : TestPhase) (t : State) => t = s.updBank d b (fun y => { y with phase := some p })
  let released := fun (t : State) => t.plate[d][b].phase = none ∧ t.plate[d][b].broken = 0 ∧ t.isSet (.pbbState d b) PBb_STATE.TESTING = false
    ∧ (r + 1 < bankRegions b → t.fld (.pbbState d b) PBb_STATE.REGION = r + 1 ∧ t.rd (.pbbPasses d b) = s.rd (.pbbPasses d b))
    ∧ (bankRegions b ≤ r + 1 → t.fld (.pbbState d b) PBb_STATE.REGION = 0 ∧ t.fld (.pbbPasses d b) PBb_PASSES.COUNT = min PBb_PASSES.COUNT.top (s.fld (.pbbPasses d b) PBb_PASSES.COUNT + 1) ∧ t.plate[d][b].now = [])
  (s.isSet (.pbCtrl d) PB_CTRL.TEST_EN = true → s.domainOn (domPlate d) = true → x.phase = none → x.copying = none → Completes (.pbTestStart d b) s (fun t =>
      t.isSet (.pbbState d b) PBb_STATE.TESTING = true ∧ t.plate[d][b] = { x with phase := some .save } ∧ t = { s with regs := t.regs, plate := t.plate } ∧ s.SameRegs t (· = .pbbState d b)))
  ∧ (x.phase = some .save → Completes (.pbTestPhaseDone d b none .clean) s (entered .march) ∧ Completes (.pbTestPhaseDone d b none .double) s (fun t => released t ∧ s.SameBytes t))
  ∧ (x.phase = some .march → Completes (.pbTestPhaseDone d b none .clean) s (entered .restore))
  ∧ (∀ i : Fin 2, x.phase = some .march → x.copying = none → s.isSet (.pbCtrl d) PB_CTRL.AUTO_REPAIR = true → s.fld (.pbbState d b) PBb_STATE.SPARES_USED < s.fld (.pbbState d b) PBb_STATE.SPARES_TOTAL →
      Completes (.pbTestPhaseDone d b (some i) .clean) s (fun t => t.plate[d][b] = { x with phase := some .restore, failed := true, copying := some (2 * r + i.val, s.fld (.pbbState d b) PBb_STATE.SPARES_USED) }
        ∧ t.isSet (.pbStatus d) PB_STATUS.TEST_FAIL = true ∧ t = { s with regs := t.regs, plate := t.plate } ∧ s.SameRegs t (· = .pbStatus d)))
  ∧ (x.phase = some .restore → Completes (.pbTestPhaseDone d b none .clean) s (entered .verify))
  ∧ (x.phase = some .verify → x.failed = false → Completes (.pbTestPhaseDone d b none .clean) s (fun t => released t ∧ t = { s with regs := t.regs, plate := t.plate } ∧ s.SameBytes t
      ∧ s.SameRegs t (fun q => q = .pbbState d b ∨ q = .pbbPasses d b)))
  ∧ (x.phase = some .forced → x.waiting = [] →
      (x.broken + 1 < 4 → Completes (.pbRestoreDone d b) s (fun t => t.plate[d][b] = { x with phase := none, broken := x.broken + 1 } ∧ t.isSet (.pbbState d b) PBb_STATE.TESTING = false
          ∧ t.fld (.pbbState d b) PBb_STATE.REGION = r ∧ t = { s with regs := t.regs, plate := t.plate } ∧ s.SameRegs t (· = .pbbState d b)))
      ∧ (4 ≤ x.broken + 1 → Completes (.pbRestoreDone d b) s (fun t => released t ∧ t.fld (.pbbSkipped d b) PBb_SKIPPED.COUNT = min PBb_SKIPPED.COUNT.top (s.fld (.pbbSkipped d b) PBb_SKIPPED.COUNT + 1) ∧ s.SameBytes t)))
  ∧ (∀ w v m rest, x.phase = some .forced → x.waiting = (.none, .write w v 0xFF, m, .clean) :: rest → Completes (.pbRestoreDone d b) s (fun t => t.plate[d][b].waiting = [] ∧ (rest = [] → t.plateWord d b w = v)))
  ∧ (∀ row spare, x.copying = some (row, spare) → Completes (.pbRowCopyDone d b) s (fun t => t.plate[d][b].repairs = x.repairs ++ [(row, spare)]
      ∧ t.fld (.pbbState d b) PBb_STATE.SPARES_USED = (spare + 1) % 2 ^ PBb_STATE.SPARES_USED.width ∧ t.isSet (.pbStatus d) PB_STATUS.REPAIR = true ∧ t.plate[d][b].waiting = []
      ∧ t.ledger = (s.logLedger 1 (2 + d.val) (b.val * 0x2000 + row) spare).ledger ∧ (x.waiting = [] → t.plate[d][b].copying = none ∧ s.SameBytes t))))

/-- R310, R347, R348: NOP only completes; LOAD_SEG moves host bytes into the data space of each home, READ_SEG bytes of one home to host memory, with the length as DETAIL; LOAD_IMAGE of an image that
passes its checks writes it into its stores, and otherwise leaves the image in force and sets LOAD_FAIL; an invalid descriptor ends with its reason and no effect. Each of these commands is said
to answer a next state, on conditions of the state and the operands alone: nop, loadSeg, readSeg, loadImage, descriptorInvalid. -/
def Obligations.SegmentsAndImagesLoad : Prop := ∀ (s : State) (h : DescHdr), s.Ordinary → s.Fetches h →
  let ringsOnly := fun (t : State) => t = { s with host := { s.host with drings := t.host.drings, rrings := t.host.rrings } }
  Completes (.nop h) s (fun t => s.Passed t h 0 0 0 ∧ ringsOnly t)
  ∧ (∀ (w : Vector QWord 8) reason, hdrOf h.ring w[0] = h → s.invalidReason w = some reason → reason ≠ Reason.ringState → Completes (.descriptorInvalid h.ring w) s (fun t => ringsOnly t ∧
      s.Passed t h (BitVec.ofNat 8 (w[0].toNat % 256)) reason
        (if w[0].toNat % 256 = 5 ∨ w[0].toNat % 256 = 6 then detailOf none none (some (Fin.ofNat 16 w[1].toNat)) else failDetail (BitVec.ofNat 8 (w[0].toNat % 256)).toNat h)))
  ∧ (∀ (addr : QWord) (data : Nat) (home : Fin 4) (len : Nat),
      let f := s.host.drings[h.ring].func
      (s.segRange addr data home.val len = false → Completes (.loadSeg h addr data home len) s (fun t => s.Passed t h 1 Reason.badField 0 ∧ ringsOnly t))
      ∧ (s.segRange addr data home.val len = true → s.mirrorDown home.val = true → Completes (.loadSeg h addr data home len) s (fun t => s.Passed t h 1 Reason.mirrorDown 0 ∧ ringsOnly t))
      ∧ (s.segRange addr data home.val len = true → s.mirrorDown home.val = false → (∀ d ∈ s.segHomes home.val, s.memReached f d = true) → Completes (.loadSeg h addr data home len) s (fun t => s.Passed t h 1 0 len
          ∧ (∀ d ∈ s.segHomes home.val, ∀ a, Memory.get t.moor[d].data a = if data ≤ a ∧ a < data + len then Memory.get s.host.mem (addr.toNat + (a - data)) else Memory.get s.moor[d].data a)
          ∧ (∀ d ∉ s.segHomes home.val, t.moor[d].data = s.moor[d].data) ∧ t.host.mem = s.host.mem ∧ t.plate = s.plate ∧ t.clock = s.clock))
      ∧ (∀ d : DomeId, home.val = d.val → s.segRange addr data home.val len = true → s.memReached f d = true → s.unreadable d data len = [] → Completes (.readSeg h addr data home len) s (fun t => s.Passed t h 2 0 len
          ∧ (∀ a, Memory.get t.host.mem a = if addr.toNat ≤ a ∧ a < addr.toNat + len then Memory.get s.moor[d].data (data + (a - addr.toNat)) else Memory.get s.host.mem a)
          ∧ t = { s with host := { s.host with drings := t.host.drings, rrings := t.host.rrings, mem := t.host.mem } })))
  ∧ (∀ (addr : QWord) (len : Nat), Completes (.loadImage h addr len 3) s (fun t => s.Passed t h 4 Reason.badField 0 ∧ ringsOnly t)
      ∧ (s.feature 5 = false → Completes (.loadImage h addr len 0) s (fun t => s.Passed t h 4 Reason.noFeatures 0 ∧ ringsOnly t))
      ∧ ((∃ c : ChanId, s.chans[c].st.busy = true) → ∀ target : Fin 4, target = 1 ∨ target = 2 → Completes (.loadImage h addr len target) s (fun t => s.Passed t h 4 Reason.imageBusy 0 ∧ ringsOnly t)))
  ∧ (∀ (addr : QWord) (len : Nat) (target : Fin 4), target ≠ 3 → (target = 0 → s.feature 5 = true) → (target ≠ 0 → ∀ c : ChanId, s.chans[c].st.busy = false) →
      let kind : ImageKind := if target = 0 then .owner else if target = 1 then .keeper else .channel
      (∀ x, s.imageOf kind (s.hostRead addr.toNat len) = .ok x → Completes (.loadImage h addr len target) s (fun t => s.Passed t h 4 0 len
          ∧ (target = 2 → ∀ c : ChanId, t.engines[c].store = some x ∧ t.fld (.oryState c) ORY_STATE.STORE = 2) ∧ (target = 1 → ∀ k : KeeperId, t.keepers[k].vendor = some x)
          ∧ (target = 0 → s.ownerRuns = false → t.ownerNew = none ∧ ∀ k : KeeperId, t.keepers[k].owner = some x) ∧ (target = 0 → s.ownerRuns = true → t.ownerNew = some x ∧ t.keepers = s.keepers)
          ∧ s.SameBytes t ∧ t.chans = s.chans))
      ∧ (∀ reason, s.imageOf kind (s.hostRead addr.toNat len) = .error reason → Completes (.loadImage h addr len target) s (fun t => s.Passed t h 4 reason 0
          ∧ (∀ k : KeeperId, t.isSet (.kprStatus k) KPR_STATUS.LOAD_FAIL = true) ∧ t = { s with regs := t.regs, host := { s.host with drings := t.host.drings, rrings := t.host.rrings } }
          ∧ s.SameRegs t (fun r => ∃ k, r = .kprStatus k))))

/-- R346, R355, R356, R359: BEGIN opens a closed slot for its function; a SET, START, STOP or SWAP with TXN joins its open transaction, and is refused with TXN_STATE, TXN_FULL or TXN_CONFLICT;
without TXN it is a transaction of its own, committed IMMEDIATE, whose checks end within 20 µs: refused with their reason, or due at the first granule edge 2 µs later. Each of these commands is
said to answer a next state, on conditions of the state and the operands alone: start, stop, swap, beginTxn, setItems. -/
def Obligations.ItemsJoinTransactions : Prop := ∀ (s : State) (h : DescHdr), s.Ordinary → s.Fetches h →
  let f := s.host.drings[h.ring].func
  let x := s.host.txns[h.txnId]
  let ref := fun (code : Byte) => DescRef.mk f code h s.host.drings[h.ring].cons
  let ringsOnly := fun (t : State) => t = { s with host := { s.host with drings := t.host.drings, rrings := t.host.rrings } }
  (x.phase = .closed → Completes (.beginTxn h) s (fun t => s.Passed t h 0x10 0 0 ∧ t.host.txns = s.host.txns.set h.txnId { Txn.reset with phase := .open_, func := f }
      ∧ t = { s with host := { s.host with drings := t.host.drings, rrings := t.host.rrings, txns := t.host.txns } }))
  ∧ (x.phase ≠ .closed → Completes (.beginTxn h) s (fun t => s.Passed t h 0x10 Reason.txnState 0 ∧ ringsOnly t))
  ∧ (∀ (mask : BitVec 16) (entries : Vector (BitVec 14) 16) (delay : Nat) (items : List SetItem), 1 ≤ items.length → items.length ≤ 6 → (∀ i ∈ items, i.offset.toNat % 4 = 0) →
    ∀ p ∈ [(Instr.start h mask entries delay, (7 : Byte), TxnItem.start (maskEntries mask entries) delay), (.stop h mask, 8, .stop (maskChans mask)), (.swap h mask entries, 9, .swap (maskEntries mask entries)),
      (.setItems h items, 0x11, .sets items)],
    let i := p.2.2
    let others := ((List.finRange 4).filter (fun o => o != h.txnId && s.host.txns[o].live)).map (fun o => s.host.txns[o]) ++ s.host.singles
    (h.txn = true →
      (x.phase ≠ .open_ ∨ x.func ≠ f → Completes p.1 s (fun t => s.Passed t h p.2.1 Reason.txnState 0 ∧ ringsOnly t))
      ∧ (x.phase = .open_ → x.func = f → x.full i = true → Completes p.1 s (fun t => s.Passed t h p.2.1 Reason.txnFull 0 ∧ ringsOnly t))
      ∧ (x.phase = .open_ → x.func = f → x.full i = false → conflicts others i = true → Completes p.1 s (fun t => s.Passed t h p.2.1 Reason.txnConflict 0 ∧ ringsOnly t))
      ∧ (x.phase = .open_ → x.func = f → x.full i = false → conflicts others i = false → Completes p.1 s (fun t => s.Passed t h p.2.1 0 0
          ∧ t.host.txns = s.host.txns.set h.txnId { x.add i with refs := (x.add i).refs ++ [ref p.2.1] } ∧ t = { s with host := { s.host with drings := t.host.drings, rrings := t.host.rrings, txns := t.host.txns } })))
    ∧ (h.txn = false →
      let y := { Txn.reset with func := f, commit := some (ref p.2.1) }.add i
      (conflicts s.liveTxns i = true → Completes p.1 s (fun t => s.Passed t h p.2.1 Reason.txnConflict noDetail ∧ ringsOnly t))
      ∧ (∀ r, conflicts s.liveTxns i = false → s.checkTxn y none = some r → r.reason ≠ Reason.ringState → Completes p.1 s (fun t => s.Passed t h p.2.1 r.reason r.detail ∧ t.chans = s.chans ∧ t.host.txns = s.host.txns ∧ t.host.singles = s.host.singles
          ∧ s.SameRegs t (fun r => r = .bcnLoop ∨ r = .bcnStatus) ∧ s.SameBytes t))
      ∧ (conflicts s.liveTxns i = false → s.checkTxn y none = none → Completes p.1 s (fun t => s.clock.now ≤ t.clock.now ∧ t.clock.now ≤ s.clock.now + 20 * qUs
          ∧ t.host.singles = s.host.singles ++ [{ y with phase := .due (t.edgeAfter unitLamp (t.clock.now + 2 * qUs)) }] ∧ t.host.drings[h.ring].began = some (ref p.2.1)
          ∧ t = { s with clock := t.clock, free := t.free, host := { s.host with drings := t.host.drings, singles := t.host.singles } }))))

/-- R355, R357 to R360: a COMMIT that passes its checks sets the effect granule or arms its slot, and one that fails rolls back; at the effect granule the slot closes and STOP, SET, SWAP and START
take effect, with the COMMIT reported; ROLLBACK closes an open slot with no item applied. Each of these commands is said to answer a next state, on conditions of the state and the operands alone:
commitImmediate, commitAtUgc, commitOnChannel, txnApply, rollback. -/
def Obligations.CommitsTakeEffect : Prop := ∀ s : State, s.Ordinary →
  (∀ h : DescHdr, s.Fetches h →
    let f := s.host.drings[h.ring].func
    let n := h.txnId
    let x := s.host.txns[n]
    let ref : DescRef := ⟨f, 0x12, h, s.host.drings[h.ring].cons⟩
    let slot : ConsId := ⟨208 + n.val, by omega⟩
    let ringsOnly := fun (t : State) => t = { s with host := { s.host with drings := t.host.drings, rrings := t.host.rrings } }
    (x.phase ≠ .open_ ∨ x.func ≠ f → ∀ c ∈ [Instr.commitImmediate h, .commitAtUgc h 0, .commitOnChannel h 1], Completes c s (fun t => s.Passed t h 0x12 Reason.txnState noDetail ∧ ringsOnly t))
    ∧ (x.phase = .open_ → x.func = f →
        (∀ r, s.checkTxn x none = some r → r.reason ≠ Reason.ringState → Completes (.commitImmediate h) s (fun t => s.Passed t h 0x12 r.reason r.detail ∧ t.host.txns = s.host.txns.set n Txn.reset ∧ t.chans = s.chans
            ∧ s.SameRegs t (fun r => r = .bcnLoop ∨ r = .bcnStatus) ∧ s.SameBytes t))
        ∧ (s.checkTxn x none = none → Completes (.commitImmediate h) s (fun t => s.clock.now ≤ t.clock.now ∧ t.clock.now ≤ s.clock.now + 20 * qUs
            ∧ t.host.txns = s.host.txns.set n { x with phase := .due (t.edgeAfter unitLamp (t.clock.now + 2 * qUs)), commit := some ref } ∧ t.host.drings[h.ring].began = some ref
            ∧ t.inputBusy slot = true ∧ t = { s with regs := t.regs, clock := t.clock, free := t.free, host := { s.host with drings := t.host.drings, txns := t.host.txns } } ∧ s.SameRegs t (· = .bcnConsStat slot)))
        ∧ (∀ u, s.checkTxn x none = none → Completes (.commitAtUgc h u) s (fun t =>
            let g := s.clock.ugcBase[unitLamp] + u
            t.clock.now ≤ s.clock.now + 20 * qUs ∧ (t.clock.now + 2 * qUs ≤ s.edgeTime unitLamp g → t.host.txns = s.host.txns.set n { x with phase := .due g, commit := some ref, atUgc := true } ∧ t.host.drings[h.ring].began = some ref ∧ t.inputBusy slot = true)
            ∧ (s.edgeTime unitLamp g < t.clock.now + 2 * qUs → t.host.txns = s.host.txns.set n Txn.reset ∧ s.Passed t h 0x12 Reason.commitLate noDetail) ∧ t.chans = s.chans ∧ s.SameRegs t (· = .bcnConsStat slot)))
        ∧ (∀ ch : BeaconCh, s.checkTxn x (some ch) = none → Completes (.commitOnChannel h ch) s (fun t =>
            t.host.txns = s.host.txns.set n { x with phase := .armed ch, commit := some ref } ∧ t.host.drings[h.ring].began = some ref ∧ t.fld (.bcnCons slot) BCN_CONSi.CH = ch.val
            ∧ t.isSet (.bcnCons slot) BCN_CONSi.EN = true ∧ t.chans = s.chans ∧ s.SameRegs t (· = .bcnCons slot))))
    ∧ (x.phase = .closed ∨ x.func ≠ f → Completes (.rollback h) s (fun t => s.Passed t h 0x13 Reason.txnState 0 ∧ ringsOnly t))
    ∧ (x.phase = .open_ → x.func = f → x.commit = none → Completes (.rollback h) s (fun t => t.host.txns = s.host.txns.set n Txn.reset ∧ (x.refs = [] → s.Passed t h 0x13 0 0) ∧ t.chans = s.chans ∧ s.SameBytes t
        ∧ s.SameRegs t (fun r => r = .bcnCons slot ∨ r = .bcnConsStat slot))))
  ∧ (∀ n : TxnId, s.dueTxn n = none ∨ s.clock.runs[unitLamp] = false → exec (.txnApply n) s = .next s)
  ∧ (∀ (n : TxnId) (x : Txn) (rest : List Txn) (g : Nat), (∀ g', s.host.txns[n].phase ≠ .due g') → s.host.singles = x :: rest → x.phase = .due g → s.clock.runs[unitLamp] = true → s.pwr = 3 →
    Completes (.txnApply n) s (fun t => g ≤ t.clock.gran[unitLamp] ∧ t.host.singles = rest ∧ t.host.txns[n] = s.host.txns[n]
      ∧ (x.starts = [] → x.swaps = [] → x.sets = [] → ∀ c ∈ x.stops, t.chans[c].st = .idle)))
  ∧ (∀ (n : TxnId) (g : Nat), s.host.txns[n].phase = .due g → s.clock.runs[unitLamp] = true → s.pwr = 3 →
    let x := s.host.txns[n]
    let u := s.reachGran unitLamp g
    let alone := fun (k : Nat) => x.starts.length + x.stops.length + x.swaps.length + x.sets.length = k
    Completes (.txnApply n) s (fun t => g ≤ t.clock.gran[unitLamp] ∧ (x.sets = [] → t.clock = u.clock) ∧ t.host.txns[n] = Txn.reset ∧ t.pending = s.pending ∧ (∀ ref, x.commit = some ref → alone 0 → t.host.drings[ref.hdr.ring].began = none)
      ∧ (x.starts = [] → x.swaps = [] → x.sets = [] → ∀ c ∈ x.stops, t.chans[c].st = .idle)
      ∧ (∀ c e delay, alone 1 → x.starts = [⟨[(c, e)], delay⟩] → s.dieUp (Die.ofLamp (lampOf c)) = true →
          t.chans[c].st = .priming ∧ t.chans[c].startEntry = e ∧ t.chans[c].owner = x.func ∧ t.chans[c].startAt = (if delay = 0 then none else some (u.nextEdge c + delay)) ∧ t.chans[c].arrTo = 0)
      ∧ (∀ c e, alone 1 → x.swaps = [(c, e)] → s.chans[c].st = .playing → t.chans[c].swap = some ⟨u.nextEdge c - s.chans[c].startGran, s.fld (.charCtrl c) CHAR_CTRL.SWAP_MODE == 1, e⟩ ∧ t.fld (.charSwap c) CHAR_SWAP.SWAP_ENTRY = e % 2 ^ 14)
      ∧ (∀ (b : BiasId) (v : Word), alone 1 → x.sets = [⟨BitVec.ofNat 25 (Reg.biasLevel b).addr, false, false, v⟩] → s.halted = false → s.windowUp (Reg.biasLevel b).addr = true → t.rd (.biasLevel b) = v)))

/-- R28, R343, R364: RING_SETUP makes a sound ring that is not set up, with the indices its doorbell slots show, and is refused with RING_STATE on one in use over a link that is up; RING_TEARDOWN of
a ring at rest unmakes it; WATCHDOG replaces the one before; a HEARTBEAT is posted every PERIOD, and HOST_LOST when the watched index has not moved for HOST_TIMEOUT while reports wait. Each of
these commands is said to answer a next state, on conditions of the state and the operands alone: ringSetup, ringTeardown, watchdog, watchdogHeartbeat, hostTimeout. -/
def Obligations.RingsAndWatchdog : Prop := ∀ s : State, s.Ordinary →
  (∀ (h : DescHdr) (ring : RingId) (func : Func) (log2 : Fin 32) (defReport : RingId) (vector : Fin 128) (count : Byte) (time : BitVec 16) (base : QWord), s.Fetches h →
    let slot := fun (report : Bool) => s.slotAt (ring.val + if report then 64 else 0)
    let run := fun (report : Bool) => Instr.ringSetup h report ring func log2 defReport vector count time base
    (∀ report, ringSound report ring.val log2.val base.toNat = false → Completes (run report) s (fun t => s.Passed t h 0x14 Reason.badField 0 ∧ t.regs = s.regs))
    ∧ (ringSound true ring.val log2.val base.toNat = true → s.host.rrings[ring].up = false → Completes (run true) s (fun t =>
        (s.updRring ring (fun _ => ⟨true, func, base.toNat, log2.val, vector, count.toNat, time.toNat, slot true, slot true, [], 0, none⟩)).Passed t h 0x14 0 0 ∧ t.regs = s.regs ∧ t.host.mem = s.host.mem))
    ∧ (ringSound false ring.val log2.val base.toNat = true → s.host.drings[ring].up = false → s.host.rrings[defReport].up = true → Completes (run false) s (fun t =>
        (s.updDring ring (fun _ => ⟨true, func, base.toNat, log2.val, defReport, slot false, slot false, [], none, []⟩)).Passed t h 0x14 0 0 ∧ t.regs = s.regs ∧ t.host.mem = s.host.mem))
    ∧ (ringSound false ring.val log2.val base.toNat = true → s.host.drings[ring].up = true → s.linkUp s.host.drings[ring].func = true → ring ≠ h.ring → Completes (run false) s (fun t =>
        s.Passed t h 0x14 Reason.ringState 0 ∧ t.host.drings[ring] = s.host.drings[ring]))
    ∧ (ring ≠ 0 → s.host.rrings[ring].up = true → s.isDefault ring = false → s.host.rrings[ring].waiting = [] → Completes (.ringTeardown h true ring) s (fun t =>
        (s.updRring ring (fun _ => HostIf.reset.rrings[ring])).Passed t h 0x15 0 0 ∧ t.regs = s.regs))
    ∧ (ring ≠ 0 → ring ≠ h.ring → s.host.drings[ring].up = true → s.host.drings[ring].began = none → s.ringStalled ring = false → s.host.drings[ring].prod = s.host.drings[ring].cons →
        Completes (.ringTeardown h false ring) s (fun t => (s.updDring ring (fun _ => HostIf.reset.drings[ring])).Passed t h 0x15 0 0 ∧ t.regs = s.regs))
    ∧ (ring = 0 ∨ ring = h.ring → Completes (.ringTeardown h false ring) s (fun t => s.Passed t h 0x15 (if ring = 0 then Reason.badField else Reason.ringState) 0))
    ∧ (∀ (period timeout : Word) (action : Fin 4), action ≠ 3 → (action = 2 → s.feature 8 = true) → Completes (.watchdog h period timeout action) s (fun t => s.Passed t h 0x16 0 0 ∧ t.regs = s.regs
        ∧ t.host.wd = some ⟨s.clock.now, h.reportRing, s.host.drings[h.ring].func, period.toNat, timeout.toNat, action, 0, s.slotAt (64 + h.reportRing.val), s.clock.now⟩)))
  ∧ (∀ w, s.host.wd = some w → w.period ≠ 0 → s.host.rrings[w.ring].up = true → s.rringFull w.ring s.host.rrings[w.ring].waiting.length = false → Completes .watchdogHeartbeat s (fun t =>
      t.clock = (s.reachTime (w.start + (w.sent + 1) * w.period * qUs)).clock ∧ t.host.wd = some { w with sent := w.sent + 1 } ∧ t.host.drings = s.host.drings
      ∧ t.host.rrings = s.host.rrings.set w.ring { s.host.rrings[w.ring] with waiting := s.host.rrings[w.ring].waiting ++ [⟨0xF0, true, s.host.rrings[w.ring].func, 0, 0, 0, 0, 0, BitVec.ofNat 64 (w.sent + 1), false⟩] }
      ∧ t = { s with clock := t.clock, host := t.host }))
  ∧ (∀ w, s.host.wd = some w → w.timeout ≠ 0 → s.host.rrings[w.ring].up = true → s.slotAt (64 + w.ring.val) = w.cons → w.cons ≠ s.host.rrings[w.ring].prod → Completes .hostTimeout s (fun t =>
      t.clock = (s.reachTime (w.since + w.timeout * qUs)).clock ∧ t.isSet (.hstStatus w.func) HST_STATUS.HOST_LOST = true ∧ t.host.wd = some { w with since := t.clock.now }
      ∧ (w.action = 2 → t.isSet (.hstStatus w.func) HST_STATUS.ABORT = true ∧ ∀ c : ChanId, s.chans[c].owner = w.func → t.chans[c].st = .idle) ∧ (w.action ≠ 2 → t.chans = s.chans)))

/-- R338, R349, R350, R352: the next report of a ring with a free entry is written at its producer index, in the layout of a report, and its vector requested at the COAL_COUNTth or by IRQ; a ring
with no free entry waits; COAL_TIME after the first, the vector is requested; a pending vector that its table entry does not mask sends its message. Each of these commands is said to answer a
next state, on conditions of the state and the operands alone: reportPost, msixSend, coalTimeout. -/
def Obligations.ReportsAndVectors : Prop := ∀ s : State, s.Ordinary →
  (∀ (r : RingId) (rep : Report) (rest : List Report),
    let x := s.host.rrings[r]
    let size := 2 ^ x.log2
    let a0 := x.base + x.prod % size * 32
    (x.waiting = [] ∨ x.up = false ∨ s.linkUp x.func = false ∨ s.rringFull r 0 = true → exec (.reportPost r) s = .next s)
    ∧ (x.waiting = rep :: rest → x.up = true → s.linkUp x.func = true → s.rringFull r 0 = false → Completes (.reportPost r) s (fun t =>
        (∀ i : Fin 32, Memory.get t.host.mem (a0 + i.val) = (reportBytes rep ((x.prod / size - x.start / size) % 2 == 0) s.coarse).getD i.val 0)
        ∧ (∀ a, ¬ (a0 ≤ a ∧ a < a0 + 32) → Memory.get t.host.mem a = Memory.get s.host.mem a) ∧ t.host.rrings[r].waiting = rest ∧ t.host.rrings[r].prod = (x.prod + 1) % 2 ^ 64
        ∧ (rep.irq = true ∨ s.coalCountOf r ≤ x.since + 1 → t.inputBusy (consOfVector (s.vectorOf r)) = true ∧ t.host.rrings[r].since = 0 ∧ t.host.rrings[r].first = none)
        ∧ (¬ (rep.irq = true ∨ s.coalCountOf r ≤ x.since + 1) → t.regs = s.regs ∧ t.host.rrings[r].since = x.since + 1 ∧ t.host.rrings[r].first = some (x.first.getD s.clock.now))
        ∧ (∀ q ≠ r, t.host.rrings[q] = s.host.rrings[q]) ∧ t.host.drings = s.host.drings ∧ t = { s with regs := t.regs, host := t.host } ∧ s.SameRegs t (· = .bcnConsStat (consOfVector (s.vectorOf r))))))
  ∧ (∀ (r : RingId) t0, s.host.rrings[r].first = some t0 → s.coalTimeOf r ≠ 0 → Completes (.coalTimeout r) s (fun t =>
      t.clock = (s.reachTime (t0 + s.coalTimeOf r * qUs)).clock ∧ t.inputBusy (consOfVector (s.vectorOf r)) = true ∧ t.host = { s.host with rrings := s.host.rrings.set r { s.host.rrings[r] with since := 0, first := none } }
      ∧ t = { s with regs := t.regs, clock := t.clock, host := t.host } ∧ s.SameRegs t (· = .bcnConsStat (consOfVector (s.vectorOf r)))))
  ∧ (∀ v : Fin 128, s.inputBusy (consOfVector v) = true →
      let f := s.vectorRoute v
      let m := s.host.bar2[f]
      let a0 := Memory.readLE m (16 * v.val) 8
      (s.linkUp f = true → bitOf (Memory.readLE m (16 * v.val + 12) 4) 0 = false → Completes (.msixSend v) s (fun t =>
        (∀ i : Fin 4, Memory.get t.host.mem (a0 + i.val) = Memory.get m (16 * v.val + 8 + i.val)) ∧ (∀ a, ¬ (a0 ≤ a ∧ a < a0 + 4) → Memory.get t.host.mem a = Memory.get s.host.mem a)
        ∧ t.inputBusy (consOfVector v) = false ∧ t = { s with regs := t.regs, host := { s.host with mem := t.host.mem } } ∧ s.SameRegs t (· = .bcnConsStat (consOfVector v))))
      ∧ (s.linkUp f = false ∨ bitOf (Memory.readLE m (16 * v.val + 12) 4) 0 = true → exec (.msixSend v) s = .next s))

/-- R26 to R28, R335, R354, R412: a link that goes down, a function in D3hot or in PERST is not up: its fetched descriptors are dropped and its channels and streams pass to the other function; a link
that comes up shows its generation and posts the reports kept. R338: a DMA read that fails ends its descriptor with DMA_FAULT. R345, R362: ABORT takes its channels to IDLE and rolls its
transactions back. Each of these commands is said to answer a next state, on conditions of the state and the operands alone: abortFunction, abortChannels, hostLinkDown, hostLinkUp, d3hotEntry,
dmaReadTimeout, dmaBadCompletion, perst. -/
def Obligations.LinksAndAborts : Prop := ∀ s : State, s.Ordinary →
  (∀ f : Func,
    let gone := fun (t : State) => t.linkUp f = false ∧ (s.linkUp f = true → (∀ r : RingId, s.host.drings[r].up = true → s.host.drings[r].func = f → t.host.drings[r].fetched = [] ∧ t.host.drings[r].began = none)
      ∧ (∀ c : ChanId, t.chans[c].owner = if s.chans[c].owner = f then twin f else s.chans[c].owner) ∧ ∀ st : StreamId, t.streams[st].owner = if s.streams[st].owner = f then twin f else s.streams[st].owner)
    (s.fld (.hstLink f) HST_LINK.GEN ≠ 0 → Completes (.hostLinkDown f) s (fun t => gone t ∧ t.isSet (.hstStatus f) HST_STATUS.LINK_DOWN = true ∧ s.SameBytes t ∧ t.linkUp (twin f) = s.linkUp (twin f)))
    ∧ (s.linkUp f = true → Completes (.d3hotEntry f) s (fun t => gone t ∧ t.isSet (.hstLink f) HST_LINK.D3 = true ∧ s.SameBytes t ∧ t.linkUp (twin f) = s.linkUp (twin f)))
    ∧ (s.fld (.hstLink f) HST_LINK.GEN ≠ 0 → Completes (.perst f) s (fun t => gone t ∧ t.host.bar2[f] = [] ∧ t.host.bar2[twin f] = s.host.bar2[twin f] ∧ t.host.mem = s.host.mem))
    ∧ (∀ (gen : Fin 7) (width : Fin 32), gen ≠ 0 → width.val ∈ [1, 2, 4, 8, 16] → s.domainOn (domPcie f) = true → s.linkUp f = false → Completes (.hostLinkUp f gen width) s (fun t =>
        t.linkUp f = true ∧ t.fld (.hstLink f) HST_LINK.GEN = gen.val ∧ t.fld (.hstLink f) HST_LINK.WIDTH = width.val ∧ (∀ r : RingId, s.host.drings[r].up = true → s.host.drings[r].func = f → t.host.drings[r].kept = [])
        ∧ s.SameBytes t ∧ t.chans = s.chans ∧ s.SameRegs t (fun r => r = .hstLink f ∨ (∃ i, r = .hstStatus i ∨ r = .hstAsyncDrop i) ∨ r.ofFabric = true))))
  ∧ (∀ (r : RingId) (y : Fetched) (rest : List Fetched), s.host.drings[r].fetched = y :: rest →
      let h := hdrOf r y.w0
      let code := y.w0.toNat % 256
      readsHost code (Memory.readLE s.host.mem (s.host.drings[r].base + s.host.drings[r].cons % 2 ^ s.host.drings[r].log2 * 64 + 8) 1) = true → s.Fetches h →
      (Completes (.dmaBadCompletion r) s (fun t => s.Passed t h (BitVec.ofNat 8 code) Reason.dmaFault 0 ∧ t.isSet (.hstStatus s.host.drings[r].func) HST_STATUS.DMA_FAULT = true
          ∧ t = { s with regs := t.regs, host := { s.host with drings := t.host.drings, rrings := t.host.rrings } } ∧ s.SameRegs t (· = .hstStatus s.host.drings[r].func)))
      ∧ Completes (.dmaReadTimeout r) s (fun t => s.Passed t h (BitVec.ofNat 8 code) Reason.dmaFault 0 ∧ t.clock = (s.reachTime (s.clock.now + 10 * qMs)).clock
          ∧ t.isSet (.hstStatus s.host.drings[r].func) HST_STATUS.DMA_FAULT = true ∧ t.host.mem = s.host.mem ∧ t.chans = s.chans))
  ∧ (∀ h : DescHdr, s.host.drings[h.ring].up = true → s.linkUp s.host.drings[h.ring].func = true → s.serves = true → s.host.rrings[h.reportRing].up = true → s.host.drings[h.ring].fetched.length < 64 →
      let f := s.host.drings[h.ring].func
      Completes (.abortFunction h) s (fun t => t.isSet (.hstStatus f) HST_STATUS.ABORT = true ∧ (∀ c : ChanId, s.chans[c].owner = f → t.chans[c].st = .idle)
        ∧ (∀ n : TxnId, s.host.txns[n].live = true → s.host.txns[n].func = f → t.host.txns[n] = Txn.reset) ∧ (∀ n : TxnId, s.host.txns[n].func ≠ f → t.host.txns[n] = s.host.txns[n])
        ∧ (∀ (r : RingId) (ref : DescRef), s.host.drings[r].up = true → s.host.drings[r].func = f → s.host.drings[r].began = some ref → ref.hdr.ring = r → t.host.drings[r].began = none) ∧ s.SameBytes t)
      ∧ ∀ mask : BitVec 16, Completes (.abortChannels h mask) s (fun t => t.isSet (.hstStatus f) HST_STATUS.ABORT = true ∧ (∀ c ∈ maskChans mask, t.chans[c].st = .idle)
        ∧ (∀ c ∉ maskChans mask, t.chans[c].st = s.chans[c].st) ∧ s.SameBytes t))

/-- R383 to R386: a SNAPSHOT begins at once where none is taken, at the time asked for or, where that lies within 2 µs, at the first count from then with LATE; a die in scope latches what its
included registers show at T; when every die in scope in service has, the holding window takes the values, 0 for those OFF or lost, and the report follows. R253, R366: INJECT publishes as source
INJECT; the tests act as their rules say and complete: a pass of a bank, the reference check (its measurement free), a scrub pass, an injected fault; arguments that name nothing end with
BAD_FIELD. Each of these commands is said to answer a next state, on conditions of the state and the operands alone: snapshot, snapshotLatch, snapshotComplete, inject, testPbPass, testLookSelf,
testScrubPass, testFaultInject. -/
def Obligations.SnapshotsAndInjections : Prop := 
  (∀ s : State, s.Ordinary →
  (∀ (h : DescHdr) (dies : BitVec 8) (at_ : Bool) (tm addr : QWord), s.Fetches h →
    let ref : DescRef := ⟨s.host.drings[h.ring].func, 0x0A, h, s.host.drings[h.ring].cons⟩
    let late := at_ && decide (s.coarseTime tm.toNat < s.clock.now + 2 * qUs)
    (s.snap.job = none → s.snap.queue = [] → Completes (.snapshot h dies at_ tm addr) s (fun t =>
        t.snap = { s.snap with next := [], job := some ⟨if at_ && !late then tm.toNat else ceilDiv (s.sinceEpoch + 2 * qUs) 4096, dies, 0, addr.toNat, late, ref⟩ } ∧ t.isSet .snapStatus SNAP_STATUS.BUSY = true
        ∧ (late = true → t.isSet .snapStatus SNAP_STATUS.LATE = true) ∧ t.host.drings[h.ring].began = some ref ∧ t = { s with regs := t.regs, snap := t.snap, host := t.host } ∧ t.host.mem = s.host.mem
        ∧ s.SameRegs t (· = .snapStatus)))
    ∧ (s.snap.job ≠ none → Completes (.snapshot h dies at_ tm addr) s (fun t => t.snap = { s.snap with queue := s.snap.queue ++ [⟨dies, at_, tm.toNat, addr.toNat, ref⟩] } ∧ t.regs = s.regs ∧ t.host.mem = s.host.mem)))
  ∧ (∀ (d : Die) j, s.snap.job = some j → bitOf j.scope.toNat d.val = true → bitOf j.latched.toNat d.val = false → s.dieUp d = true → Completes (.snapshotLatch d) s (fun t =>
      t.clock = (s.reachTime (s.coarseTime j.t)).clock ∧ t.isSet .snapStatus SNAP_STATUS.VALID = false ∧ t.snap.job = some { j with latched := j.latched ||| BitVec.ofNat 8 (2 ^ d.val) } ∧ t.snap.window = s.snap.window
      ∧ (∀ r ∈ snapRegs d, s.snap.next.lookup r = none → ((t.snap.next.lookup r).getD 0) = (State.upToNow { s with clock := t.clock, regs := t.regs } r).live 0 r) ∧ t = { s with regs := t.regs, clock := t.clock, snap := t.snap }
      ∧ s.SameRegs t (· = .snapStatus)))
  ∧ (∀ j, s.snap.job = some j → s.snap.queue = [] → j.addr = 0 → (∀ d : Die, bitOf j.scope.toNat d.val = true → s.dieUp d = true → bitOf j.latched.toNat d.val = true) → Completes .snapshotComplete s (fun t =>
      t.isSet .snapStatus SNAP_STATUS.VALID = true ∧ t.isSet .snapStatus SNAP_STATUS.BUSY = false ∧ t.fld .snapStatus SNAP_STATUS.SEQ = (s.fld .snapStatus SNAP_STATUS.SEQ + 1) % 2 ^ 16
      ∧ t.rd .snapTLo = BitVec.ofNat 32 j.t ∧ t.rd .snapTHi = BitVec.ofNat 32 (j.t / 2 ^ 32) ∧ t.snap.job = none
      ∧ (∀ r : Reg, ∀ d, r.snapDie = some d → bitOf j.scope.toNat d.val = true → t.snap.window.lookup r = if s.dieUp d then s.snap.next.lookup r else none)
      ∧ (∀ r : Reg, ∀ d, r.snapDie = some d → bitOf j.scope.toNat d.val = false → t.snap.window.lookup r = s.snap.window.lookup r)
      ∧ ((∀ y ∈ s.host.drings[j.ref.hdr.ring].fetched, y.done = false) → t.host.drings[j.ref.hdr.ring].began = none ∧ t.host.drings[j.ref.hdr.ring].cons = (j.ref.index + 1) % 2 ^ 64)
      ∧ s.SameBytes t ∧ t.chans = s.chans ∧ s.SameRegs t (fun r => r = .snapStatus ∨ r = .snapTLo ∨ r = .snapTHi))))
  ∧ (∀ (s : State) (h : DescHdr), s.Ordinary → s.Fetches h →
  (∀ (ch : BeaconCh) (info : BitVec 24), ch ≠ 0 → s.isSet (Source.reg' (.inject s.leader)) BCN_SRCs.EN = true → s.sourceAlive (Source.num (.inject s.leader)) = true → s.delivery ch = none →
      Completes (.inject h ch info) s (fun t => s.Passed t h 0x0B 0 0 ∧ (∃ d, t.delivery ch = some d ∧ d.payload = ⟨Source.num (.inject s.leader), BitVec.ofNat 32 info.toNat, none⟩)
        ∧ t = { s with regs := t.regs, fabric := t.fabric, host := t.host } ∧ t.host.mem = s.host.mem ∧ s.SameRegs t (fun r => r.ofFabric = true)))
  ∧ (∀ (d : DomeId) (b : Fin 8),
      (∀ hb : b.val < 6, s.domainOn (domPlate d) = true → s.plate[d][(⟨b.val, hb⟩ : BankId)].single = [] → Completes (.testPbPass h d b) s (fun t =>
          let k : BankId := ⟨b.val, hb⟩
          s.Passed t h 0x0C 0 0 ∧ t.clock = (s.reachTime (s.clock.now + bankRegions k * 20 * qUs)).clock ∧ t.plate[d][k] = { s.plate[d][k] with phase := none, broken := 0, failed := false, before := s.plate[d][k].now, now := [] }
          ∧ t.fld (.pbbPasses d k) PBb_PASSES.COUNT = min PBb_PASSES.COUNT.top (s.fld (.pbbPasses d k) PBb_PASSES.COUNT + 1) ∧ t.isSet (.pbbState d k) PBb_STATE.TESTING = false ∧ t.fld (.pbbState d k) PBb_STATE.REGION = 0
          ∧ s.SameBytes t ∧ s.SameRegs t (fun r => r = .pbbPasses d k ∨ r = .pbbState d k)))
      ∧ (6 ≤ b.val → Completes (.testPbPass h d b) s (fun t => s.Passed t h 0x0C Reason.badField 0 ∧ t = { s with host := t.host }))
      ∧ (s.dieLost[Die.ofDome d] = false → Completes (.testScrubPass h d) s (fun t => s.Passed t h 0x0C 0 0 ∧ t.fld (.moorScrub d) MOOR_SCRUB.PASSES = (s.fld (.moorScrub d) MOOR_SCRUB.PASSES + 1) % 2 ^ 16
          ∧ t = { s with regs := t.regs, host := t.host } ∧ s.SameRegs t (· = .moorScrub d))))
  ∧ (∀ lamps : BitVec 4, Completes (.testLookSelf h lamps) s (fun t => s.Passed t h 0x0C 0 0
      ∧ (∀ n : LampId, lamps.getLsbD n.val = false ∨ s.lookRuns n = false → t.looks[n] = s.looks[n]) ∧ (∀ n : LampId, t.looks[n].stopped = true ∧ s.looks[n].stopped = false → t.isSet (.lookStatus n) LOOK_STATUS.SELF_FAIL = true)
      ∧ t = { s with regs := t.regs, free := t.free, looks := t.looks, fabric := t.fabric, host := t.host } ∧ s.SameRegs t (fun r => (∃ n, r = .lookStatus n) ∨ r.ofFabric = true)))
  ∧ (∀ w2 : QWord,
      (s.feature 7 = false → Completes (.testFaultInject h w2) s (fun t => s.Passed t h 0x0C Reason.noFeatures 0 ∧ t = { s with host := t.host }))
      ∧ (s.feature 7 = true → 4 ≤ w2.toNat % 16 → Completes (.testFaultInject h w2) s (fun t => s.Passed t h 0x0C Reason.badField 0 ∧ t = { s with host := t.host }))
      ∧ (∀ r f, s.feature 7 = true → w2.toNat % 16 = 0 → Reg.ofAddr? (bitsOf w2.toNat 32 32) = some r → r.fields.find? (·.voted) = some f → Completes (.testFaultInject h w2) s (fun t => s.Passed t h 0x0C 0 0 ∧ t.regs = s.regs
          ∧ ∃ x ∈ t.copies, x.reg = r ∧ x.lo = f.lo ∧ x.value % 2 ^ f.width ≠ s.copyOf r f x.copy))
      ∧ (∀ hb : bitsOf w2.toNat 4 3 < 6, s.feature 7 = true → w2.toNat % 16 = 2 → bitsOf w2.toNat 32 32 < bankWords ⟨bitsOf w2.toNat 4 3, hb⟩ → Completes (.testFaultInject h w2) s (fun t => s.Passed t h 0x0C 0 0 ∧ t.regs = s.regs
          ∧ let x := t.plate[(Fin.ofNat 2 (bitsOf w2.toNat 7 1) : DomeId)][(⟨bitsOf w2.toNat 4 3, hb⟩ : BankId)]
            (bitsOf w2.toNat 32 32 ∈ x.single ∨ bitsOf w2.toNat 32 32 ∈ x.double) ∧ s.SameBytes t))))

/-- R365, R430, R431, R434: the first ENROLL_OWNER fuses the hash, the same hash again changes nothing, another is refused; ATTEST writes the signed attestation under the key in force, or waits for
one in generation; FUSE_DARK fuses the codes of channels at rest; a key pair that is ready is in force and ends an erasure. Each of these commands is said to answer a next state, on conditions of
the state and the operands alone: keyEnrollOwner, keyAttest, keyFuseDark, attKeyGenDone. -/
def Obligations.KeysAreManaged : Prop := ∀ s : State, s.Ordinary →
  (∀ (h : DescHdr) (addr : QWord), s.Fetches h →
    let hash := s.hostRead addr.toNat 64
    let ref : DescRef := ⟨s.host.drings[h.ring].func, 0x0D, h, s.host.drings[h.ring].cons⟩
    let ringsOnly := fun (t : State) => t = { s with host := { s.host with drings := t.host.drings, rrings := t.host.rrings } }
    (s.sec.ownerHash = none → Completes (.keyEnrollOwner h addr) s (fun t => s.Passed t h 0x0D 0 0 ∧ t.sec = { s.sec with ownerHash := some hash, enrolled := true }
        ∧ (s.sec.erased = true → t.isSet (.ext .secStatus) SEC_STATUS.ATT_GEN = true) ∧ s.SameRegs t (· = .ext .secStatus) ∧ t.host.mem = s.host.mem))
    ∧ (∀ old, s.sec.ownerHash = some old → old ≠ hash → Completes (.keyEnrollOwner h addr) s (fun t => s.Passed t h 0x0D Reason.keyEnrolled 0 ∧ ringsOnly t))
    ∧ (s.sec.ownerHash = some hash → s.sec.enrolled = true → Completes (.keyEnrollOwner h addr) s (fun t => s.Passed t h 0x0D 0 0 ∧ ringsOnly t))
    ∧ (∀ nonce : Vector Byte 32, s.isSet (.ext .secStatus) SEC_STATUS.ATT_GEN = false →
        (s.sec.attKey = none → Completes (.keyAttest h addr nonce) s (fun t => s.Passed t h 0x0D Reason.noOwner 0 ∧ ringsOnly t))
        ∧ (∀ k, s.sec.attKey = some k → Completes (.keyAttest h addr nonce) s (fun t => s.Passed t h 0x0D 0 1024
            ∧ (let out := s.attestBody nonce ++ (Config.attSign k (s.attestBody nonce)).toList
              ∀ a, Memory.get t.host.mem a = if addr.toNat ≤ a ∧ a < addr.toNat + out.length then out.getD (a - addr.toNat) 0 else Memory.get s.host.mem a)
            ∧ t = { s with host := { s.host with drings := t.host.drings, rrings := t.host.rrings, mem := t.host.mem } })))
    ∧ (∀ nonce : Vector Byte 32, s.isSet (.ext .secStatus) SEC_STATUS.ATT_GEN = true → Completes (.keyAttest h addr nonce) s (fun t => t.host.attests = s.host.attests ++ [(ref, addr.toNat, nonce)]
        ∧ t.host.drings[h.ring].began = some ref ∧ t = { s with host := { s.host with drings := t.host.drings, attests := t.host.attests } }))
    ∧ (∀ (mask : BitVec 16) (codes : Vector (BitVec 16) 16), s.feature 6 = true →
        ((∃ c : ChanId, s.chans[c].st.busy = true) → Completes (.keyFuseDark h mask codes) s (fun t => s.Passed t h 0x0D Reason.partLit 0 ∧ ringsOnly t))
        ∧ ((∀ c : ChanId, s.chans[c].st.busy = false) → (∃ c ∈ maskChans mask, ∃ v, s.sec.darkFuses[c] = some v ∧ v ≠ codes[c]) → Completes (.keyFuseDark h mask codes) s (fun t =>
            s.Passed t h 0x0D Reason.fuseDone 0 ∧ ringsOnly t))
        ∧ ((∀ c : ChanId, s.chans[c].st.busy = false) → (∀ c ∈ maskChans mask, ∀ v, s.sec.darkFuses[c] = some v → v = codes[c]) → Completes (.keyFuseDark h mask codes) s (fun t => s.Passed t h 0x0D 0 0
            ∧ (∀ c : ChanId, t.sec.darkFuses[c] = if c ∈ maskChans mask then some codes[c] else s.sec.darkFuses[c]) ∧ t.regs = s.regs ∧ t.host.mem = s.host.mem))))
  ∧ (s.isSet (.ext .secStatus) SEC_STATUS.ATT_GEN = true → Completes .attKeyGenDone s (fun t => t.sec.attKey = some s.free ∧ t.sec.erased = false ∧ t.isSet (.ext .secStatus) SEC_STATUS.ATT_GEN = false ∧ t.host.attests = []
      ∧ (s.host.attests = [] → t = { s with regs := t.regs, free := t.free, sec := t.sec } ∧ s.SameRegs t (· = .ext .secStatus))))
end

