-- ==== Sys2Proof/Laws/Tables.lean ====
section
/-! SUPPORT. Laws of fields, of the register table and of byte memories: what a read gives after a write, and that every operation keeps the canonical form. -/
namespace Sys2Proof.Laws
open Sys2Proof Sys2Proof.Machine

/-! ### Fields -/

theorem FieldSpec_get_lt (f : FieldSpec) (w : Word) : FieldSpec.get f w < 2 ^ f.width := Nat.mod_lt _ (Nat.two_pow_pos _)

theorem FieldSpec_mask_getLsbD (f : FieldSpec) (i : Nat) :
    (FieldSpec.mask f).getLsbD i = (decide (i < 32) && (decide (f.lo ≤ i) && decide (i - f.lo < f.width))) := by
  simp only [FieldSpec.mask, BitVec.getLsbD_ofNat, Nat.testBit_shiftLeft, Nat.testBit_two_pow_sub_one, ge_iff_le]

theorem FieldSpec_put_getLsbD (f : FieldSpec) (w : Word) (v i : Nat) :
    (FieldSpec.put f w v).getLsbD i =
      (decide (i < 32) && ((w.getLsbD i && !(decide (f.lo ≤ i) && decide (i - f.lo < f.width)))
        || (decide (f.lo ≤ i) && (decide (i - f.lo < f.width) && v.testBit (i - f.lo))))) := by
  rw [FieldSpec.put, BitVec.getLsbD_or, BitVec.getLsbD_and, BitVec.getLsbD_not, FieldSpec_mask_getLsbD, BitVec.getLsbD_ofNat, Nat.testBit_shiftLeft,
    Nat.testBit_mod_two_pow]
  by_cases h : i < 32 <;> simp [h]

/-- A field reads back what was stored in it, reduced to its width. -/
@[simp] theorem FieldSpec_get_put (f : FieldSpec) (w : Word) (v : Nat) (h : f.lo + f.width ≤ 32) :
    FieldSpec.get f (FieldSpec.put f w v) = v % 2 ^ f.width := by
  apply Nat.eq_of_testBit_eq
  intro i
  rw [FieldSpec.get, Nat.testBit_mod_two_pow, Nat.testBit_shiftRight, ← BitVec.getLsbD, FieldSpec_put_getLsbD, Nat.testBit_mod_two_pow]
  by_cases hi : i < f.width
  · have h1 : f.lo + i < 32 := by omega
    simp [hi, h1]
  · simp [hi]

/-- Two fields that do not overlap: storing one leaves the other. -/
theorem FieldSpec_get_put_ne (f g : FieldSpec) (w : Word) (v : Nat) (h : f.lo + f.width ≤ g.lo ∨ g.lo + g.width ≤ f.lo) (hg : g.lo + g.width ≤ 32) :
    FieldSpec.get g (FieldSpec.put f w v) = FieldSpec.get g w := by
  apply Nat.eq_of_testBit_eq
  intro i
  rw [FieldSpec.get, FieldSpec.get, Nat.testBit_mod_two_pow, Nat.testBit_mod_two_pow, Nat.testBit_shiftRight, Nat.testBit_shiftRight, ← BitVec.getLsbD,
    ← BitVec.getLsbD, FieldSpec_put_getLsbD]
  by_cases hi : i < g.width
  · have h1 : g.lo + i < 32 := by omega
    have h2 : ¬ (f.lo ≤ g.lo + i ∧ g.lo + i - f.lo < f.width) := by omega
    by_cases h3 : f.lo ≤ g.lo + i
    · have h4 : ¬ g.lo + i - f.lo < f.width := fun h => h2 ⟨h3, h⟩
      simp [hi, h1, h3, h4]
    · simp [hi, h1, h3]
  · simp [hi]

/-! ### The register table -/

theorem RegTab_get_erase_same (t : List (Reg × Word)) (r : Reg) : RegTab.get (RegTab.erase t r) r = r.reset := by
  induction t with
  | nil => rfl
  | cons p t ih =>
    obtain ⟨r', w⟩ := p
    by_cases h : r' = r <;> simp [RegTab.erase, RegTab.get, h, ih]

theorem RegTab_get_erase_ne (t : List (Reg × Word)) {r q : Reg} (h : q ≠ r) : RegTab.get (RegTab.erase t r) q = RegTab.get t q := by
  induction t with
  | nil => rfl
  | cons p t ih =>
    obtain ⟨r', w⟩ := p
    by_cases h1 : r' = r
    · have h2 : r' ≠ q := fun e => h (e ▸ h1)
      subst h1
      simp [RegTab.erase, RegTab.get, h2, ih]
    · by_cases h2 : r' = q
      · subst h2; simp [RegTab.erase, RegTab.get, h1]
      · simp [RegTab.erase, RegTab.get, h1, h2, ih]

theorem RegTab_get_insert_ne (t : List (Reg × Word)) {r q : Reg} (w : Word) (h : q ≠ r) : RegTab.get (RegTab.insert t r w) q = RegTab.get t q := by
  induction t with
  | nil => simp [RegTab.insert, RegTab.get, h.symm]
  | cons p t ih =>
    obtain ⟨r', w'⟩ := p
    unfold RegTab.insert
    split
    · simp [RegTab.get, h.symm]
    · by_cases h2 : r' = q <;> simp [RegTab.get, h2, ih]

/-- No entry of a table names a register. -/
def RegTab.free (t : List (Reg × Word)) (r : Reg) : Prop := ∀ p ∈ t, p.1 ≠ r

theorem RegTab_erase_free (t : List (Reg × Word)) (r : Reg) : RegTab.free (RegTab.erase t r) r := by
  induction t with
  | nil => simp [RegTab.free, RegTab.erase]
  | cons p t ih =>
    obtain ⟨r', w⟩ := p
    by_cases h : r' = r
    · simpa [RegTab.erase, h] using ih
    · intro q hq
      rw [RegTab.erase, if_neg h] at hq
      rcases List.mem_cons.1 hq with e | hq
      · rw [e]; exact h
      · exact ih q hq

theorem RegTab_get_insert_same (t : List (Reg × Word)) (r : Reg) (w : Word) (h : RegTab.free t r) : RegTab.get (RegTab.insert t r w) r = w := by
  induction t with
  | nil => simp [RegTab.insert, RegTab.get]
  | cons p t ih =>
    obtain ⟨r', w'⟩ := p
    have h1 : r' ≠ r := h (r', w') List.mem_cons_self
    unfold RegTab.insert
    split
    · simp [RegTab.get]
    · simp [RegTab.get, h1, ih (fun q hq => h q (List.mem_cons_of_mem _ hq))]

/-- A register reads back what was written to it. -/
@[simp] theorem RegTab_get_set_same (t : List (Reg × Word)) (r : Reg) (w : Word) : RegTab.get (RegTab.set t r w) r = w := by
  unfold RegTab.set
  split
  · rename_i h; rw [h]; exact RegTab_get_erase_same t r
  · exact RegTab_get_insert_same _ r w (RegTab_erase_free t r)

/-- A write leaves every other register alone. -/
@[simp] theorem RegTab_get_set_ne (t : List (Reg × Word)) {r q : Reg} (w : Word) (h : q ≠ r) : RegTab.get (RegTab.set t r w) q = RegTab.get t q := by
  unfold RegTab.set
  split
  · exact RegTab_get_erase_ne t h
  · rw [RegTab_get_insert_ne _ w h, RegTab_get_erase_ne t h]

theorem RegTab_erase_sublist (t : List (Reg × Word)) (r : Reg) : (RegTab.erase t r).Sublist t := by
  induction t with
  | nil => exact List.Sublist.slnil
  | cons p t ih =>
    obtain ⟨r', w⟩ := p
    by_cases h : r' = r
    · simp only [RegTab.erase, if_pos h]; exact ih.cons _
    · simp only [RegTab.erase, if_neg h]; exact ih.cons_cons _

theorem RegTab_wf_sublist {t u : List (Reg × Word)} (h : u.Sublist t) (ht : RegTab.wf t) : RegTab.wf u := ⟨ht.1.sublist h, fun p hp => ht.2 p (h.subset hp)⟩

theorem RegTab_erase_wf {t : List (Reg × Word)} (r : Reg) (h : RegTab.wf t) : RegTab.wf (RegTab.erase t r) := RegTab_wf_sublist (RegTab_erase_sublist t r) h

theorem RegTab_mem_insert {t : List (Reg × Word)} {r : Reg} {w : Word} {p : Reg × Word} (h : p ∈ RegTab.insert t r w) : p = (r, w) ∨ p ∈ t := by
  induction t with
  | nil => simpa [RegTab.insert] using h
  | cons q t ih =>
    obtain ⟨r', w'⟩ := q
    unfold RegTab.insert at h
    split at h
    · simpa using h
    · rcases List.mem_cons.1 h with e | h
      · exact .inr (e ▸ List.mem_cons_self)
      · exact (ih h).imp id (List.mem_cons_of_mem _)

/-! ### Byte memories -/

theorem Memory_get_erase_same (m : List Host.Cell) (a : Nat) : Memory.get (Memory.erase m a) a = 0 := by
  induction m with
  | nil => rfl
  | cons p m ih =>
    obtain ⟨a', b⟩ := p
    by_cases h : a' = a <;> simp [Memory.erase, Memory.get, h, ih]

theorem Memory_get_erase_ne (m : List Host.Cell) {a x : Nat} (h : x ≠ a) : Memory.get (Memory.erase m a) x = Memory.get m x := by
  induction m with
  | nil => rfl
  | cons p m ih =>
    obtain ⟨a', b⟩ := p
    by_cases h1 : a' = a
    · have h2 : a' ≠ x := by omega
      subst h1
      simp [Memory.erase, Memory.get, h2, ih]
    · by_cases h2 : a' = x
      · subst h2; simp [Memory.erase, Memory.get, h1]
      · simp [Memory.erase, Memory.get, h1, h2, ih]

theorem Memory_get_insert_ne (m : List Host.Cell) {a x : Nat} (b : Byte) (h : x ≠ a) : Memory.get (Memory.insert m a b) x = Memory.get m x := by
  induction m with
  | nil => simp [Memory.insert, Memory.get, h.symm]
  | cons p m ih =>
    obtain ⟨a', b'⟩ := p
    unfold Memory.insert
    split
    · simp [Memory.get, h.symm]
    · by_cases h2 : a' = x <;> simp [Memory.get, h2, ih]

theorem Memory_get_insert_same (m : List Host.Cell) (a : Nat) (b : Byte) (h : ∀ p ∈ m, p.1 ≠ a) : Memory.get (Memory.insert m a b) a = b := by
  induction m with
  | nil => simp [Memory.insert, Memory.get]
  | cons p m ih =>
    obtain ⟨a', b'⟩ := p
    have h1 : a' ≠ a := h (a', b') List.mem_cons_self
    unfold Memory.insert
    split
    · simp [Memory.get]
    · simp [Memory.get, h1, ih (fun q hq => h q (List.mem_cons_of_mem _ hq))]

theorem Memory_erase_sublist (m : List Host.Cell) (a : Nat) : (Memory.erase m a).Sublist m := by
  induction m with
  | nil => exact List.Sublist.slnil
  | cons p m ih =>
    obtain ⟨a', b⟩ := p
    by_cases h : a' = a
    · simp only [Memory.erase, if_pos h]; exact ih.cons _
    · simp only [Memory.erase, if_neg h]; exact ih.cons_cons _

theorem Memory_erase_ne (m : List Host.Cell) (a : Nat) : ∀ p ∈ Memory.erase m a, p.1 ≠ a := by
  induction m with
  | nil => simp [Memory.erase]
  | cons p m ih =>
    obtain ⟨a', b⟩ := p
    by_cases h : a' = a
    · simpa [Memory.erase, h] using ih
    · intro q hq
      rw [Memory.erase, if_neg h] at hq
      rcases List.mem_cons.1 hq with e | hq
      · rw [e]; exact h
      · exact ih q hq

/-- A byte reads back what was written to it. -/
@[simp] theorem Memory_get_set_same (m : List Host.Cell) (a : Nat) (b : Byte) : Memory.get (Memory.set m a b) a = b := by
  unfold Memory.set
  split
  · rename_i h; rw [h]; exact Memory_get_erase_same m a
  · exact Memory_get_insert_same _ a b (Memory_erase_ne m a)

/-- A write leaves every other byte alone. -/
@[simp] theorem Memory_get_set_ne (m : List Host.Cell) {a x : Nat} (b : Byte) (h : x ≠ a) : Memory.get (Memory.set m a b) x = Memory.get m x := by
  unfold Memory.set
  split
  · exact Memory_get_erase_ne m h
  · rw [Memory_get_insert_ne _ b h, Memory_get_erase_ne m h]

/-- A byte outside the bytes written reads as before. -/
theorem Memory_get_write_out (m : List Host.Cell) (a : Nat) (bs : List Byte) (x : Nat) (h : x < a ∨ a + bs.length ≤ x) : Memory.get (Memory.write m a bs) x = Memory.get m x := by
  induction bs generalizing m a with
  | nil => rfl
  | cons b bs ih =>
    simp only [List.length_cons] at h
    rw [Memory.write, ih _ _ (by omega), Memory_get_set_ne _ _ (by omega)]

/-- A byte within the bytes written reads as the one written there. -/
theorem Memory_get_write_in (m : List Host.Cell) (a : Nat) (bs : List Byte) (i : Nat) (h : i < bs.length) : Memory.get (Memory.write m a bs) (a + i) = bs[i] := by
  induction bs generalizing m a i with
  | nil => simp at h
  | cons b bs ih =>
    cases i with
    | zero => rw [Memory.write, Memory_get_write_out _ _ _ _ (by omega)]; simp
    | succ i =>
      have e : a + (i + 1) = a + 1 + i := by omega
      rw [Memory.write, e, ih _ _ _ (by simpa using h)]; rfl

/-- The canonical form, as a proposition about pairs of cells. -/
theorem Memory_wf_iff (m : List Host.Cell) : Memory.wf m = true ↔ m.Pairwise (fun p q => p.1 < q.1) ∧ ∀ p ∈ m, p.2 ≠ 0 := by
  induction m with
  | nil => simp [Memory.wf]
  | cons p m ih =>
    obtain ⟨a, b⟩ := p
    cases m with
    | nil => simp [Memory.wf]
    | cons q m =>
      obtain ⟨a', b'⟩ := q
      rw [Memory.wf, Bool.and_eq_true, Bool.and_eq_true, decide_eq_true_eq, ih]
      simp only [bne_iff_ne, ne_eq, List.pairwise_cons, List.mem_cons, forall_eq_or_imp]
      constructor
      · rintro ⟨⟨hb, ha⟩, ⟨h1, h2⟩, h3, h4⟩
        exact ⟨⟨⟨ha, fun x hx => Nat.lt_trans ha (h1 x hx)⟩, h1, h2⟩, hb, h3, h4⟩
      · rintro ⟨⟨⟨ha, _⟩, h1, h2⟩, hb, h3, h4⟩
        exact ⟨⟨hb, ha⟩, ⟨h1, h2⟩, h3, h4⟩

theorem Memory_mem_insert {m : List Host.Cell} {a : Nat} {b : Byte} {p : Host.Cell} (h : p ∈ Memory.insert m a b) : p = (a, b) ∨ p ∈ m := by
  induction m with
  | nil => simpa [Memory.insert] using h
  | cons q m ih =>
    obtain ⟨a', b'⟩ := q
    unfold Memory.insert at h
    split at h
    · simpa using h
    · rcases List.mem_cons.1 h with e | h
      · exact .inr (e ▸ List.mem_cons_self)
      · exact (ih h).imp id (List.mem_cons_of_mem _)

theorem Memory_wf_sublist {m n : List Host.Cell} (h : n.Sublist m) (hm : Memory.wf m = true) : Memory.wf n = true := by
  rw [Memory_wf_iff] at *
  exact ⟨hm.1.sublist h, fun p hp => hm.2 p (h.subset hp)⟩

/-- A memory without some cells keeps the canonical form. -/
theorem Memory_wf_filter (m : List Host.Cell) (p : Host.Cell → Bool) (h : Memory.wf m = true) : Memory.wf (m.filter p) = true := Memory_wf_sublist List.filter_sublist h

theorem Memory_wf_erase (m : List Host.Cell) (a : Nat) (h : Memory.wf m = true) : Memory.wf (Memory.erase m a) = true := Memory_wf_sublist (Memory_erase_sublist m a) h

theorem Memory_wf_insert (m : List Host.Cell) (a : Nat) (b : Byte) (hb : b ≠ 0) (ha : ∀ p ∈ m, p.1 ≠ a) (h : Memory.wf m = true) : Memory.wf (Memory.insert m a b) = true := by
  rw [Memory_wf_iff] at *
  refine ⟨?_, fun p hp => (Memory_mem_insert hp).elim (fun e => by rw [e]; exact hb) (h.2 p)⟩
  induction m with
  | nil => simp [Memory.insert]
  | cons q m ih =>
    obtain ⟨a', b'⟩ := q
    have h0 := List.pairwise_cons.1 h.1
    have ha' : a' ≠ a := ha (a', b') List.mem_cons_self
    unfold Memory.insert
    split
    · rename_i hlt
      exact List.pairwise_cons.2 ⟨fun x hx => (List.mem_cons.1 hx).elim (fun e => by rw [e]; exact hlt) (fun hx => Nat.lt_trans hlt (h0.1 x hx)), h.1⟩
    · rename_i hlt
      refine List.pairwise_cons.2 ⟨fun x hx => ?_, ih (fun p hp => ha p (List.mem_cons_of_mem _ hp)) ⟨h0.2, fun p hp => h.2 p (List.mem_cons_of_mem _ hp)⟩⟩
      rcases Memory_mem_insert hx with e | hx
      · rw [e]; show a' < a; omega
      · exact h0.1 x hx

/-- Writing a byte keeps the canonical form. -/
theorem Memory_wf_set (m : List Host.Cell) (a : Nat) (b : Byte) (h : Memory.wf m = true) : Memory.wf (Memory.set m a b) = true := by
  unfold Memory.set
  split
  · exact Memory_wf_erase m a h
  · rename_i hb; exact Memory_wf_insert _ a b hb (Memory_erase_ne m a) (Memory_wf_erase m a h)

/-- Writing bytes keeps the canonical form. -/
theorem Memory_wf_write (m : List Host.Cell) (a : Nat) (bs : List Byte) (h : Memory.wf m = true) : Memory.wf (Memory.write m a bs) = true := by
  induction bs generalizing m a with
  | nil => exact h
  | cons b bs ih => exact ih _ _ (Memory_wf_set m a b h)

/-- Writing a value keeps the canonical form. -/
theorem Memory_wf_writeLE (m : List Host.Cell) (a n v : Nat) (h : Memory.wf m = true) : Memory.wf (Memory.writeLE m a n v) = true := Memory_wf_write m a _ h

end Sys2Proof.Laws
end

