-- ==== Sys2Proof/Laws/State.lean ====
section
/-! SUPPORT. What each update of the state leaves as it was, one lemma for each field, and what a read of a register or a field gives after a write of one. -/
namespace Sys2Proof.Laws
open Sys2Proof Sys2Proof.Machine

/-! ### Registers and fields -/

theorem rd_wr (s : State) (r q : Reg) (w : Word) : (s.wr r w).rd q = if q = r then w else s.rd q := by
  by_cases h : q = r
  · subst h; simp [State.rd, State.wr]
  · simp [State.rd, State.wr, h]
@[simp] theorem rd_wr_same (s : State) (r : Reg) (w : Word) : (s.wr r w).rd r = w := by simp [rd_wr]
@[simp] theorem rd_wr_ne (s : State) {r q : Reg} (w : Word) (h : q ≠ r) : (s.wr r w).rd q = s.rd q := by simp [rd_wr, h]
@[simp] theorem rd_setFld_ne (s : State) {r q : Reg} (g : FieldSpec) (v : Nat) (h : q ≠ r) : (s.setFld r g v).rd q = s.rd q := rd_wr_ne s _ h
@[simp] theorem rd_setFlag_ne (s : State) {r q : Reg} (g : FieldSpec) (b : Bool) (h : q ≠ r) : (s.setFlag r g b).rd q = s.rd q := rd_wr_ne s _ h
@[simp] theorem rd_raise_ne (s : State) {r q : Reg} (g : FieldSpec) (h : q ≠ r) : (s.raise r g).rd q = s.rd q := rd_wr_ne s _ h
@[simp] theorem rd_bumpBy_ne (s : State) {r q : Reg} (g : FieldSpec) (n : Nat) (h : q ≠ r) : (s.bumpBy r g n).rd q = s.rd q := rd_wr_ne s _ h
@[simp] theorem rd_bump_ne (s : State) {r q : Reg} (g : FieldSpec) (h : q ≠ r) : (s.bump r g).rd q = s.rd q := rd_wr_ne s _ h
theorem rd_setFld_same (s : State) (r : Reg) (g : FieldSpec) (v : Nat) : (s.setFld r g v).rd r = g.put (s.rd r) v := rd_wr_same s r _
theorem fld_eq (s : State) (r : Reg) (g : FieldSpec) : s.fld r g = g.get (s.rd r) := rfl
theorem fld_setFld_same (s : State) (r : Reg) (g : FieldSpec) (v : Nat) (h : g.lo + g.width ≤ 32) : (s.setFld r g v).fld r g = v % 2 ^ g.width := by
  rw [fld_eq, rd_setFld_same, FieldSpec_get_put _ _ _ h]
theorem fld_setFld_apart (s : State) (r : Reg) (g k : FieldSpec) (v : Nat) (h : g.lo + g.width ≤ k.lo ∨ k.lo + k.width ≤ g.lo) (hk : k.lo + k.width ≤ 32) :
    (s.setFld r g v).fld r k = s.fld r k := by
  rw [fld_eq, rd_setFld_same, FieldSpec_get_put_ne _ _ _ _ h hk, fld_eq]
@[simp] theorem fld_wr_ne (s : State) {r q : Reg} (w : Word) (k : FieldSpec) (h : q ≠ r) : (s.wr r w).fld q k = s.fld q k := by simp [fld_eq, h]
@[simp] theorem fld_setFld_ne (s : State) {r q : Reg} (g k : FieldSpec) (v : Nat) (h : q ≠ r) : (s.setFld r g v).fld q k = s.fld q k := by simp [fld_eq, h]
theorem raise_eq (s : State) (r : Reg) (g : FieldSpec) : s.raise r g = s.setFld r g 1 := rfl
theorem setFlag_eq (s : State) (r : Reg) (g : FieldSpec) (b : Bool) : s.setFlag r g b = s.setFld r g (if b then 1 else 0) := rfl
theorem bumpBy_eq (s : State) (r : Reg) (g : FieldSpec) (n : Nat) : s.bumpBy r g n = s.setFld r g (min g.top (s.fld r g + n)) := rfl
theorem bump_eq (s : State) (r : Reg) (g : FieldSpec) : s.bump r g = s.bumpBy r g 1 := rfl

/-- A flag that is set reads 1. -/
theorem fld_raise_same (s : State) (r : Reg) (g : FieldSpec) (h : g.lo + g.width ≤ 32) (hw : 0 < g.width) : (s.raise r g).fld r g = 1 := by
  rw [raise_eq, fld_setFld_same _ _ _ _ h]
  exact Nat.mod_eq_of_lt (Nat.one_lt_two_pow (by omega))

/-- A counter counts up to its largest value and stays there. -/
theorem fld_bumpBy_same (s : State) (r : Reg) (g : FieldSpec) (n : Nat) (h : g.lo + g.width ≤ 32) : (s.bumpBy r g n).fld r g = min g.top (s.fld r g + n) := by
  rw [bumpBy_eq, fld_setFld_same _ _ _ _ h]
  apply Nat.mod_eq_of_lt
  have : 0 < 2 ^ g.width := Nat.two_pow_pos _
  simp only [FieldSpec.top]
  omega

/-! ### `wr` -/

@[simp] theorem wr_pending (s : State) (r : Reg) (w : Word) : (s.wr r w).pending = s.pending := rfl
@[simp] theorem wr_resp (s : State) (r : Reg) (w : Word) : (s.wr r w).resp = s.resp := rfl
@[simp] theorem wr_free (s : State) (r : Reg) (w : Word) : (s.wr r w).free = s.free := rfl
@[simp] theorem wr_clock (s : State) (r : Reg) (w : Word) : (s.wr r w).clock = s.clock := rfl
@[simp] theorem wr_chans (s : State) (r : Reg) (w : Word) : (s.wr r w).chans = s.chans := rfl
@[simp] theorem wr_engines (s : State) (r : Reg) (w : Word) : (s.wr r w).engines = s.engines := rfl
@[simp] theorem wr_shadows (s : State) (r : Reg) (w : Word) : (s.wr r w).shadows = s.shadows := rfl
@[simp] theorem wr_bias (s : State) (r : Reg) (w : Word) : (s.wr r w).bias = s.bias := rfl
@[simp] theorem wr_biasBlk (s : State) (r : Reg) (w : Word) : (s.wr r w).biasBlk = s.biasBlk := rfl
@[simp] theorem wr_looks (s : State) (r : Reg) (w : Word) : (s.wr r w).looks = s.looks := rfl
@[simp] theorem wr_streams (s : State) (r : Reg) (w : Word) : (s.wr r w).streams = s.streams := rfl
@[simp] theorem wr_mers (s : State) (r : Reg) (w : Word) : (s.wr r w).mers = s.mers := rfl
@[simp] theorem wr_transit (s : State) (r : Reg) (w : Word) : (s.wr r w).transit = s.transit := rfl
@[simp] theorem wr_taps (s : State) (r : Reg) (w : Word) : (s.wr r w).taps = s.taps := rfl
@[simp] theorem wr_trnLogQ (s : State) (r : Reg) (w : Word) : (s.wr r w).trnLogQ = s.trnLogQ := rfl
@[simp] theorem wr_fabric (s : State) (r : Reg) (w : Word) : (s.wr r w).fabric = s.fabric := rfl
@[simp] theorem wr_links (s : State) (r : Reg) (w : Word) : (s.wr r w).links = s.links := rfl
@[simp] theorem wr_beats (s : State) (r : Reg) (w : Word) : (s.wr r w).beats = s.beats := rfl
@[simp] theorem wr_keepers (s : State) (r : Reg) (w : Word) : (s.wr r w).keepers = s.keepers := rfl
@[simp] theorem wr_flash (s : State) (r : Reg) (w : Word) : (s.wr r w).flash = s.flash := rfl
@[simp] theorem wr_pb3 (s : State) (r : Reg) (w : Word) : (s.wr r w).pb3 = s.pb3 := rfl
@[simp] theorem wr_ownerNew (s : State) (r : Reg) (w : Word) : (s.wr r w).ownerNew = s.ownerNew := rfl
@[simp] theorem wr_moor (s : State) (r : Reg) (w : Word) : (s.wr r w).moor = s.moor := rfl
@[simp] theorem wr_plate (s : State) (r : Reg) (w : Word) : (s.wr r w).plate = s.plate := rfl
@[simp] theorem wr_host (s : State) (r : Reg) (w : Word) : (s.wr r w).host = s.host := rfl
@[simp] theorem wr_copies (s : State) (r : Reg) (w : Word) : (s.wr r w).copies = s.copies := rfl
@[simp] theorem wr_badPar (s : State) (r : Reg) (w : Word) : (s.wr r w).badPar = s.badPar := rfl
@[simp] theorem wr_latches (s : State) (r : Reg) (w : Word) : (s.wr r w).latches = s.latches := rfl
@[simp] theorem wr_snap (s : State) (r : Reg) (w : Word) : (s.wr r w).snap = s.snap := rfl
@[simp] theorem wr_power (s : State) (r : Reg) (w : Word) : (s.wr r w).power = s.power := rfl
@[simp] theorem wr_ledger (s : State) (r : Reg) (w : Word) : (s.wr r w).ledger = s.ledger := rfl
@[simp] theorem wr_sec (s : State) (r : Reg) (w : Word) : (s.wr r w).sec = s.sec := rfl
@[simp] theorem wr_domains (s : State) (r : Reg) (w : Word) : (s.wr r w).domains = s.domains := rfl
@[simp] theorem wr_dieLost (s : State) (r : Reg) (w : Word) : (s.wr r w).dieLost = s.dieLost := rfl

/-! ### `setFld` -/

@[simp] theorem setFld_pending (s : State) (r : Reg) (g : FieldSpec) (v : Nat) : (s.setFld r g v).pending = s.pending := rfl
@[simp] theorem setFld_resp (s : State) (r : Reg) (g : FieldSpec) (v : Nat) : (s.setFld r g v).resp = s.resp := rfl
@[simp] theorem setFld_free (s : State) (r : Reg) (g : FieldSpec) (v : Nat) : (s.setFld r g v).free = s.free := rfl
@[simp] theorem setFld_clock (s : State) (r : Reg) (g : FieldSpec) (v : Nat) : (s.setFld r g v).clock = s.clock := rfl
@[simp] theorem setFld_chans (s : State) (r : Reg) (g : FieldSpec) (v : Nat) : (s.setFld r g v).chans = s.chans := rfl
@[simp] theorem setFld_engines (s : State) (r : Reg) (g : FieldSpec) (v : Nat) : (s.setFld r g v).engines = s.engines := rfl
@[simp] theorem setFld_shadows (s : State) (r : Reg) (g : FieldSpec) (v : Nat) : (s.setFld r g v).shadows = s.shadows := rfl
@[simp] theorem setFld_bias (s : State) (r : Reg) (g : FieldSpec) (v : Nat) : (s.setFld r g v).bias = s.bias := rfl
@[simp] theorem setFld_biasBlk (s : State) (r : Reg) (g : FieldSpec) (v : Nat) : (s.setFld r g v).biasBlk = s.biasBlk := rfl
@[simp] theorem setFld_looks (s : State) (r : Reg) (g : FieldSpec) (v : Nat) : (s.setFld r g v).looks = s.looks := rfl
@[simp] theorem setFld_streams (s : State) (r : Reg) (g : FieldSpec) (v : Nat) : (s.setFld r g v).streams = s.streams := rfl
@[simp] theorem setFld_mers (s : State) (r : Reg) (g : FieldSpec) (v : Nat) : (s.setFld r g v).mers = s.mers := rfl
@[simp] theorem setFld_transit (s : State) (r : Reg) (g : FieldSpec) (v : Nat) : (s.setFld r g v).transit = s.transit := rfl
@[simp] theorem setFld_taps (s : State) (r : Reg) (g : FieldSpec) (v : Nat) : (s.setFld r g v).taps = s.taps := rfl
@[simp] theorem setFld_trnLogQ (s : State) (r : Reg) (g : FieldSpec) (v : Nat) : (s.setFld r g v).trnLogQ = s.trnLogQ := rfl
@[simp] theorem setFld_fabric (s : State) (r : Reg) (g : FieldSpec) (v : Nat) : (s.setFld r g v).fabric = s.fabric := rfl
@[simp] theorem setFld_links (s : State) (r : Reg) (g : FieldSpec) (v : Nat) : (s.setFld r g v).links = s.links := rfl
@[simp] theorem setFld_beats (s : State) (r : Reg) (g : FieldSpec) (v : Nat) : (s.setFld r g v).beats = s.beats := rfl
@[simp] theorem setFld_keepers (s : State) (r : Reg) (g : FieldSpec) (v : Nat) : (s.setFld r g v).keepers = s.keepers := rfl
@[simp] theorem setFld_flash (s : State) (r : Reg) (g : FieldSpec) (v : Nat) : (s.setFld r g v).flash = s.flash := rfl
@[simp] theorem setFld_pb3 (s : State) (r : Reg) (g : FieldSpec) (v : Nat) : (s.setFld r g v).pb3 = s.pb3 := rfl
@[simp] theorem setFld_ownerNew (s : State) (r : Reg) (g : FieldSpec) (v : Nat) : (s.setFld r g v).ownerNew = s.ownerNew := rfl
@[simp] theorem setFld_moor (s : State) (r : Reg) (g : FieldSpec) (v : Nat) : (s.setFld r g v).moor = s.moor := rfl
@[simp] theorem setFld_plate (s : State) (r : Reg) (g : FieldSpec) (v : Nat) : (s.setFld r g v).plate = s.plate := rfl
@[simp] theorem setFld_host (s : State) (r : Reg) (g : FieldSpec) (v : Nat) : (s.setFld r g v).host = s.host := rfl
@[simp] theorem setFld_copies (s : State) (r : Reg) (g : FieldSpec) (v : Nat) : (s.setFld r g v).copies = s.copies := rfl
@[simp] theorem setFld_badPar (s : State) (r : Reg) (g : FieldSpec) (v : Nat) : (s.setFld r g v).badPar = s.badPar := rfl
@[simp] theorem setFld_latches (s : State) (r : Reg) (g : FieldSpec) (v : Nat) : (s.setFld r g v).latches = s.latches := rfl
@[simp] theorem setFld_snap (s : State) (r : Reg) (g : FieldSpec) (v : Nat) : (s.setFld r g v).snap = s.snap := rfl
@[simp] theorem setFld_power (s : State) (r : Reg) (g : FieldSpec) (v : Nat) : (s.setFld r g v).power = s.power := rfl
@[simp] theorem setFld_ledger (s : State) (r : Reg) (g : FieldSpec) (v : Nat) : (s.setFld r g v).ledger = s.ledger := rfl
@[simp] theorem setFld_sec (s : State) (r : Reg) (g : FieldSpec) (v : Nat) : (s.setFld r g v).sec = s.sec := rfl
@[simp] theorem setFld_domains (s : State) (r : Reg) (g : FieldSpec) (v : Nat) : (s.setFld r g v).domains = s.domains := rfl
@[simp] theorem setFld_dieLost (s : State) (r : Reg) (g : FieldSpec) (v : Nat) : (s.setFld r g v).dieLost = s.dieLost := rfl

/-! ### `setFlag` -/

@[simp] theorem setFlag_pending (s : State) (r : Reg) (g : FieldSpec) (b : Bool) : (s.setFlag r g b).pending = s.pending := rfl
@[simp] theorem setFlag_resp (s : State) (r : Reg) (g : FieldSpec) (b : Bool) : (s.setFlag r g b).resp = s.resp := rfl
@[simp] theorem setFlag_free (s : State) (r : Reg) (g : FieldSpec) (b : Bool) : (s.setFlag r g b).free = s.free := rfl
@[simp] theorem setFlag_clock (s : State) (r : Reg) (g : FieldSpec) (b : Bool) : (s.setFlag r g b).clock = s.clock := rfl
@[simp] theorem setFlag_chans (s : State) (r : Reg) (g : FieldSpec) (b : Bool) : (s.setFlag r g b).chans = s.chans := rfl
@[simp] theorem setFlag_engines (s : State) (r : Reg) (g : FieldSpec) (b : Bool) : (s.setFlag r g b).engines = s.engines := rfl
@[simp] theorem setFlag_shadows (s : State) (r : Reg) (g : FieldSpec) (b : Bool) : (s.setFlag r g b).shadows = s.shadows := rfl
@[simp] theorem setFlag_bias (s : State) (r : Reg) (g : FieldSpec) (b : Bool) : (s.setFlag r g b).bias = s.bias := rfl
@[simp] theorem setFlag_biasBlk (s : State) (r : Reg) (g : FieldSpec) (b : Bool) : (s.setFlag r g b).biasBlk = s.biasBlk := rfl
@[simp] theorem setFlag_looks (s : State) (r : Reg) (g : FieldSpec) (b : Bool) : (s.setFlag r g b).looks = s.looks := rfl
@[simp] theorem setFlag_streams (s : State) (r : Reg) (g : FieldSpec) (b : Bool) : (s.setFlag r g b).streams = s.streams := rfl
@[simp] theorem setFlag_mers (s : State) (r : Reg) (g : FieldSpec) (b : Bool) : (s.setFlag r g b).mers = s.mers := rfl
@[simp] theorem setFlag_transit (s : State) (r : Reg) (g : FieldSpec) (b : Bool) : (s.setFlag r g b).transit = s.transit := rfl
@[simp] theorem setFlag_taps (s : State) (r : Reg) (g : FieldSpec) (b : Bool) : (s.setFlag r g b).taps = s.taps := rfl
@[simp] theorem setFlag_trnLogQ (s : State) (r : Reg) (g : FieldSpec) (b : Bool) : (s.setFlag r g b).trnLogQ = s.trnLogQ := rfl
@[simp] theorem setFlag_fabric (s : State) (r : Reg) (g : FieldSpec) (b : Bool) : (s.setFlag r g b).fabric = s.fabric := rfl
@[simp] theorem setFlag_links (s : State) (r : Reg) (g : FieldSpec) (b : Bool) : (s.setFlag r g b).links = s.links := rfl
@[simp] theorem setFlag_beats (s : State) (r : Reg) (g : FieldSpec) (b : Bool) : (s.setFlag r g b).beats = s.beats := rfl
@[simp] theorem setFlag_keepers (s : State) (r : Reg) (g : FieldSpec) (b : Bool) : (s.setFlag r g b).keepers = s.keepers := rfl
@[simp] theorem setFlag_flash (s : State) (r : Reg) (g : FieldSpec) (b : Bool) : (s.setFlag r g b).flash = s.flash := rfl
@[simp] theorem setFlag_pb3 (s : State) (r : Reg) (g : FieldSpec) (b : Bool) : (s.setFlag r g b).pb3 = s.pb3 := rfl
@[simp] theorem setFlag_ownerNew (s : State) (r : Reg) (g : FieldSpec) (b : Bool) : (s.setFlag r g b).ownerNew = s.ownerNew := rfl
@[simp] theorem setFlag_moor (s : State) (r : Reg) (g : FieldSpec) (b : Bool) : (s.setFlag r g b).moor = s.moor := rfl
@[simp] theorem setFlag_plate (s : State) (r : Reg) (g : FieldSpec) (b : Bool) : (s.setFlag r g b).plate = s.plate := rfl
@[simp] theorem setFlag_host (s : State) (r : Reg) (g : FieldSpec) (b : Bool) : (s.setFlag r g b).host = s.host := rfl
@[simp] theorem setFlag_copies (s : State) (r : Reg) (g : FieldSpec) (b : Bool) : (s.setFlag r g b).copies = s.copies := rfl
@[simp] theorem setFlag_badPar (s : State) (r : Reg) (g : FieldSpec) (b : Bool) : (s.setFlag r g b).badPar = s.badPar := rfl
@[simp] theorem setFlag_latches (s : State) (r : Reg) (g : FieldSpec) (b : Bool) : (s.setFlag r g b).latches = s.latches := rfl
@[simp] theorem setFlag_snap (s : State) (r : Reg) (g : FieldSpec) (b : Bool) : (s.setFlag r g b).snap = s.snap := rfl
@[simp] theorem setFlag_power (s : State) (r : Reg) (g : FieldSpec) (b : Bool) : (s.setFlag r g b).power = s.power := rfl
@[simp] theorem setFlag_ledger (s : State) (r : Reg) (g : FieldSpec) (b : Bool) : (s.setFlag r g b).ledger = s.ledger := rfl
@[simp] theorem setFlag_sec (s : State) (r : Reg) (g : FieldSpec) (b : Bool) : (s.setFlag r g b).sec = s.sec := rfl
@[simp] theorem setFlag_domains (s : State) (r : Reg) (g : FieldSpec) (b : Bool) : (s.setFlag r g b).domains = s.domains := rfl
@[simp] theorem setFlag_dieLost (s : State) (r : Reg) (g : FieldSpec) (b : Bool) : (s.setFlag r g b).dieLost = s.dieLost := rfl

/-! ### `raise` -/

@[simp] theorem raise_pending (s : State) (r : Reg) (g : FieldSpec) : (s.raise r g).pending = s.pending := rfl
@[simp] theorem raise_resp (s : State) (r : Reg) (g : FieldSpec) : (s.raise r g).resp = s.resp := rfl
@[simp] theorem raise_free (s : State) (r : Reg) (g : FieldSpec) : (s.raise r g).free = s.free := rfl
@[simp] theorem raise_clock (s : State) (r : Reg) (g : FieldSpec) : (s.raise r g).clock = s.clock := rfl
@[simp] theorem raise_chans (s : State) (r : Reg) (g : FieldSpec) : (s.raise r g).chans = s.chans := rfl
@[simp] theorem raise_engines (s : State) (r : Reg) (g : FieldSpec) : (s.raise r g).engines = s.engines := rfl
@[simp] theorem raise_shadows (s : State) (r : Reg) (g : FieldSpec) : (s.raise r g).shadows = s.shadows := rfl
@[simp] theorem raise_bias (s : State) (r : Reg) (g : FieldSpec) : (s.raise r g).bias = s.bias := rfl
@[simp] theorem raise_biasBlk (s : State) (r : Reg) (g : FieldSpec) : (s.raise r g).biasBlk = s.biasBlk := rfl
@[simp] theorem raise_looks (s : State) (r : Reg) (g : FieldSpec) : (s.raise r g).looks = s.looks := rfl
@[simp] theorem raise_streams (s : State) (r : Reg) (g : FieldSpec) : (s.raise r g).streams = s.streams := rfl
@[simp] theorem raise_mers (s : State) (r : Reg) (g : FieldSpec) : (s.raise r g).mers = s.mers := rfl
@[simp] theorem raise_transit (s : State) (r : Reg) (g : FieldSpec) : (s.raise r g).transit = s.transit := rfl
@[simp] theorem raise_taps (s : State) (r : Reg) (g : FieldSpec) : (s.raise r g).taps = s.taps := rfl
@[simp] theorem raise_trnLogQ (s : State) (r : Reg) (g : FieldSpec) : (s.raise r g).trnLogQ = s.trnLogQ := rfl
@[simp] theorem raise_fabric (s : State) (r : Reg) (g : FieldSpec) : (s.raise r g).fabric = s.fabric := rfl
@[simp] theorem raise_links (s : State) (r : Reg) (g : FieldSpec) : (s.raise r g).links = s.links := rfl
@[simp] theorem raise_beats (s : State) (r : Reg) (g : FieldSpec) : (s.raise r g).beats = s.beats := rfl
@[simp] theorem raise_keepers (s : State) (r : Reg) (g : FieldSpec) : (s.raise r g).keepers = s.keepers := rfl
@[simp] theorem raise_flash (s : State) (r : Reg) (g : FieldSpec) : (s.raise r g).flash = s.flash := rfl
@[simp] theorem raise_pb3 (s : State) (r : Reg) (g : FieldSpec) : (s.raise r g).pb3 = s.pb3 := rfl
@[simp] theorem raise_ownerNew (s : State) (r : Reg) (g : FieldSpec) : (s.raise r g).ownerNew = s.ownerNew := rfl
@[simp] theorem raise_moor (s : State) (r : Reg) (g : FieldSpec) : (s.raise r g).moor = s.moor := rfl
@[simp] theorem raise_plate (s : State) (r : Reg) (g : FieldSpec) : (s.raise r g).plate = s.plate := rfl
@[simp] theorem raise_host (s : State) (r : Reg) (g : FieldSpec) : (s.raise r g).host = s.host := rfl
@[simp] theorem raise_copies (s : State) (r : Reg) (g : FieldSpec) : (s.raise r g).copies = s.copies := rfl
@[simp] theorem raise_badPar (s : State) (r : Reg) (g : FieldSpec) : (s.raise r g).badPar = s.badPar := rfl
@[simp] theorem raise_latches (s : State) (r : Reg) (g : FieldSpec) : (s.raise r g).latches = s.latches := rfl
@[simp] theorem raise_snap (s : State) (r : Reg) (g : FieldSpec) : (s.raise r g).snap = s.snap := rfl
@[simp] theorem raise_power (s : State) (r : Reg) (g : FieldSpec) : (s.raise r g).power = s.power := rfl
@[simp] theorem raise_ledger (s : State) (r : Reg) (g : FieldSpec) : (s.raise r g).ledger = s.ledger := rfl
@[simp] theorem raise_sec (s : State) (r : Reg) (g : FieldSpec) : (s.raise r g).sec = s.sec := rfl
@[simp] theorem raise_domains (s : State) (r : Reg) (g : FieldSpec) : (s.raise r g).domains = s.domains := rfl
@[simp] theorem raise_dieLost (s : State) (r : Reg) (g : FieldSpec) : (s.raise r g).dieLost = s.dieLost := rfl

/-! ### `bumpBy` -/

@[simp] theorem bumpBy_pending (s : State) (r : Reg) (g : FieldSpec) (n : Nat) : (s.bumpBy r g n).pending = s.pending := rfl
@[simp] theorem bumpBy_resp (s : State) (r : Reg) (g : FieldSpec) (n : Nat) : (s.bumpBy r g n).resp = s.resp := rfl
@[simp] theorem bumpBy_free (s : State) (r : Reg) (g : FieldSpec) (n : Nat) : (s.bumpBy r g n).free = s.free := rfl
@[simp] theorem bumpBy_clock (s : State) (r : Reg) (g : FieldSpec) (n : Nat) : (s.bumpBy r g n).clock = s.clock := rfl
@[simp] theorem bumpBy_chans (s : State) (r : Reg) (g : FieldSpec) (n : Nat) : (s.bumpBy r g n).chans = s.chans := rfl
@[simp] theorem bumpBy_engines (s : State) (r : Reg) (g : FieldSpec) (n : Nat) : (s.bumpBy r g n).engines = s.engines := rfl
@[simp] theorem bumpBy_shadows (s : State) (r : Reg) (g : FieldSpec) (n : Nat) : (s.bumpBy r g n).shadows = s.shadows := rfl
@[simp] theorem bumpBy_bias (s : State) (r : Reg) (g : FieldSpec) (n : Nat) : (s.bumpBy r g n).bias = s.bias := rfl
@[simp] theorem bumpBy_biasBlk (s : State) (r : Reg) (g : FieldSpec) (n : Nat) : (s.bumpBy r g n).biasBlk = s.biasBlk := rfl
@[simp] theorem bumpBy_looks (s : State) (r : Reg) (g : FieldSpec) (n : Nat) : (s.bumpBy r g n).looks = s.looks := rfl
@[simp] theorem bumpBy_streams (s : State) (r : Reg) (g : FieldSpec) (n : Nat) : (s.bumpBy r g n).streams = s.streams := rfl
@[simp] theorem bumpBy_mers (s : State) (r : Reg) (g : FieldSpec) (n : Nat) : (s.bumpBy r g n).mers = s.mers := rfl
@[simp] theorem bumpBy_transit (s : State) (r : Reg) (g : FieldSpec) (n : Nat) : (s.bumpBy r g n).transit = s.transit := rfl
@[simp] theorem bumpBy_taps (s : State) (r : Reg) (g : FieldSpec) (n : Nat) : (s.bumpBy r g n).taps = s.taps := rfl
@[simp] theorem bumpBy_trnLogQ (s : State) (r : Reg) (g : FieldSpec) (n : Nat) : (s.bumpBy r g n).trnLogQ = s.trnLogQ := rfl
@[simp] theorem bumpBy_fabric (s : State) (r : Reg) (g : FieldSpec) (n : Nat) : (s.bumpBy r g n).fabric = s.fabric := rfl
@[simp] theorem bumpBy_links (s : State) (r : Reg) (g : FieldSpec) (n : Nat) : (s.bumpBy r g n).links = s.links := rfl
@[simp] theorem bumpBy_beats (s : State) (r : Reg) (g : FieldSpec) (n : Nat) : (s.bumpBy r g n).beats = s.beats := rfl
@[simp] theorem bumpBy_keepers (s : State) (r : Reg) (g : FieldSpec) (n : Nat) : (s.bumpBy r g n).keepers = s.keepers := rfl
@[simp] theorem bumpBy_flash (s : State) (r : Reg) (g : FieldSpec) (n : Nat) : (s.bumpBy r g n).flash = s.flash := rfl
@[simp] theorem bumpBy_pb3 (s : State) (r : Reg) (g : FieldSpec) (n : Nat) : (s.bumpBy r g n).pb3 = s.pb3 := rfl
@[simp] theorem bumpBy_ownerNew (s : State) (r : Reg) (g : FieldSpec) (n : Nat) : (s.bumpBy r g n).ownerNew = s.ownerNew := rfl
@[simp] theorem bumpBy_moor (s : State) (r : Reg) (g : FieldSpec) (n : Nat) : (s.bumpBy r g n).moor = s.moor := rfl
@[simp] theorem bumpBy_plate (s : State) (r : Reg) (g : FieldSpec) (n : Nat) : (s.bumpBy r g n).plate = s.plate := rfl
@[simp] theorem bumpBy_host (s : State) (r : Reg) (g : FieldSpec) (n : Nat) : (s.bumpBy r g n).host = s.host := rfl
@[simp] theorem bumpBy_copies (s : State) (r : Reg) (g : FieldSpec) (n : Nat) : (s.bumpBy r g n).copies = s.copies := rfl
@[simp] theorem bumpBy_badPar (s : State) (r : Reg) (g : FieldSpec) (n : Nat) : (s.bumpBy r g n).badPar = s.badPar := rfl
@[simp] theorem bumpBy_latches (s : State) (r : Reg) (g : FieldSpec) (n : Nat) : (s.bumpBy r g n).latches = s.latches := rfl
@[simp] theorem bumpBy_snap (s : State) (r : Reg) (g : FieldSpec) (n : Nat) : (s.bumpBy r g n).snap = s.snap := rfl
@[simp] theorem bumpBy_power (s : State) (r : Reg) (g : FieldSpec) (n : Nat) : (s.bumpBy r g n).power = s.power := rfl
@[simp] theorem bumpBy_ledger (s : State) (r : Reg) (g : FieldSpec) (n : Nat) : (s.bumpBy r g n).ledger = s.ledger := rfl
@[simp] theorem bumpBy_sec (s : State) (r : Reg) (g : FieldSpec) (n : Nat) : (s.bumpBy r g n).sec = s.sec := rfl
@[simp] theorem bumpBy_domains (s : State) (r : Reg) (g : FieldSpec) (n : Nat) : (s.bumpBy r g n).domains = s.domains := rfl
@[simp] theorem bumpBy_dieLost (s : State) (r : Reg) (g : FieldSpec) (n : Nat) : (s.bumpBy r g n).dieLost = s.dieLost := rfl

/-! ### `bump` -/

@[simp] theorem bump_pending (s : State) (r : Reg) (g : FieldSpec) : (s.bump r g).pending = s.pending := rfl
@[simp] theorem bump_resp (s : State) (r : Reg) (g : FieldSpec) : (s.bump r g).resp = s.resp := rfl
@[simp] theorem bump_free (s : State) (r : Reg) (g : FieldSpec) : (s.bump r g).free = s.free := rfl
@[simp] theorem bump_clock (s : State) (r : Reg) (g : FieldSpec) : (s.bump r g).clock = s.clock := rfl
@[simp] theorem bump_chans (s : State) (r : Reg) (g : FieldSpec) : (s.bump r g).chans = s.chans := rfl
@[simp] theorem bump_engines (s : State) (r : Reg) (g : FieldSpec) : (s.bump r g).engines = s.engines := rfl
@[simp] theorem bump_shadows (s : State) (r : Reg) (g : FieldSpec) : (s.bump r g).shadows = s.shadows := rfl
@[simp] theorem bump_bias (s : State) (r : Reg) (g : FieldSpec) : (s.bump r g).bias = s.bias := rfl
@[simp] theorem bump_biasBlk (s : State) (r : Reg) (g : FieldSpec) : (s.bump r g).biasBlk = s.biasBlk := rfl
@[simp] theorem bump_looks (s : State) (r : Reg) (g : FieldSpec) : (s.bump r g).looks = s.looks := rfl
@[simp] theorem bump_streams (s : State) (r : Reg) (g : FieldSpec) : (s.bump r g).streams = s.streams := rfl
@[simp] theorem bump_mers (s : State) (r : Reg) (g : FieldSpec) : (s.bump r g).mers = s.mers := rfl
@[simp] theorem bump_transit (s : State) (r : Reg) (g : FieldSpec) : (s.bump r g).transit = s.transit := rfl
@[simp] theorem bump_taps (s : State) (r : Reg) (g : FieldSpec) : (s.bump r g).taps = s.taps := rfl
@[simp] theorem bump_trnLogQ (s : State) (r : Reg) (g : FieldSpec) : (s.bump r g).trnLogQ = s.trnLogQ := rfl
@[simp] theorem bump_fabric (s : State) (r : Reg) (g : FieldSpec) : (s.bump r g).fabric = s.fabric := rfl
@[simp] theorem bump_links (s : State) (r : Reg) (g : FieldSpec) : (s.bump r g).links = s.links := rfl
@[simp] theorem bump_beats (s : State) (r : Reg) (g : FieldSpec) : (s.bump r g).beats = s.beats := rfl
@[simp] theorem bump_keepers (s : State) (r : Reg) (g : FieldSpec) : (s.bump r g).keepers = s.keepers := rfl
@[simp] theorem bump_flash (s : State) (r : Reg) (g : FieldSpec) : (s.bump r g).flash = s.flash := rfl
@[simp] theorem bump_pb3 (s : State) (r : Reg) (g : FieldSpec) : (s.bump r g).pb3 = s.pb3 := rfl
@[simp] theorem bump_ownerNew (s : State) (r : Reg) (g : FieldSpec) : (s.bump r g).ownerNew = s.ownerNew := rfl
@[simp] theorem bump_moor (s : State) (r : Reg) (g : FieldSpec) : (s.bump r g).moor = s.moor := rfl
@[simp] theorem bump_plate (s : State) (r : Reg) (g : FieldSpec) : (s.bump r g).plate = s.plate := rfl
@[simp] theorem bump_host (s : State) (r : Reg) (g : FieldSpec) : (s.bump r g).host = s.host := rfl
@[simp] theorem bump_copies (s : State) (r : Reg) (g : FieldSpec) : (s.bump r g).copies = s.copies := rfl
@[simp] theorem bump_badPar (s : State) (r : Reg) (g : FieldSpec) : (s.bump r g).badPar = s.badPar := rfl
@[simp] theorem bump_latches (s : State) (r : Reg) (g : FieldSpec) : (s.bump r g).latches = s.latches := rfl
@[simp] theorem bump_snap (s : State) (r : Reg) (g : FieldSpec) : (s.bump r g).snap = s.snap := rfl
@[simp] theorem bump_power (s : State) (r : Reg) (g : FieldSpec) : (s.bump r g).power = s.power := rfl
@[simp] theorem bump_ledger (s : State) (r : Reg) (g : FieldSpec) : (s.bump r g).ledger = s.ledger := rfl
@[simp] theorem bump_sec (s : State) (r : Reg) (g : FieldSpec) : (s.bump r g).sec = s.sec := rfl
@[simp] theorem bump_domains (s : State) (r : Reg) (g : FieldSpec) : (s.bump r g).domains = s.domains := rfl
@[simp] theorem bump_dieLost (s : State) (r : Reg) (g : FieldSpec) : (s.bump r g).dieLost = s.dieLost := rfl

/-! ### `wr64` -/

@[simp] theorem wr64_pending (s : State) (lo hi : Reg) (v : Nat) : (s.wr64 lo hi v).pending = s.pending := rfl
@[simp] theorem wr64_resp (s : State) (lo hi : Reg) (v : Nat) : (s.wr64 lo hi v).resp = s.resp := rfl
@[simp] theorem wr64_free (s : State) (lo hi : Reg) (v : Nat) : (s.wr64 lo hi v).free = s.free := rfl
@[simp] theorem wr64_clock (s : State) (lo hi : Reg) (v : Nat) : (s.wr64 lo hi v).clock = s.clock := rfl
@[simp] theorem wr64_chans (s : State) (lo hi : Reg) (v : Nat) : (s.wr64 lo hi v).chans = s.chans := rfl
@[simp] theorem wr64_engines (s : State) (lo hi : Reg) (v : Nat) : (s.wr64 lo hi v).engines = s.engines := rfl
@[simp] theorem wr64_shadows (s : State) (lo hi : Reg) (v : Nat) : (s.wr64 lo hi v).shadows = s.shadows := rfl
@[simp] theorem wr64_bias (s : State) (lo hi : Reg) (v : Nat) : (s.wr64 lo hi v).bias = s.bias := rfl
@[simp] theorem wr64_biasBlk (s : State) (lo hi : Reg) (v : Nat) : (s.wr64 lo hi v).biasBlk = s.biasBlk := rfl
@[simp] theorem wr64_looks (s : State) (lo hi : Reg) (v : Nat) : (s.wr64 lo hi v).looks = s.looks := rfl
@[simp] theorem wr64_streams (s : State) (lo hi : Reg) (v : Nat) : (s.wr64 lo hi v).streams = s.streams := rfl
@[simp] theorem wr64_mers (s : State) (lo hi : Reg) (v : Nat) : (s.wr64 lo hi v).mers = s.mers := rfl
@[simp] theorem wr64_transit (s : State) (lo hi : Reg) (v : Nat) : (s.wr64 lo hi v).transit = s.transit := rfl
@[simp] theorem wr64_taps (s : State) (lo hi : Reg) (v : Nat) : (s.wr64 lo hi v).taps = s.taps := rfl
@[simp] theorem wr64_trnLogQ (s : State) (lo hi : Reg) (v : Nat) : (s.wr64 lo hi v).trnLogQ = s.trnLogQ := rfl
@[simp] theorem wr64_fabric (s : State) (lo hi : Reg) (v : Nat) : (s.wr64 lo hi v).fabric = s.fabric := rfl
@[simp] theorem wr64_links (s : State) (lo hi : Reg) (v : Nat) : (s.wr64 lo hi v).links = s.links := rfl
@[simp] theorem wr64_beats (s : State) (lo hi : Reg) (v : Nat) : (s.wr64 lo hi v).beats = s.beats := rfl
@[simp] theorem wr64_keepers (s : State) (lo hi : Reg) (v : Nat) : (s.wr64 lo hi v).keepers = s.keepers := rfl
@[simp] theorem wr64_flash (s : State) (lo hi : Reg) (v : Nat) : (s.wr64 lo hi v).flash = s.flash := rfl
@[simp] theorem wr64_pb3 (s : State) (lo hi : Reg) (v : Nat) : (s.wr64 lo hi v).pb3 = s.pb3 := rfl
@[simp] theorem wr64_ownerNew (s : State) (lo hi : Reg) (v : Nat) : (s.wr64 lo hi v).ownerNew = s.ownerNew := rfl
@[simp] theorem wr64_moor (s : State) (lo hi : Reg) (v : Nat) : (s.wr64 lo hi v).moor = s.moor := rfl
@[simp] theorem wr64_plate (s : State) (lo hi : Reg) (v : Nat) : (s.wr64 lo hi v).plate = s.plate := rfl
@[simp] theorem wr64_host (s : State) (lo hi : Reg) (v : Nat) : (s.wr64 lo hi v).host = s.host := rfl
@[simp] theorem wr64_copies (s : State) (lo hi : Reg) (v : Nat) : (s.wr64 lo hi v).copies = s.copies := rfl
@[simp] theorem wr64_badPar (s : State) (lo hi : Reg) (v : Nat) : (s.wr64 lo hi v).badPar = s.badPar := rfl
@[simp] theorem wr64_latches (s : State) (lo hi : Reg) (v : Nat) : (s.wr64 lo hi v).latches = s.latches := rfl
@[simp] theorem wr64_snap (s : State) (lo hi : Reg) (v : Nat) : (s.wr64 lo hi v).snap = s.snap := rfl
@[simp] theorem wr64_power (s : State) (lo hi : Reg) (v : Nat) : (s.wr64 lo hi v).power = s.power := rfl
@[simp] theorem wr64_ledger (s : State) (lo hi : Reg) (v : Nat) : (s.wr64 lo hi v).ledger = s.ledger := rfl
@[simp] theorem wr64_sec (s : State) (lo hi : Reg) (v : Nat) : (s.wr64 lo hi v).sec = s.sec := rfl
@[simp] theorem wr64_domains (s : State) (lo hi : Reg) (v : Nat) : (s.wr64 lo hi v).domains = s.domains := rfl
@[simp] theorem wr64_dieLost (s : State) (lo hi : Reg) (v : Nat) : (s.wr64 lo hi v).dieLost = s.dieLost := rfl

/-! ### `fresh` -/

@[simp] theorem fresh_pending (s : State) : (s.fresh.2).pending = s.pending := rfl
@[simp] theorem fresh_regs (s : State) : (s.fresh.2).regs = s.regs := rfl
@[simp] theorem fresh_resp (s : State) : (s.fresh.2).resp = s.resp := rfl
@[simp] theorem fresh_clock (s : State) : (s.fresh.2).clock = s.clock := rfl
@[simp] theorem fresh_chans (s : State) : (s.fresh.2).chans = s.chans := rfl
@[simp] theorem fresh_engines (s : State) : (s.fresh.2).engines = s.engines := rfl
@[simp] theorem fresh_shadows (s : State) : (s.fresh.2).shadows = s.shadows := rfl
@[simp] theorem fresh_bias (s : State) : (s.fresh.2).bias = s.bias := rfl
@[simp] theorem fresh_biasBlk (s : State) : (s.fresh.2).biasBlk = s.biasBlk := rfl
@[simp] theorem fresh_looks (s : State) : (s.fresh.2).looks = s.looks := rfl
@[simp] theorem fresh_streams (s : State) : (s.fresh.2).streams = s.streams := rfl
@[simp] theorem fresh_mers (s : State) : (s.fresh.2).mers = s.mers := rfl
@[simp] theorem fresh_transit (s : State) : (s.fresh.2).transit = s.transit := rfl
@[simp] theorem fresh_taps (s : State) : (s.fresh.2).taps = s.taps := rfl
@[simp] theorem fresh_trnLogQ (s : State) : (s.fresh.2).trnLogQ = s.trnLogQ := rfl
@[simp] theorem fresh_fabric (s : State) : (s.fresh.2).fabric = s.fabric := rfl
@[simp] theorem fresh_links (s : State) : (s.fresh.2).links = s.links := rfl
@[simp] theorem fresh_beats (s : State) : (s.fresh.2).beats = s.beats := rfl
@[simp] theorem fresh_keepers (s : State) : (s.fresh.2).keepers = s.keepers := rfl
@[simp] theorem fresh_flash (s : State) : (s.fresh.2).flash = s.flash := rfl
@[simp] theorem fresh_pb3 (s : State) : (s.fresh.2).pb3 = s.pb3 := rfl
@[simp] theorem fresh_ownerNew (s : State) : (s.fresh.2).ownerNew = s.ownerNew := rfl
@[simp] theorem fresh_moor (s : State) : (s.fresh.2).moor = s.moor := rfl
@[simp] theorem fresh_plate (s : State) : (s.fresh.2).plate = s.plate := rfl
@[simp] theorem fresh_host (s : State) : (s.fresh.2).host = s.host := rfl
@[simp] theorem fresh_copies (s : State) : (s.fresh.2).copies = s.copies := rfl
@[simp] theorem fresh_badPar (s : State) : (s.fresh.2).badPar = s.badPar := rfl
@[simp] theorem fresh_latches (s : State) : (s.fresh.2).latches = s.latches := rfl
@[simp] theorem fresh_snap (s : State) : (s.fresh.2).snap = s.snap := rfl
@[simp] theorem fresh_power (s : State) : (s.fresh.2).power = s.power := rfl
@[simp] theorem fresh_ledger (s : State) : (s.fresh.2).ledger = s.ledger := rfl
@[simp] theorem fresh_sec (s : State) : (s.fresh.2).sec = s.sec := rfl
@[simp] theorem fresh_domains (s : State) : (s.fresh.2).domains = s.domains := rfl
@[simp] theorem fresh_dieLost (s : State) : (s.fresh.2).dieLost = s.dieLost := rfl
@[simp] theorem fresh_rd (s : State) (q : Reg) : (s.fresh.2).rd q = s.rd q := rfl
@[simp] theorem fresh_fld (s : State) (q : Reg) (k : FieldSpec) : (s.fresh.2).fld q k = s.fld q k := rfl
@[simp] theorem fresh_isSet (s : State) (q : Reg) (k : FieldSpec) : (s.fresh.2).isSet q k = s.isSet q k := rfl

/-! ### `updChan` -/

@[simp] theorem updChan_pending (s : State) (c : ChanId) (f : Chan → Chan) : (s.updChan c f).pending = s.pending := rfl
@[simp] theorem updChan_regs (s : State) (c : ChanId) (f : Chan → Chan) : (s.updChan c f).regs = s.regs := rfl
@[simp] theorem updChan_resp (s : State) (c : ChanId) (f : Chan → Chan) : (s.updChan c f).resp = s.resp := rfl
@[simp] theorem updChan_free (s : State) (c : ChanId) (f : Chan → Chan) : (s.updChan c f).free = s.free := rfl
@[simp] theorem updChan_clock (s : State) (c : ChanId) (f : Chan → Chan) : (s.updChan c f).clock = s.clock := rfl
@[simp] theorem updChan_engines (s : State) (c : ChanId) (f : Chan → Chan) : (s.updChan c f).engines = s.engines := rfl
@[simp] theorem updChan_shadows (s : State) (c : ChanId) (f : Chan → Chan) : (s.updChan c f).shadows = s.shadows := rfl
@[simp] theorem updChan_bias (s : State) (c : ChanId) (f : Chan → Chan) : (s.updChan c f).bias = s.bias := rfl
@[simp] theorem updChan_biasBlk (s : State) (c : ChanId) (f : Chan → Chan) : (s.updChan c f).biasBlk = s.biasBlk := rfl
@[simp] theorem updChan_looks (s : State) (c : ChanId) (f : Chan → Chan) : (s.updChan c f).looks = s.looks := rfl
@[simp] theorem updChan_streams (s : State) (c : ChanId) (f : Chan → Chan) : (s.updChan c f).streams = s.streams := rfl
@[simp] theorem updChan_mers (s : State) (c : ChanId) (f : Chan → Chan) : (s.updChan c f).mers = s.mers := rfl
@[simp] theorem updChan_transit (s : State) (c : ChanId) (f : Chan → Chan) : (s.updChan c f).transit = s.transit := rfl
@[simp] theorem updChan_taps (s : State) (c : ChanId) (f : Chan → Chan) : (s.updChan c f).taps = s.taps := rfl
@[simp] theorem updChan_trnLogQ (s : State) (c : ChanId) (f : Chan → Chan) : (s.updChan c f).trnLogQ = s.trnLogQ := rfl
@[simp] theorem updChan_fabric (s : State) (c : ChanId) (f : Chan → Chan) : (s.updChan c f).fabric = s.fabric := rfl
@[simp] theorem updChan_links (s : State) (c : ChanId) (f : Chan → Chan) : (s.updChan c f).links = s.links := rfl
@[simp] theorem updChan_beats (s : State) (c : ChanId) (f : Chan → Chan) : (s.updChan c f).beats = s.beats := rfl
@[simp] theorem updChan_keepers (s : State) (c : ChanId) (f : Chan → Chan) : (s.updChan c f).keepers = s.keepers := rfl
@[simp] theorem updChan_flash (s : State) (c : ChanId) (f : Chan → Chan) : (s.updChan c f).flash = s.flash := rfl
@[simp] theorem updChan_pb3 (s : State) (c : ChanId) (f : Chan → Chan) : (s.updChan c f).pb3 = s.pb3 := rfl
@[simp] theorem updChan_ownerNew (s : State) (c : ChanId) (f : Chan → Chan) : (s.updChan c f).ownerNew = s.ownerNew := rfl
@[simp] theorem updChan_moor (s : State) (c : ChanId) (f : Chan → Chan) : (s.updChan c f).moor = s.moor := rfl
@[simp] theorem updChan_plate (s : State) (c : ChanId) (f : Chan → Chan) : (s.updChan c f).plate = s.plate := rfl
@[simp] theorem updChan_host (s : State) (c : ChanId) (f : Chan → Chan) : (s.updChan c f).host = s.host := rfl
@[simp] theorem updChan_copies (s : State) (c : ChanId) (f : Chan → Chan) : (s.updChan c f).copies = s.copies := rfl
@[simp] theorem updChan_badPar (s : State) (c : ChanId) (f : Chan → Chan) : (s.updChan c f).badPar = s.badPar := rfl
@[simp] theorem updChan_latches (s : State) (c : ChanId) (f : Chan → Chan) : (s.updChan c f).latches = s.latches := rfl
@[simp] theorem updChan_snap (s : State) (c : ChanId) (f : Chan → Chan) : (s.updChan c f).snap = s.snap := rfl
@[simp] theorem updChan_power (s : State) (c : ChanId) (f : Chan → Chan) : (s.updChan c f).power = s.power := rfl
@[simp] theorem updChan_ledger (s : State) (c : ChanId) (f : Chan → Chan) : (s.updChan c f).ledger = s.ledger := rfl
@[simp] theorem updChan_sec (s : State) (c : ChanId) (f : Chan → Chan) : (s.updChan c f).sec = s.sec := rfl
@[simp] theorem updChan_domains (s : State) (c : ChanId) (f : Chan → Chan) : (s.updChan c f).domains = s.domains := rfl
@[simp] theorem updChan_dieLost (s : State) (c : ChanId) (f : Chan → Chan) : (s.updChan c f).dieLost = s.dieLost := rfl
@[simp] theorem updChan_rd (s : State) (c : ChanId) (f : Chan → Chan) (q : Reg) : (s.updChan c f).rd q = s.rd q := rfl
@[simp] theorem updChan_fld (s : State) (c : ChanId) (f : Chan → Chan) (q : Reg) (k : FieldSpec) : (s.updChan c f).fld q k = s.fld q k := rfl
@[simp] theorem updChan_isSet (s : State) (c : ChanId) (f : Chan → Chan) (q : Reg) (k : FieldSpec) : (s.updChan c f).isSet q k = s.isSet q k := rfl

/-! ### `updStream` -/

@[simp] theorem updStream_pending (s : State) (c : StreamId) (f : Stream → Stream) : (s.updStream c f).pending = s.pending := rfl
@[simp] theorem updStream_regs (s : State) (c : StreamId) (f : Stream → Stream) : (s.updStream c f).regs = s.regs := rfl
@[simp] theorem updStream_resp (s : State) (c : StreamId) (f : Stream → Stream) : (s.updStream c f).resp = s.resp := rfl
@[simp] theorem updStream_free (s : State) (c : StreamId) (f : Stream → Stream) : (s.updStream c f).free = s.free := rfl
@[simp] theorem updStream_clock (s : State) (c : StreamId) (f : Stream → Stream) : (s.updStream c f).clock = s.clock := rfl
@[simp] theorem updStream_chans (s : State) (c : StreamId) (f : Stream → Stream) : (s.updStream c f).chans = s.chans := rfl
@[simp] theorem updStream_engines (s : State) (c : StreamId) (f : Stream → Stream) : (s.updStream c f).engines = s.engines := rfl
@[simp] theorem updStream_shadows (s : State) (c : StreamId) (f : Stream → Stream) : (s.updStream c f).shadows = s.shadows := rfl
@[simp] theorem updStream_bias (s : State) (c : StreamId) (f : Stream → Stream) : (s.updStream c f).bias = s.bias := rfl
@[simp] theorem updStream_biasBlk (s : State) (c : StreamId) (f : Stream → Stream) : (s.updStream c f).biasBlk = s.biasBlk := rfl
@[simp] theorem updStream_looks (s : State) (c : StreamId) (f : Stream → Stream) : (s.updStream c f).looks = s.looks := rfl
@[simp] theorem updStream_mers (s : State) (c : StreamId) (f : Stream → Stream) : (s.updStream c f).mers = s.mers := rfl
@[simp] theorem updStream_transit (s : State) (c : StreamId) (f : Stream → Stream) : (s.updStream c f).transit = s.transit := rfl
@[simp] theorem updStream_taps (s : State) (c : StreamId) (f : Stream → Stream) : (s.updStream c f).taps = s.taps := rfl
@[simp] theorem updStream_trnLogQ (s : State) (c : StreamId) (f : Stream → Stream) : (s.updStream c f).trnLogQ = s.trnLogQ := rfl
@[simp] theorem updStream_fabric (s : State) (c : StreamId) (f : Stream → Stream) : (s.updStream c f).fabric = s.fabric := rfl
@[simp] theorem updStream_links (s : State) (c : StreamId) (f : Stream → Stream) : (s.updStream c f).links = s.links := rfl
@[simp] theorem updStream_beats (s : State) (c : StreamId) (f : Stream → Stream) : (s.updStream c f).beats = s.beats := rfl
@[simp] theorem updStream_keepers (s : State) (c : StreamId) (f : Stream → Stream) : (s.updStream c f).keepers = s.keepers := rfl
@[simp] theorem updStream_flash (s : State) (c : StreamId) (f : Stream → Stream) : (s.updStream c f).flash = s.flash := rfl
@[simp] theorem updStream_pb3 (s : State) (c : StreamId) (f : Stream → Stream) : (s.updStream c f).pb3 = s.pb3 := rfl
@[simp] theorem updStream_ownerNew (s : State) (c : StreamId) (f : Stream → Stream) : (s.updStream c f).ownerNew = s.ownerNew := rfl
@[simp] theorem updStream_moor (s : State) (c : StreamId) (f : Stream → Stream) : (s.updStream c f).moor = s.moor := rfl
@[simp] theorem updStream_plate (s : State) (c : StreamId) (f : Stream → Stream) : (s.updStream c f).plate = s.plate := rfl
@[simp] theorem updStream_host (s : State) (c : StreamId) (f : Stream → Stream) : (s.updStream c f).host = s.host := rfl
@[simp] theorem updStream_copies (s : State) (c : StreamId) (f : Stream → Stream) : (s.updStream c f).copies = s.copies := rfl
@[simp] theorem updStream_badPar (s : State) (c : StreamId) (f : Stream → Stream) : (s.updStream c f).badPar = s.badPar := rfl
@[simp] theorem updStream_latches (s : State) (c : StreamId) (f : Stream → Stream) : (s.updStream c f).latches = s.latches := rfl
@[simp] theorem updStream_snap (s : State) (c : StreamId) (f : Stream → Stream) : (s.updStream c f).snap = s.snap := rfl
@[simp] theorem updStream_power (s : State) (c : StreamId) (f : Stream → Stream) : (s.updStream c f).power = s.power := rfl
@[simp] theorem updStream_ledger (s : State) (c : StreamId) (f : Stream → Stream) : (s.updStream c f).ledger = s.ledger := rfl
@[simp] theorem updStream_sec (s : State) (c : StreamId) (f : Stream → Stream) : (s.updStream c f).sec = s.sec := rfl
@[simp] theorem updStream_domains (s : State) (c : StreamId) (f : Stream → Stream) : (s.updStream c f).domains = s.domains := rfl
@[simp] theorem updStream_dieLost (s : State) (c : StreamId) (f : Stream → Stream) : (s.updStream c f).dieLost = s.dieLost := rfl
@[simp] theorem updStream_rd (s : State) (c : StreamId) (f : Stream → Stream) (q : Reg) : (s.updStream c f).rd q = s.rd q := rfl
@[simp] theorem updStream_fld (s : State) (c : StreamId) (f : Stream → Stream) (q : Reg) (k : FieldSpec) : (s.updStream c f).fld q k = s.fld q k := rfl
@[simp] theorem updStream_isSet (s : State) (c : StreamId) (f : Stream → Stream) (q : Reg) (k : FieldSpec) : (s.updStream c f).isSet q k = s.isSet q k := rfl

/-! ### `updMer` -/

@[simp] theorem updMer_pending (s : State) (c : MerId) (f : Mer → Mer) : (s.updMer c f).pending = s.pending := rfl
@[simp] theorem updMer_regs (s : State) (c : MerId) (f : Mer → Mer) : (s.updMer c f).regs = s.regs := rfl
@[simp] theorem updMer_resp (s : State) (c : MerId) (f : Mer → Mer) : (s.updMer c f).resp = s.resp := rfl
@[simp] theorem updMer_free (s : State) (c : MerId) (f : Mer → Mer) : (s.updMer c f).free = s.free := rfl
@[simp] theorem updMer_clock (s : State) (c : MerId) (f : Mer → Mer) : (s.updMer c f).clock = s.clock := rfl
@[simp] theorem updMer_chans (s : State) (c : MerId) (f : Mer → Mer) : (s.updMer c f).chans = s.chans := rfl
@[simp] theorem updMer_engines (s : State) (c : MerId) (f : Mer → Mer) : (s.updMer c f).engines = s.engines := rfl
@[simp] theorem updMer_shadows (s : State) (c : MerId) (f : Mer → Mer) : (s.updMer c f).shadows = s.shadows := rfl
@[simp] theorem updMer_bias (s : State) (c : MerId) (f : Mer → Mer) : (s.updMer c f).bias = s.bias := rfl
@[simp] theorem updMer_biasBlk (s : State) (c : MerId) (f : Mer → Mer) : (s.updMer c f).biasBlk = s.biasBlk := rfl
@[simp] theorem updMer_looks (s : State) (c : MerId) (f : Mer → Mer) : (s.updMer c f).looks = s.looks := rfl
@[simp] theorem updMer_streams (s : State) (c : MerId) (f : Mer → Mer) : (s.updMer c f).streams = s.streams := rfl
@[simp] theorem updMer_transit (s : State) (c : MerId) (f : Mer → Mer) : (s.updMer c f).transit = s.transit := rfl
@[simp] theorem updMer_taps (s : State) (c : MerId) (f : Mer → Mer) : (s.updMer c f).taps = s.taps := rfl
@[simp] theorem updMer_trnLogQ (s : State) (c : MerId) (f : Mer → Mer) : (s.updMer c f).trnLogQ = s.trnLogQ := rfl
@[simp] theorem updMer_fabric (s : State) (c : MerId) (f : Mer → Mer) : (s.updMer c f).fabric = s.fabric := rfl
@[simp] theorem updMer_links (s : State) (c : MerId) (f : Mer → Mer) : (s.updMer c f).links = s.links := rfl
@[simp] theorem updMer_beats (s : State) (c : MerId) (f : Mer → Mer) : (s.updMer c f).beats = s.beats := rfl
@[simp] theorem updMer_keepers (s : State) (c : MerId) (f : Mer → Mer) : (s.updMer c f).keepers = s.keepers := rfl
@[simp] theorem updMer_flash (s : State) (c : MerId) (f : Mer → Mer) : (s.updMer c f).flash = s.flash := rfl
@[simp] theorem updMer_pb3 (s : State) (c : MerId) (f : Mer → Mer) : (s.updMer c f).pb3 = s.pb3 := rfl
@[simp] theorem updMer_ownerNew (s : State) (c : MerId) (f : Mer → Mer) : (s.updMer c f).ownerNew = s.ownerNew := rfl
@[simp] theorem updMer_moor (s : State) (c : MerId) (f : Mer → Mer) : (s.updMer c f).moor = s.moor := rfl
@[simp] theorem updMer_plate (s : State) (c : MerId) (f : Mer → Mer) : (s.updMer c f).plate = s.plate := rfl
@[simp] theorem updMer_host (s : State) (c : MerId) (f : Mer → Mer) : (s.updMer c f).host = s.host := rfl
@[simp] theorem updMer_copies (s : State) (c : MerId) (f : Mer → Mer) : (s.updMer c f).copies = s.copies := rfl
@[simp] theorem updMer_badPar (s : State) (c : MerId) (f : Mer → Mer) : (s.updMer c f).badPar = s.badPar := rfl
@[simp] theorem updMer_latches (s : State) (c : MerId) (f : Mer → Mer) : (s.updMer c f).latches = s.latches := rfl
@[simp] theorem updMer_snap (s : State) (c : MerId) (f : Mer → Mer) : (s.updMer c f).snap = s.snap := rfl
@[simp] theorem updMer_power (s : State) (c : MerId) (f : Mer → Mer) : (s.updMer c f).power = s.power := rfl
@[simp] theorem updMer_ledger (s : State) (c : MerId) (f : Mer → Mer) : (s.updMer c f).ledger = s.ledger := rfl
@[simp] theorem updMer_sec (s : State) (c : MerId) (f : Mer → Mer) : (s.updMer c f).sec = s.sec := rfl
@[simp] theorem updMer_domains (s : State) (c : MerId) (f : Mer → Mer) : (s.updMer c f).domains = s.domains := rfl
@[simp] theorem updMer_dieLost (s : State) (c : MerId) (f : Mer → Mer) : (s.updMer c f).dieLost = s.dieLost := rfl
@[simp] theorem updMer_rd (s : State) (c : MerId) (f : Mer → Mer) (q : Reg) : (s.updMer c f).rd q = s.rd q := rfl
@[simp] theorem updMer_fld (s : State) (c : MerId) (f : Mer → Mer) (q : Reg) (k : FieldSpec) : (s.updMer c f).fld q k = s.fld q k := rfl
@[simp] theorem updMer_isSet (s : State) (c : MerId) (f : Mer → Mer) (q : Reg) (k : FieldSpec) : (s.updMer c f).isSet q k = s.isSet q k := rfl

/-! ### `updBias` -/

@[simp] theorem updBias_pending (s : State) (c : BiasId) (f : BiasLine → BiasLine) : (s.updBias c f).pending = s.pending := rfl
@[simp] theorem updBias_regs (s : State) (c : BiasId) (f : BiasLine → BiasLine) : (s.updBias c f).regs = s.regs := rfl
@[simp] theorem updBias_resp (s : State) (c : BiasId) (f : BiasLine → BiasLine) : (s.updBias c f).resp = s.resp := rfl
@[simp] theorem updBias_free (s : State) (c : BiasId) (f : BiasLine → BiasLine) : (s.updBias c f).free = s.free := rfl
@[simp] theorem updBias_clock (s : State) (c : BiasId) (f : BiasLine → BiasLine) : (s.updBias c f).clock = s.clock := rfl
@[simp] theorem updBias_chans (s : State) (c : BiasId) (f : BiasLine → BiasLine) : (s.updBias c f).chans = s.chans := rfl
@[simp] theorem updBias_engines (s : State) (c : BiasId) (f : BiasLine → BiasLine) : (s.updBias c f).engines = s.engines := rfl
@[simp] theorem updBias_shadows (s : State) (c : BiasId) (f : BiasLine → BiasLine) : (s.updBias c f).shadows = s.shadows := rfl
@[simp] theorem updBias_biasBlk (s : State) (c : BiasId) (f : BiasLine → BiasLine) : (s.updBias c f).biasBlk = s.biasBlk := rfl
@[simp] theorem updBias_looks (s : State) (c : BiasId) (f : BiasLine → BiasLine) : (s.updBias c f).looks = s.looks := rfl
@[simp] theorem updBias_streams (s : State) (c : BiasId) (f : BiasLine → BiasLine) : (s.updBias c f).streams = s.streams := rfl
@[simp] theorem updBias_mers (s : State) (c : BiasId) (f : BiasLine → BiasLine) : (s.updBias c f).mers = s.mers := rfl
@[simp] theorem updBias_transit (s : State) (c : BiasId) (f : BiasLine → BiasLine) : (s.updBias c f).transit = s.transit := rfl
@[simp] theorem updBias_taps (s : State) (c : BiasId) (f : BiasLine → BiasLine) : (s.updBias c f).taps = s.taps := rfl
@[simp] theorem updBias_trnLogQ (s : State) (c : BiasId) (f : BiasLine → BiasLine) : (s.updBias c f).trnLogQ = s.trnLogQ := rfl
@[simp] theorem updBias_fabric (s : State) (c : BiasId) (f : BiasLine → BiasLine) : (s.updBias c f).fabric = s.fabric := rfl
@[simp] theorem updBias_links (s : State) (c : BiasId) (f : BiasLine → BiasLine) : (s.updBias c f).links = s.links := rfl
@[simp] theorem updBias_beats (s : State) (c : BiasId) (f : BiasLine → BiasLine) : (s.updBias c f).beats = s.beats := rfl
@[simp] theorem updBias_keepers (s : State) (c : BiasId) (f : BiasLine → BiasLine) : (s.updBias c f).keepers = s.keepers := rfl
@[simp] theorem updBias_flash (s : State) (c : BiasId) (f : BiasLine → BiasLine) : (s.updBias c f).flash = s.flash := rfl
@[simp] theorem updBias_pb3 (s : State) (c : BiasId) (f : BiasLine → BiasLine) : (s.updBias c f).pb3 = s.pb3 := rfl
@[simp] theorem updBias_ownerNew (s : State) (c : BiasId) (f : BiasLine → BiasLine) : (s.updBias c f).ownerNew = s.ownerNew := rfl
@[simp] theorem updBias_moor (s : State) (c : BiasId) (f : BiasLine → BiasLine) : (s.updBias c f).moor = s.moor := rfl
@[simp] theorem updBias_plate (s : State) (c : BiasId) (f : BiasLine → BiasLine) : (s.updBias c f).plate = s.plate := rfl
@[simp] theorem updBias_host (s : State) (c : BiasId) (f : BiasLine → BiasLine) : (s.updBias c f).host = s.host := rfl
@[simp] theorem updBias_copies (s : State) (c : BiasId) (f : BiasLine → BiasLine) : (s.updBias c f).copies = s.copies := rfl
@[simp] theorem updBias_badPar (s : State) (c : BiasId) (f : BiasLine → BiasLine) : (s.updBias c f).badPar = s.badPar := rfl
@[simp] theorem updBias_latches (s : State) (c : BiasId) (f : BiasLine → BiasLine) : (s.updBias c f).latches = s.latches := rfl
@[simp] theorem updBias_snap (s : State) (c : BiasId) (f : BiasLine → BiasLine) : (s.updBias c f).snap = s.snap := rfl
@[simp] theorem updBias_power (s : State) (c : BiasId) (f : BiasLine → BiasLine) : (s.updBias c f).power = s.power := rfl
@[simp] theorem updBias_ledger (s : State) (c : BiasId) (f : BiasLine → BiasLine) : (s.updBias c f).ledger = s.ledger := rfl
@[simp] theorem updBias_sec (s : State) (c : BiasId) (f : BiasLine → BiasLine) : (s.updBias c f).sec = s.sec := rfl
@[simp] theorem updBias_domains (s : State) (c : BiasId) (f : BiasLine → BiasLine) : (s.updBias c f).domains = s.domains := rfl
@[simp] theorem updBias_dieLost (s : State) (c : BiasId) (f : BiasLine → BiasLine) : (s.updBias c f).dieLost = s.dieLost := rfl
@[simp] theorem updBias_rd (s : State) (c : BiasId) (f : BiasLine → BiasLine) (q : Reg) : (s.updBias c f).rd q = s.rd q := rfl
@[simp] theorem updBias_fld (s : State) (c : BiasId) (f : BiasLine → BiasLine) (q : Reg) (k : FieldSpec) : (s.updBias c f).fld q k = s.fld q k := rfl
@[simp] theorem updBias_isSet (s : State) (c : BiasId) (f : BiasLine → BiasLine) (q : Reg) (k : FieldSpec) : (s.updBias c f).isSet q k = s.isSet q k := rfl

/-! ### `updLook` -/

@[simp] theorem updLook_pending (s : State) (c : LampId) (f : Lookout → Lookout) : (s.updLook c f).pending = s.pending := rfl
@[simp] theorem updLook_regs (s : State) (c : LampId) (f : Lookout → Lookout) : (s.updLook c f).regs = s.regs := rfl
@[simp] theorem updLook_resp (s : State) (c : LampId) (f : Lookout → Lookout) : (s.updLook c f).resp = s.resp := rfl
@[simp] theorem updLook_free (s : State) (c : LampId) (f : Lookout → Lookout) : (s.updLook c f).free = s.free := rfl
@[simp] theorem updLook_clock (s : State) (c : LampId) (f : Lookout → Lookout) : (s.updLook c f).clock = s.clock := rfl
@[simp] theorem updLook_chans (s : State) (c : LampId) (f : Lookout → Lookout) : (s.updLook c f).chans = s.chans := rfl
@[simp] theorem updLook_engines (s : State) (c : LampId) (f : Lookout → Lookout) : (s.updLook c f).engines = s.engines := rfl
@[simp] theorem updLook_shadows (s : State) (c : LampId) (f : Lookout → Lookout) : (s.updLook c f).shadows = s.shadows := rfl
@[simp] theorem updLook_bias (s : State) (c : LampId) (f : Lookout → Lookout) : (s.updLook c f).bias = s.bias := rfl
@[simp] theorem updLook_biasBlk (s : State) (c : LampId) (f : Lookout → Lookout) : (s.updLook c f).biasBlk = s.biasBlk := rfl
@[simp] theorem updLook_streams (s : State) (c : LampId) (f : Lookout → Lookout) : (s.updLook c f).streams = s.streams := rfl
@[simp] theorem updLook_mers (s : State) (c : LampId) (f : Lookout → Lookout) : (s.updLook c f).mers = s.mers := rfl
@[simp] theorem updLook_transit (s : State) (c : LampId) (f : Lookout → Lookout) : (s.updLook c f).transit = s.transit := rfl
@[simp] theorem updLook_taps (s : State) (c : LampId) (f : Lookout → Lookout) : (s.updLook c f).taps = s.taps := rfl
@[simp] theorem updLook_trnLogQ (s : State) (c : LampId) (f : Lookout → Lookout) : (s.updLook c f).trnLogQ = s.trnLogQ := rfl
@[simp] theorem updLook_fabric (s : State) (c : LampId) (f : Lookout → Lookout) : (s.updLook c f).fabric = s.fabric := rfl
@[simp] theorem updLook_links (s : State) (c : LampId) (f : Lookout → Lookout) : (s.updLook c f).links = s.links := rfl
@[simp] theorem updLook_beats (s : State) (c : LampId) (f : Lookout → Lookout) : (s.updLook c f).beats = s.beats := rfl
@[simp] theorem updLook_keepers (s : State) (c : LampId) (f : Lookout → Lookout) : (s.updLook c f).keepers = s.keepers := rfl
@[simp] theorem updLook_flash (s : State) (c : LampId) (f : Lookout → Lookout) : (s.updLook c f).flash = s.flash := rfl
@[simp] theorem updLook_pb3 (s : State) (c : LampId) (f : Lookout → Lookout) : (s.updLook c f).pb3 = s.pb3 := rfl
@[simp] theorem updLook_ownerNew (s : State) (c : LampId) (f : Lookout → Lookout) : (s.updLook c f).ownerNew = s.ownerNew := rfl
@[simp] theorem updLook_moor (s : State) (c : LampId) (f : Lookout → Lookout) : (s.updLook c f).moor = s.moor := rfl
@[simp] theorem updLook_plate (s : State) (c : LampId) (f : Lookout → Lookout) : (s.updLook c f).plate = s.plate := rfl
@[simp] theorem updLook_host (s : State) (c : LampId) (f : Lookout → Lookout) : (s.updLook c f).host = s.host := rfl
@[simp] theorem updLook_copies (s : State) (c : LampId) (f : Lookout → Lookout) : (s.updLook c f).copies = s.copies := rfl
@[simp] theorem updLook_badPar (s : State) (c : LampId) (f : Lookout → Lookout) : (s.updLook c f).badPar = s.badPar := rfl
@[simp] theorem updLook_latches (s : State) (c : LampId) (f : Lookout → Lookout) : (s.updLook c f).latches = s.latches := rfl
@[simp] theorem updLook_snap (s : State) (c : LampId) (f : Lookout → Lookout) : (s.updLook c f).snap = s.snap := rfl
@[simp] theorem updLook_power (s : State) (c : LampId) (f : Lookout → Lookout) : (s.updLook c f).power = s.power := rfl
@[simp] theorem updLook_ledger (s : State) (c : LampId) (f : Lookout → Lookout) : (s.updLook c f).ledger = s.ledger := rfl
@[simp] theorem updLook_sec (s : State) (c : LampId) (f : Lookout → Lookout) : (s.updLook c f).sec = s.sec := rfl
@[simp] theorem updLook_domains (s : State) (c : LampId) (f : Lookout → Lookout) : (s.updLook c f).domains = s.domains := rfl
@[simp] theorem updLook_dieLost (s : State) (c : LampId) (f : Lookout → Lookout) : (s.updLook c f).dieLost = s.dieLost := rfl
@[simp] theorem updLook_rd (s : State) (c : LampId) (f : Lookout → Lookout) (q : Reg) : (s.updLook c f).rd q = s.rd q := rfl
@[simp] theorem updLook_fld (s : State) (c : LampId) (f : Lookout → Lookout) (q : Reg) (k : FieldSpec) : (s.updLook c f).fld q k = s.fld q k := rfl
@[simp] theorem updLook_isSet (s : State) (c : LampId) (f : Lookout → Lookout) (q : Reg) (k : FieldSpec) : (s.updLook c f).isSet q k = s.isSet q k := rfl

/-! ### `updClock` -/

@[simp] theorem updClock_pending (s : State) (f : Clock → Clock) : (s.updClock f).pending = s.pending := rfl
@[simp] theorem updClock_regs (s : State) (f : Clock → Clock) : (s.updClock f).regs = s.regs := rfl
@[simp] theorem updClock_resp (s : State) (f : Clock → Clock) : (s.updClock f).resp = s.resp := rfl
@[simp] theorem updClock_free (s : State) (f : Clock → Clock) : (s.updClock f).free = s.free := rfl
@[simp] theorem updClock_chans (s : State) (f : Clock → Clock) : (s.updClock f).chans = s.chans := rfl
@[simp] theorem updClock_engines (s : State) (f : Clock → Clock) : (s.updClock f).engines = s.engines := rfl
@[simp] theorem updClock_shadows (s : State) (f : Clock → Clock) : (s.updClock f).shadows = s.shadows := rfl
@[simp] theorem updClock_bias (s : State) (f : Clock → Clock) : (s.updClock f).bias = s.bias := rfl
@[simp] theorem updClock_biasBlk (s : State) (f : Clock → Clock) : (s.updClock f).biasBlk = s.biasBlk := rfl
@[simp] theorem updClock_looks (s : State) (f : Clock → Clock) : (s.updClock f).looks = s.looks := rfl
@[simp] theorem updClock_streams (s : State) (f : Clock → Clock) : (s.updClock f).streams = s.streams := rfl
@[simp] theorem updClock_mers (s : State) (f : Clock → Clock) : (s.updClock f).mers = s.mers := rfl
@[simp] theorem updClock_transit (s : State) (f : Clock → Clock) : (s.updClock f).transit = s.transit := rfl
@[simp] theorem updClock_taps (s : State) (f : Clock → Clock) : (s.updClock f).taps = s.taps := rfl
@[simp] theorem updClock_trnLogQ (s : State) (f : Clock → Clock) : (s.updClock f).trnLogQ = s.trnLogQ := rfl
@[simp] theorem updClock_fabric (s : State) (f : Clock → Clock) : (s.updClock f).fabric = s.fabric := rfl
@[simp] theorem updClock_links (s : State) (f : Clock → Clock) : (s.updClock f).links = s.links := rfl
@[simp] theorem updClock_beats (s : State) (f : Clock → Clock) : (s.updClock f).beats = s.beats := rfl
@[simp] theorem updClock_keepers (s : State) (f : Clock → Clock) : (s.updClock f).keepers = s.keepers := rfl
@[simp] theorem updClock_flash (s : State) (f : Clock → Clock) : (s.updClock f).flash = s.flash := rfl
@[simp] theorem updClock_pb3 (s : State) (f : Clock → Clock) : (s.updClock f).pb3 = s.pb3 := rfl
@[simp] theorem updClock_ownerNew (s : State) (f : Clock → Clock) : (s.updClock f).ownerNew = s.ownerNew := rfl
@[simp] theorem updClock_moor (s : State) (f : Clock → Clock) : (s.updClock f).moor = s.moor := rfl
@[simp] theorem updClock_plate (s : State) (f : Clock → Clock) : (s.updClock f).plate = s.plate := rfl
@[simp] theorem updClock_host (s : State) (f : Clock → Clock) : (s.updClock f).host = s.host := rfl
@[simp] theorem updClock_copies (s : State) (f : Clock → Clock) : (s.updClock f).copies = s.copies := rfl
@[simp] theorem updClock_badPar (s : State) (f : Clock → Clock) : (s.updClock f).badPar = s.badPar := rfl
@[simp] theorem updClock_latches (s : State) (f : Clock → Clock) : (s.updClock f).latches = s.latches := rfl
@[simp] theorem updClock_snap (s : State) (f : Clock → Clock) : (s.updClock f).snap = s.snap := rfl
@[simp] theorem updClock_power (s : State) (f : Clock → Clock) : (s.updClock f).power = s.power := rfl
@[simp] theorem updClock_ledger (s : State) (f : Clock → Clock) : (s.updClock f).ledger = s.ledger := rfl
@[simp] theorem updClock_sec (s : State) (f : Clock → Clock) : (s.updClock f).sec = s.sec := rfl
@[simp] theorem updClock_domains (s : State) (f : Clock → Clock) : (s.updClock f).domains = s.domains := rfl
@[simp] theorem updClock_dieLost (s : State) (f : Clock → Clock) : (s.updClock f).dieLost = s.dieLost := rfl
@[simp] theorem updClock_rd (s : State) (f : Clock → Clock) (q : Reg) : (s.updClock f).rd q = s.rd q := rfl
@[simp] theorem updClock_fld (s : State) (f : Clock → Clock) (q : Reg) (k : FieldSpec) : (s.updClock f).fld q k = s.fld q k := rfl
@[simp] theorem updClock_isSet (s : State) (f : Clock → Clock) (q : Reg) (k : FieldSpec) : (s.updClock f).isSet q k = s.isSet q k := rfl

/-! ### `updTrn` -/

@[simp] theorem updTrn_pending (s : State) (c : MerId) (f : Transit → Transit) : (s.updTrn c f).pending = s.pending := rfl
@[simp] theorem updTrn_regs (s : State) (c : MerId) (f : Transit → Transit) : (s.updTrn c f).regs = s.regs := rfl
@[simp] theorem updTrn_resp (s : State) (c : MerId) (f : Transit → Transit) : (s.updTrn c f).resp = s.resp := rfl
@[simp] theorem updTrn_free (s : State) (c : MerId) (f : Transit → Transit) : (s.updTrn c f).free = s.free := rfl
@[simp] theorem updTrn_clock (s : State) (c : MerId) (f : Transit → Transit) : (s.updTrn c f).clock = s.clock := rfl
@[simp] theorem updTrn_chans (s : State) (c : MerId) (f : Transit → Transit) : (s.updTrn c f).chans = s.chans := rfl
@[simp] theorem updTrn_engines (s : State) (c : MerId) (f : Transit → Transit) : (s.updTrn c f).engines = s.engines := rfl
@[simp] theorem updTrn_shadows (s : State) (c : MerId) (f : Transit → Transit) : (s.updTrn c f).shadows = s.shadows := rfl
@[simp] theorem updTrn_bias (s : State) (c : MerId) (f : Transit → Transit) : (s.updTrn c f).bias = s.bias := rfl
@[simp] theorem updTrn_biasBlk (s : State) (c : MerId) (f : Transit → Transit) : (s.updTrn c f).biasBlk = s.biasBlk := rfl
@[simp] theorem updTrn_looks (s : State) (c : MerId) (f : Transit → Transit) : (s.updTrn c f).looks = s.looks := rfl
@[simp] theorem updTrn_streams (s : State) (c : MerId) (f : Transit → Transit) : (s.updTrn c f).streams = s.streams := rfl
@[simp] theorem updTrn_mers (s : State) (c : MerId) (f : Transit → Transit) : (s.updTrn c f).mers = s.mers := rfl
@[simp] theorem updTrn_taps (s : State) (c : MerId) (f : Transit → Transit) : (s.updTrn c f).taps = s.taps := rfl
@[simp] theorem updTrn_trnLogQ (s : State) (c : MerId) (f : Transit → Transit) : (s.updTrn c f).trnLogQ = s.trnLogQ := rfl
@[simp] theorem updTrn_fabric (s : State) (c : MerId) (f : Transit → Transit) : (s.updTrn c f).fabric = s.fabric := rfl
@[simp] theorem updTrn_links (s : State) (c : MerId) (f : Transit → Transit) : (s.updTrn c f).links = s.links := rfl
@[simp] theorem updTrn_beats (s : State) (c : MerId) (f : Transit → Transit) : (s.updTrn c f).beats = s.beats := rfl
@[simp] theorem updTrn_keepers (s : State) (c : MerId) (f : Transit → Transit) : (s.updTrn c f).keepers = s.keepers := rfl
@[simp] theorem updTrn_flash (s : State) (c : MerId) (f : Transit → Transit) : (s.updTrn c f).flash = s.flash := rfl
@[simp] theorem updTrn_pb3 (s : State) (c : MerId) (f : Transit → Transit) : (s.updTrn c f).pb3 = s.pb3 := rfl
@[simp] theorem updTrn_ownerNew (s : State) (c : MerId) (f : Transit → Transit) : (s.updTrn c f).ownerNew = s.ownerNew := rfl
@[simp] theorem updTrn_moor (s : State) (c : MerId) (f : Transit → Transit) : (s.updTrn c f).moor = s.moor := rfl
@[simp] theorem updTrn_plate (s : State) (c : MerId) (f : Transit → Transit) : (s.updTrn c f).plate = s.plate := rfl
@[simp] theorem updTrn_host (s : State) (c : MerId) (f : Transit → Transit) : (s.updTrn c f).host = s.host := rfl
@[simp] theorem updTrn_copies (s : State) (c : MerId) (f : Transit → Transit) : (s.updTrn c f).copies = s.copies := rfl
@[simp] theorem updTrn_badPar (s : State) (c : MerId) (f : Transit → Transit) : (s.updTrn c f).badPar = s.badPar := rfl
@[simp] theorem updTrn_latches (s : State) (c : MerId) (f : Transit → Transit) : (s.updTrn c f).latches = s.latches := rfl
@[simp] theorem updTrn_snap (s : State) (c : MerId) (f : Transit → Transit) : (s.updTrn c f).snap = s.snap := rfl
@[simp] theorem updTrn_power (s : State) (c : MerId) (f : Transit → Transit) : (s.updTrn c f).power = s.power := rfl
@[simp] theorem updTrn_ledger (s : State) (c : MerId) (f : Transit → Transit) : (s.updTrn c f).ledger = s.ledger := rfl
@[simp] theorem updTrn_sec (s : State) (c : MerId) (f : Transit → Transit) : (s.updTrn c f).sec = s.sec := rfl
@[simp] theorem updTrn_domains (s : State) (c : MerId) (f : Transit → Transit) : (s.updTrn c f).domains = s.domains := rfl
@[simp] theorem updTrn_dieLost (s : State) (c : MerId) (f : Transit → Transit) : (s.updTrn c f).dieLost = s.dieLost := rfl
@[simp] theorem updTrn_rd (s : State) (c : MerId) (f : Transit → Transit) (q : Reg) : (s.updTrn c f).rd q = s.rd q := rfl
@[simp] theorem updTrn_fld (s : State) (c : MerId) (f : Transit → Transit) (q : Reg) (k : FieldSpec) : (s.updTrn c f).fld q k = s.fld q k := rfl
@[simp] theorem updTrn_isSet (s : State) (c : MerId) (f : Transit → Transit) (q : Reg) (k : FieldSpec) : (s.updTrn c f).isSet q k = s.isSet q k := rfl

/-! ### `updTimer` -/

@[simp] theorem updTimer_pending (s : State) (c : TimerId) (f : Timer → Timer) : (s.updTimer c f).pending = s.pending := rfl
@[simp] theorem updTimer_regs (s : State) (c : TimerId) (f : Timer → Timer) : (s.updTimer c f).regs = s.regs := rfl
@[simp] theorem updTimer_resp (s : State) (c : TimerId) (f : Timer → Timer) : (s.updTimer c f).resp = s.resp := rfl
@[simp] theorem updTimer_free (s : State) (c : TimerId) (f : Timer → Timer) : (s.updTimer c f).free = s.free := rfl
@[simp] theorem updTimer_clock (s : State) (c : TimerId) (f : Timer → Timer) : (s.updTimer c f).clock = s.clock := rfl
@[simp] theorem updTimer_chans (s : State) (c : TimerId) (f : Timer → Timer) : (s.updTimer c f).chans = s.chans := rfl
@[simp] theorem updTimer_engines (s : State) (c : TimerId) (f : Timer → Timer) : (s.updTimer c f).engines = s.engines := rfl
@[simp] theorem updTimer_shadows (s : State) (c : TimerId) (f : Timer → Timer) : (s.updTimer c f).shadows = s.shadows := rfl
@[simp] theorem updTimer_bias (s : State) (c : TimerId) (f : Timer → Timer) : (s.updTimer c f).bias = s.bias := rfl
@[simp] theorem updTimer_biasBlk (s : State) (c : TimerId) (f : Timer → Timer) : (s.updTimer c f).biasBlk = s.biasBlk := rfl
@[simp] theorem updTimer_looks (s : State) (c : TimerId) (f : Timer → Timer) : (s.updTimer c f).looks = s.looks := rfl
@[simp] theorem updTimer_streams (s : State) (c : TimerId) (f : Timer → Timer) : (s.updTimer c f).streams = s.streams := rfl
@[simp] theorem updTimer_mers (s : State) (c : TimerId) (f : Timer → Timer) : (s.updTimer c f).mers = s.mers := rfl
@[simp] theorem updTimer_transit (s : State) (c : TimerId) (f : Timer → Timer) : (s.updTimer c f).transit = s.transit := rfl
@[simp] theorem updTimer_taps (s : State) (c : TimerId) (f : Timer → Timer) : (s.updTimer c f).taps = s.taps := rfl
@[simp] theorem updTimer_trnLogQ (s : State) (c : TimerId) (f : Timer → Timer) : (s.updTimer c f).trnLogQ = s.trnLogQ := rfl
@[simp] theorem updTimer_links (s : State) (c : TimerId) (f : Timer → Timer) : (s.updTimer c f).links = s.links := rfl
@[simp] theorem updTimer_beats (s : State) (c : TimerId) (f : Timer → Timer) : (s.updTimer c f).beats = s.beats := rfl
@[simp] theorem updTimer_keepers (s : State) (c : TimerId) (f : Timer → Timer) : (s.updTimer c f).keepers = s.keepers := rfl
@[simp] theorem updTimer_flash (s : State) (c : TimerId) (f : Timer → Timer) : (s.updTimer c f).flash = s.flash := rfl
@[simp] theorem updTimer_pb3 (s : State) (c : TimerId) (f : Timer → Timer) : (s.updTimer c f).pb3 = s.pb3 := rfl
@[simp] theorem updTimer_ownerNew (s : State) (c : TimerId) (f : Timer → Timer) : (s.updTimer c f).ownerNew = s.ownerNew := rfl
@[simp] theorem updTimer_moor (s : State) (c : TimerId) (f : Timer → Timer) : (s.updTimer c f).moor = s.moor := rfl
@[simp] theorem updTimer_plate (s : State) (c : TimerId) (f : Timer → Timer) : (s.updTimer c f).plate = s.plate := rfl
@[simp] theorem updTimer_host (s : State) (c : TimerId) (f : Timer → Timer) : (s.updTimer c f).host = s.host := rfl
@[simp] theorem updTimer_copies (s : State) (c : TimerId) (f : Timer → Timer) : (s.updTimer c f).copies = s.copies := rfl
@[simp] theorem updTimer_badPar (s : State) (c : TimerId) (f : Timer → Timer) : (s.updTimer c f).badPar = s.badPar := rfl
@[simp] theorem updTimer_latches (s : State) (c : TimerId) (f : Timer → Timer) : (s.updTimer c f).latches = s.latches := rfl
@[simp] theorem updTimer_snap (s : State) (c : TimerId) (f : Timer → Timer) : (s.updTimer c f).snap = s.snap := rfl
@[simp] theorem updTimer_power (s : State) (c : TimerId) (f : Timer → Timer) : (s.updTimer c f).power = s.power := rfl
@[simp] theorem updTimer_ledger (s : State) (c : TimerId) (f : Timer → Timer) : (s.updTimer c f).ledger = s.ledger := rfl
@[simp] theorem updTimer_sec (s : State) (c : TimerId) (f : Timer → Timer) : (s.updTimer c f).sec = s.sec := rfl
@[simp] theorem updTimer_domains (s : State) (c : TimerId) (f : Timer → Timer) : (s.updTimer c f).domains = s.domains := rfl
@[simp] theorem updTimer_dieLost (s : State) (c : TimerId) (f : Timer → Timer) : (s.updTimer c f).dieLost = s.dieLost := rfl
@[simp] theorem updTimer_rd (s : State) (c : TimerId) (f : Timer → Timer) (q : Reg) : (s.updTimer c f).rd q = s.rd q := rfl
@[simp] theorem updTimer_fld (s : State) (c : TimerId) (f : Timer → Timer) (q : Reg) (k : FieldSpec) : (s.updTimer c f).fld q k = s.fld q k := rfl
@[simp] theorem updTimer_isSet (s : State) (c : TimerId) (f : Timer → Timer) (q : Reg) (k : FieldSpec) : (s.updTimer c f).isSet q k = s.isSet q k := rfl

/-! ### `updEvOut` -/

@[simp] theorem updEvOut_pending (s : State) (c : EvOutId) (f : EvOut → EvOut) : (s.updEvOut c f).pending = s.pending := rfl
@[simp] theorem updEvOut_regs (s : State) (c : EvOutId) (f : EvOut → EvOut) : (s.updEvOut c f).regs = s.regs := rfl
@[simp] theorem updEvOut_resp (s : State) (c : EvOutId) (f : EvOut → EvOut) : (s.updEvOut c f).resp = s.resp := rfl
@[simp] theorem updEvOut_free (s : State) (c : EvOutId) (f : EvOut → EvOut) : (s.updEvOut c f).free = s.free := rfl
@[simp] theorem updEvOut_clock (s : State) (c : EvOutId) (f : EvOut → EvOut) : (s.updEvOut c f).clock = s.clock := rfl
@[simp] theorem updEvOut_chans (s : State) (c : EvOutId) (f : EvOut → EvOut) : (s.updEvOut c f).chans = s.chans := rfl
@[simp] theorem updEvOut_engines (s : State) (c : EvOutId) (f : EvOut → EvOut) : (s.updEvOut c f).engines = s.engines := rfl
@[simp] theorem updEvOut_shadows (s : State) (c : EvOutId) (f : EvOut → EvOut) : (s.updEvOut c f).shadows = s.shadows := rfl
@[simp] theorem updEvOut_bias (s : State) (c : EvOutId) (f : EvOut → EvOut) : (s.updEvOut c f).bias = s.bias := rfl
@[simp] theorem updEvOut_biasBlk (s : State) (c : EvOutId) (f : EvOut → EvOut) : (s.updEvOut c f).biasBlk = s.biasBlk := rfl
@[simp] theorem updEvOut_looks (s : State) (c : EvOutId) (f : EvOut → EvOut) : (s.updEvOut c f).looks = s.looks := rfl
@[simp] theorem updEvOut_streams (s : State) (c : EvOutId) (f : EvOut → EvOut) : (s.updEvOut c f).streams = s.streams := rfl
@[simp] theorem updEvOut_mers (s : State) (c : EvOutId) (f : EvOut → EvOut) : (s.updEvOut c f).mers = s.mers := rfl
@[simp] theorem updEvOut_transit (s : State) (c : EvOutId) (f : EvOut → EvOut) : (s.updEvOut c f).transit = s.transit := rfl
@[simp] theorem updEvOut_taps (s : State) (c : EvOutId) (f : EvOut → EvOut) : (s.updEvOut c f).taps = s.taps := rfl
@[simp] theorem updEvOut_trnLogQ (s : State) (c : EvOutId) (f : EvOut → EvOut) : (s.updEvOut c f).trnLogQ = s.trnLogQ := rfl
@[simp] theorem updEvOut_links (s : State) (c : EvOutId) (f : EvOut → EvOut) : (s.updEvOut c f).links = s.links := rfl
@[simp] theorem updEvOut_beats (s : State) (c : EvOutId) (f : EvOut → EvOut) : (s.updEvOut c f).beats = s.beats := rfl
@[simp] theorem updEvOut_keepers (s : State) (c : EvOutId) (f : EvOut → EvOut) : (s.updEvOut c f).keepers = s.keepers := rfl
@[simp] theorem updEvOut_flash (s : State) (c : EvOutId) (f : EvOut → EvOut) : (s.updEvOut c f).flash = s.flash := rfl
@[simp] theorem updEvOut_pb3 (s : State) (c : EvOutId) (f : EvOut → EvOut) : (s.updEvOut c f).pb3 = s.pb3 := rfl
@[simp] theorem updEvOut_ownerNew (s : State) (c : EvOutId) (f : EvOut → EvOut) : (s.updEvOut c f).ownerNew = s.ownerNew := rfl
@[simp] theorem updEvOut_moor (s : State) (c : EvOutId) (f : EvOut → EvOut) : (s.updEvOut c f).moor = s.moor := rfl
@[simp] theorem updEvOut_plate (s : State) (c : EvOutId) (f : EvOut → EvOut) : (s.updEvOut c f).plate = s.plate := rfl
@[simp] theorem updEvOut_host (s : State) (c : EvOutId) (f : EvOut → EvOut) : (s.updEvOut c f).host = s.host := rfl
@[simp] theorem updEvOut_copies (s : State) (c : EvOutId) (f : EvOut → EvOut) : (s.updEvOut c f).copies = s.copies := rfl
@[simp] theorem updEvOut_badPar (s : State) (c : EvOutId) (f : EvOut → EvOut) : (s.updEvOut c f).badPar = s.badPar := rfl
@[simp] theorem updEvOut_latches (s : State) (c : EvOutId) (f : EvOut → EvOut) : (s.updEvOut c f).latches = s.latches := rfl
@[simp] theorem updEvOut_snap (s : State) (c : EvOutId) (f : EvOut → EvOut) : (s.updEvOut c f).snap = s.snap := rfl
@[simp] theorem updEvOut_power (s : State) (c : EvOutId) (f : EvOut → EvOut) : (s.updEvOut c f).power = s.power := rfl
@[simp] theorem updEvOut_ledger (s : State) (c : EvOutId) (f : EvOut → EvOut) : (s.updEvOut c f).ledger = s.ledger := rfl
@[simp] theorem updEvOut_sec (s : State) (c : EvOutId) (f : EvOut → EvOut) : (s.updEvOut c f).sec = s.sec := rfl
@[simp] theorem updEvOut_domains (s : State) (c : EvOutId) (f : EvOut → EvOut) : (s.updEvOut c f).domains = s.domains := rfl
@[simp] theorem updEvOut_dieLost (s : State) (c : EvOutId) (f : EvOut → EvOut) : (s.updEvOut c f).dieLost = s.dieLost := rfl
@[simp] theorem updEvOut_rd (s : State) (c : EvOutId) (f : EvOut → EvOut) (q : Reg) : (s.updEvOut c f).rd q = s.rd q := rfl
@[simp] theorem updEvOut_fld (s : State) (c : EvOutId) (f : EvOut → EvOut) (q : Reg) (k : FieldSpec) : (s.updEvOut c f).fld q k = s.fld q k := rfl
@[simp] theorem updEvOut_isSet (s : State) (c : EvOutId) (f : EvOut → EvOut) (q : Reg) (k : FieldSpec) : (s.updEvOut c f).isSet q k = s.isSet q k := rfl

/-! ### `updLink` -/

@[simp] theorem updLink_pending (s : State) (c : LinkId) (f : Link → Link) : (s.updLink c f).pending = s.pending := rfl
@[simp] theorem updLink_regs (s : State) (c : LinkId) (f : Link → Link) : (s.updLink c f).regs = s.regs := rfl
@[simp] theorem updLink_resp (s : State) (c : LinkId) (f : Link → Link) : (s.updLink c f).resp = s.resp := rfl
@[simp] theorem updLink_free (s : State) (c : LinkId) (f : Link → Link) : (s.updLink c f).free = s.free := rfl
@[simp] theorem updLink_clock (s : State) (c : LinkId) (f : Link → Link) : (s.updLink c f).clock = s.clock := rfl
@[simp] theorem updLink_chans (s : State) (c : LinkId) (f : Link → Link) : (s.updLink c f).chans = s.chans := rfl
@[simp] theorem updLink_engines (s : State) (c : LinkId) (f : Link → Link) : (s.updLink c f).engines = s.engines := rfl
@[simp] theorem updLink_shadows (s : State) (c : LinkId) (f : Link → Link) : (s.updLink c f).shadows = s.shadows := rfl
@[simp] theorem updLink_bias (s : State) (c : LinkId) (f : Link → Link) : (s.updLink c f).bias = s.bias := rfl
@[simp] theorem updLink_biasBlk (s : State) (c : LinkId) (f : Link → Link) : (s.updLink c f).biasBlk = s.biasBlk := rfl
@[simp] theorem updLink_looks (s : State) (c : LinkId) (f : Link → Link) : (s.updLink c f).looks = s.looks := rfl
@[simp] theorem updLink_streams (s : State) (c : LinkId) (f : Link → Link) : (s.updLink c f).streams = s.streams := rfl
@[simp] theorem updLink_mers (s : State) (c : LinkId) (f : Link → Link) : (s.updLink c f).mers = s.mers := rfl
@[simp] theorem updLink_transit (s : State) (c : LinkId) (f : Link → Link) : (s.updLink c f).transit = s.transit := rfl
@[simp] theorem updLink_taps (s : State) (c : LinkId) (f : Link → Link) : (s.updLink c f).taps = s.taps := rfl
@[simp] theorem updLink_trnLogQ (s : State) (c : LinkId) (f : Link → Link) : (s.updLink c f).trnLogQ = s.trnLogQ := rfl
@[simp] theorem updLink_fabric (s : State) (c : LinkId) (f : Link → Link) : (s.updLink c f).fabric = s.fabric := rfl
@[simp] theorem updLink_beats (s : State) (c : LinkId) (f : Link → Link) : (s.updLink c f).beats = s.beats := rfl
@[simp] theorem updLink_keepers (s : State) (c : LinkId) (f : Link → Link) : (s.updLink c f).keepers = s.keepers := rfl
@[simp] theorem updLink_flash (s : State) (c : LinkId) (f : Link → Link) : (s.updLink c f).flash = s.flash := rfl
@[simp] theorem updLink_pb3 (s : State) (c : LinkId) (f : Link → Link) : (s.updLink c f).pb3 = s.pb3 := rfl
@[simp] theorem updLink_ownerNew (s : State) (c : LinkId) (f : Link → Link) : (s.updLink c f).ownerNew = s.ownerNew := rfl
@[simp] theorem updLink_moor (s : State) (c : LinkId) (f : Link → Link) : (s.updLink c f).moor = s.moor := rfl
@[simp] theorem updLink_plate (s : State) (c : LinkId) (f : Link → Link) : (s.updLink c f).plate = s.plate := rfl
@[simp] theorem updLink_host (s : State) (c : LinkId) (f : Link → Link) : (s.updLink c f).host = s.host := rfl
@[simp] theorem updLink_copies (s : State) (c : LinkId) (f : Link → Link) : (s.updLink c f).copies = s.copies := rfl
@[simp] theorem updLink_badPar (s : State) (c : LinkId) (f : Link → Link) : (s.updLink c f).badPar = s.badPar := rfl
@[simp] theorem updLink_latches (s : State) (c : LinkId) (f : Link → Link) : (s.updLink c f).latches = s.latches := rfl
@[simp] theorem updLink_snap (s : State) (c : LinkId) (f : Link → Link) : (s.updLink c f).snap = s.snap := rfl
@[simp] theorem updLink_power (s : State) (c : LinkId) (f : Link → Link) : (s.updLink c f).power = s.power := rfl
@[simp] theorem updLink_ledger (s : State) (c : LinkId) (f : Link → Link) : (s.updLink c f).ledger = s.ledger := rfl
@[simp] theorem updLink_sec (s : State) (c : LinkId) (f : Link → Link) : (s.updLink c f).sec = s.sec := rfl
@[simp] theorem updLink_domains (s : State) (c : LinkId) (f : Link → Link) : (s.updLink c f).domains = s.domains := rfl
@[simp] theorem updLink_dieLost (s : State) (c : LinkId) (f : Link → Link) : (s.updLink c f).dieLost = s.dieLost := rfl
@[simp] theorem updLink_rd (s : State) (c : LinkId) (f : Link → Link) (q : Reg) : (s.updLink c f).rd q = s.rd q := rfl
@[simp] theorem updLink_fld (s : State) (c : LinkId) (f : Link → Link) (q : Reg) (k : FieldSpec) : (s.updLink c f).fld q k = s.fld q k := rfl
@[simp] theorem updLink_isSet (s : State) (c : LinkId) (f : Link → Link) (q : Reg) (k : FieldSpec) : (s.updLink c f).isSet q k = s.isSet q k := rfl

/-! ### `updBeat` -/

@[simp] theorem updBeat_pending (s : State) (c : DomeId) (f : Beat → Beat) : (s.updBeat c f).pending = s.pending := rfl
@[simp] theorem updBeat_regs (s : State) (c : DomeId) (f : Beat → Beat) : (s.updBeat c f).regs = s.regs := rfl
@[simp] theorem updBeat_resp (s : State) (c : DomeId) (f : Beat → Beat) : (s.updBeat c f).resp = s.resp := rfl
@[simp] theorem updBeat_free (s : State) (c : DomeId) (f : Beat → Beat) : (s.updBeat c f).free = s.free := rfl
@[simp] theorem updBeat_clock (s : State) (c : DomeId) (f : Beat → Beat) : (s.updBeat c f).clock = s.clock := rfl
@[simp] theorem updBeat_chans (s : State) (c : DomeId) (f : Beat → Beat) : (s.updBeat c f).chans = s.chans := rfl
@[simp] theorem updBeat_engines (s : State) (c : DomeId) (f : Beat → Beat) : (s.updBeat c f).engines = s.engines := rfl
@[simp] theorem updBeat_shadows (s : State) (c : DomeId) (f : Beat → Beat) : (s.updBeat c f).shadows = s.shadows := rfl
@[simp] theorem updBeat_bias (s : State) (c : DomeId) (f : Beat → Beat) : (s.updBeat c f).bias = s.bias := rfl
@[simp] theorem updBeat_biasBlk (s : State) (c : DomeId) (f : Beat → Beat) : (s.updBeat c f).biasBlk = s.biasBlk := rfl
@[simp] theorem updBeat_looks (s : State) (c : DomeId) (f : Beat → Beat) : (s.updBeat c f).looks = s.looks := rfl
@[simp] theorem updBeat_streams (s : State) (c : DomeId) (f : Beat → Beat) : (s.updBeat c f).streams = s.streams := rfl
@[simp] theorem updBeat_mers (s : State) (c : DomeId) (f : Beat → Beat) : (s.updBeat c f).mers = s.mers := rfl
@[simp] theorem updBeat_transit (s : State) (c : DomeId) (f : Beat → Beat) : (s.updBeat c f).transit = s.transit := rfl
@[simp] theorem updBeat_taps (s : State) (c : DomeId) (f : Beat → Beat) : (s.updBeat c f).taps = s.taps := rfl
@[simp] theorem updBeat_trnLogQ (s : State) (c : DomeId) (f : Beat → Beat) : (s.updBeat c f).trnLogQ = s.trnLogQ := rfl
@[simp] theorem updBeat_fabric (s : State) (c : DomeId) (f : Beat → Beat) : (s.updBeat c f).fabric = s.fabric := rfl
@[simp] theorem updBeat_links (s : State) (c : DomeId) (f : Beat → Beat) : (s.updBeat c f).links = s.links := rfl
@[simp] theorem updBeat_keepers (s : State) (c : DomeId) (f : Beat → Beat) : (s.updBeat c f).keepers = s.keepers := rfl
@[simp] theorem updBeat_flash (s : State) (c : DomeId) (f : Beat → Beat) : (s.updBeat c f).flash = s.flash := rfl
@[simp] theorem updBeat_pb3 (s : State) (c : DomeId) (f : Beat → Beat) : (s.updBeat c f).pb3 = s.pb3 := rfl
@[simp] theorem updBeat_ownerNew (s : State) (c : DomeId) (f : Beat → Beat) : (s.updBeat c f).ownerNew = s.ownerNew := rfl
@[simp] theorem updBeat_moor (s : State) (c : DomeId) (f : Beat → Beat) : (s.updBeat c f).moor = s.moor := rfl
@[simp] theorem updBeat_plate (s : State) (c : DomeId) (f : Beat → Beat) : (s.updBeat c f).plate = s.plate := rfl
@[simp] theorem updBeat_host (s : State) (c : DomeId) (f : Beat → Beat) : (s.updBeat c f).host = s.host := rfl
@[simp] theorem updBeat_copies (s : State) (c : DomeId) (f : Beat → Beat) : (s.updBeat c f).copies = s.copies := rfl
@[simp] theorem updBeat_badPar (s : State) (c : DomeId) (f : Beat → Beat) : (s.updBeat c f).badPar = s.badPar := rfl
@[simp] theorem updBeat_latches (s : State) (c : DomeId) (f : Beat → Beat) : (s.updBeat c f).latches = s.latches := rfl
@[simp] theorem updBeat_snap (s : State) (c : DomeId) (f : Beat → Beat) : (s.updBeat c f).snap = s.snap := rfl
@[simp] theorem updBeat_power (s : State) (c : DomeId) (f : Beat → Beat) : (s.updBeat c f).power = s.power := rfl
@[simp] theorem updBeat_ledger (s : State) (c : DomeId) (f : Beat → Beat) : (s.updBeat c f).ledger = s.ledger := rfl
@[simp] theorem updBeat_sec (s : State) (c : DomeId) (f : Beat → Beat) : (s.updBeat c f).sec = s.sec := rfl
@[simp] theorem updBeat_domains (s : State) (c : DomeId) (f : Beat → Beat) : (s.updBeat c f).domains = s.domains := rfl
@[simp] theorem updBeat_dieLost (s : State) (c : DomeId) (f : Beat → Beat) : (s.updBeat c f).dieLost = s.dieLost := rfl
@[simp] theorem updBeat_rd (s : State) (c : DomeId) (f : Beat → Beat) (q : Reg) : (s.updBeat c f).rd q = s.rd q := rfl
@[simp] theorem updBeat_fld (s : State) (c : DomeId) (f : Beat → Beat) (q : Reg) (k : FieldSpec) : (s.updBeat c f).fld q k = s.fld q k := rfl
@[simp] theorem updBeat_isSet (s : State) (c : DomeId) (f : Beat → Beat) (q : Reg) (k : FieldSpec) : (s.updBeat c f).isSet q k = s.isSet q k := rfl

/-! ### `updKeeper` -/

@[simp] theorem updKeeper_pending (s : State) (c : KeeperId) (f : Keeper → Keeper) : (s.updKeeper c f).pending = s.pending := rfl
@[simp] theorem updKeeper_regs (s : State) (c : KeeperId) (f : Keeper → Keeper) : (s.updKeeper c f).regs = s.regs := rfl
@[simp] theorem updKeeper_resp (s : State) (c : KeeperId) (f : Keeper → Keeper) : (s.updKeeper c f).resp = s.resp := rfl
@[simp] theorem updKeeper_free (s : State) (c : KeeperId) (f : Keeper → Keeper) : (s.updKeeper c f).free = s.free := rfl
@[simp] theorem updKeeper_clock (s : State) (c : KeeperId) (f : Keeper → Keeper) : (s.updKeeper c f).clock = s.clock := rfl
@[simp] theorem updKeeper_chans (s : State) (c : KeeperId) (f : Keeper → Keeper) : (s.updKeeper c f).chans = s.chans := rfl
@[simp] theorem updKeeper_engines (s : State) (c : KeeperId) (f : Keeper → Keeper) : (s.updKeeper c f).engines = s.engines := rfl
@[simp] theorem updKeeper_shadows (s : State) (c : KeeperId) (f : Keeper → Keeper) : (s.updKeeper c f).shadows = s.shadows := rfl
@[simp] theorem updKeeper_bias (s : State) (c : KeeperId) (f : Keeper → Keeper) : (s.updKeeper c f).bias = s.bias := rfl
@[simp] theorem updKeeper_biasBlk (s : State) (c : KeeperId) (f : Keeper → Keeper) : (s.updKeeper c f).biasBlk = s.biasBlk := rfl
@[simp] theorem updKeeper_looks (s : State) (c : KeeperId) (f : Keeper → Keeper) : (s.updKeeper c f).looks = s.looks := rfl
@[simp] theorem updKeeper_streams (s : State) (c : KeeperId) (f : Keeper → Keeper) : (s.updKeeper c f).streams = s.streams := rfl
@[simp] theorem updKeeper_mers (s : State) (c : KeeperId) (f : Keeper → Keeper) : (s.updKeeper c f).mers = s.mers := rfl
@[simp] theorem updKeeper_transit (s : State) (c : KeeperId) (f : Keeper → Keeper) : (s.updKeeper c f).transit = s.transit := rfl
@[simp] theorem updKeeper_taps (s : State) (c : KeeperId) (f : Keeper → Keeper) : (s.updKeeper c f).taps = s.taps := rfl
@[simp] theorem updKeeper_trnLogQ (s : State) (c : KeeperId) (f : Keeper → Keeper) : (s.updKeeper c f).trnLogQ = s.trnLogQ := rfl
@[simp] theorem updKeeper_fabric (s : State) (c : KeeperId) (f : Keeper → Keeper) : (s.updKeeper c f).fabric = s.fabric := rfl
@[simp] theorem updKeeper_links (s : State) (c : KeeperId) (f : Keeper → Keeper) : (s.updKeeper c f).links = s.links := rfl
@[simp] theorem updKeeper_beats (s : State) (c : KeeperId) (f : Keeper → Keeper) : (s.updKeeper c f).beats = s.beats := rfl
@[simp] theorem updKeeper_flash (s : State) (c : KeeperId) (f : Keeper → Keeper) : (s.updKeeper c f).flash = s.flash := rfl
@[simp] theorem updKeeper_pb3 (s : State) (c : KeeperId) (f : Keeper → Keeper) : (s.updKeeper c f).pb3 = s.pb3 := rfl
@[simp] theorem updKeeper_ownerNew (s : State) (c : KeeperId) (f : Keeper → Keeper) : (s.updKeeper c f).ownerNew = s.ownerNew := rfl
@[simp] theorem updKeeper_moor (s : State) (c : KeeperId) (f : Keeper → Keeper) : (s.updKeeper c f).moor = s.moor := rfl
@[simp] theorem updKeeper_plate (s : State) (c : KeeperId) (f : Keeper → Keeper) : (s.updKeeper c f).plate = s.plate := rfl
@[simp] theorem updKeeper_host (s : State) (c : KeeperId) (f : Keeper → Keeper) : (s.updKeeper c f).host = s.host := rfl
@[simp] theorem updKeeper_copies (s : State) (c : KeeperId) (f : Keeper → Keeper) : (s.updKeeper c f).copies = s.copies := rfl
@[simp] theorem updKeeper_badPar (s : State) (c : KeeperId) (f : Keeper → Keeper) : (s.updKeeper c f).badPar = s.badPar := rfl
@[simp] theorem updKeeper_latches (s : State) (c : KeeperId) (f : Keeper → Keeper) : (s.updKeeper c f).latches = s.latches := rfl
@[simp] theorem updKeeper_snap (s : State) (c : KeeperId) (f : Keeper → Keeper) : (s.updKeeper c f).snap = s.snap := rfl
@[simp] theorem updKeeper_power (s : State) (c : KeeperId) (f : Keeper → Keeper) : (s.updKeeper c f).power = s.power := rfl
@[simp] theorem updKeeper_ledger (s : State) (c : KeeperId) (f : Keeper → Keeper) : (s.updKeeper c f).ledger = s.ledger := rfl
@[simp] theorem updKeeper_sec (s : State) (c : KeeperId) (f : Keeper → Keeper) : (s.updKeeper c f).sec = s.sec := rfl
@[simp] theorem updKeeper_domains (s : State) (c : KeeperId) (f : Keeper → Keeper) : (s.updKeeper c f).domains = s.domains := rfl
@[simp] theorem updKeeper_dieLost (s : State) (c : KeeperId) (f : Keeper → Keeper) : (s.updKeeper c f).dieLost = s.dieLost := rfl
@[simp] theorem updKeeper_rd (s : State) (c : KeeperId) (f : Keeper → Keeper) (q : Reg) : (s.updKeeper c f).rd q = s.rd q := rfl
@[simp] theorem updKeeper_fld (s : State) (c : KeeperId) (f : Keeper → Keeper) (q : Reg) (k : FieldSpec) : (s.updKeeper c f).fld q k = s.fld q k := rfl
@[simp] theorem updKeeper_isSet (s : State) (c : KeeperId) (f : Keeper → Keeper) (q : Reg) (k : FieldSpec) : (s.updKeeper c f).isSet q k = s.isSet q k := rfl

/-! ### `updEngine` -/

@[simp] theorem updEngine_pending (s : State) (c : ChanId) (f : ChanEngine → ChanEngine) : (s.updEngine c f).pending = s.pending := rfl
@[simp] theorem updEngine_regs (s : State) (c : ChanId) (f : ChanEngine → ChanEngine) : (s.updEngine c f).regs = s.regs := rfl
@[simp] theorem updEngine_resp (s : State) (c : ChanId) (f : ChanEngine → ChanEngine) : (s.updEngine c f).resp = s.resp := rfl
@[simp] theorem updEngine_free (s : State) (c : ChanId) (f : ChanEngine → ChanEngine) : (s.updEngine c f).free = s.free := rfl
@[simp] theorem updEngine_clock (s : State) (c : ChanId) (f : ChanEngine → ChanEngine) : (s.updEngine c f).clock = s.clock := rfl
@[simp] theorem updEngine_chans (s : State) (c : ChanId) (f : ChanEngine → ChanEngine) : (s.updEngine c f).chans = s.chans := rfl
@[simp] theorem updEngine_shadows (s : State) (c : ChanId) (f : ChanEngine → ChanEngine) : (s.updEngine c f).shadows = s.shadows := rfl
@[simp] theorem updEngine_bias (s : State) (c : ChanId) (f : ChanEngine → ChanEngine) : (s.updEngine c f).bias = s.bias := rfl
@[simp] theorem updEngine_biasBlk (s : State) (c : ChanId) (f : ChanEngine → ChanEngine) : (s.updEngine c f).biasBlk = s.biasBlk := rfl
@[simp] theorem updEngine_looks (s : State) (c : ChanId) (f : ChanEngine → ChanEngine) : (s.updEngine c f).looks = s.looks := rfl
@[simp] theorem updEngine_streams (s : State) (c : ChanId) (f : ChanEngine → ChanEngine) : (s.updEngine c f).streams = s.streams := rfl
@[simp] theorem updEngine_mers (s : State) (c : ChanId) (f : ChanEngine → ChanEngine) : (s.updEngine c f).mers = s.mers := rfl
@[simp] theorem updEngine_transit (s : State) (c : ChanId) (f : ChanEngine → ChanEngine) : (s.updEngine c f).transit = s.transit := rfl
@[simp] theorem updEngine_taps (s : State) (c : ChanId) (f : ChanEngine → ChanEngine) : (s.updEngine c f).taps = s.taps := rfl
@[simp] theorem updEngine_trnLogQ (s : State) (c : ChanId) (f : ChanEngine → ChanEngine) : (s.updEngine c f).trnLogQ = s.trnLogQ := rfl
@[simp] theorem updEngine_fabric (s : State) (c : ChanId) (f : ChanEngine → ChanEngine) : (s.updEngine c f).fabric = s.fabric := rfl
@[simp] theorem updEngine_links (s : State) (c : ChanId) (f : ChanEngine → ChanEngine) : (s.updEngine c f).links = s.links := rfl
@[simp] theorem updEngine_beats (s : State) (c : ChanId) (f : ChanEngine → ChanEngine) : (s.updEngine c f).beats = s.beats := rfl
@[simp] theorem updEngine_keepers (s : State) (c : ChanId) (f : ChanEngine → ChanEngine) : (s.updEngine c f).keepers = s.keepers := rfl
@[simp] theorem updEngine_flash (s : State) (c : ChanId) (f : ChanEngine → ChanEngine) : (s.updEngine c f).flash = s.flash := rfl
@[simp] theorem updEngine_pb3 (s : State) (c : ChanId) (f : ChanEngine → ChanEngine) : (s.updEngine c f).pb3 = s.pb3 := rfl
@[simp] theorem updEngine_ownerNew (s : State) (c : ChanId) (f : ChanEngine → ChanEngine) : (s.updEngine c f).ownerNew = s.ownerNew := rfl
@[simp] theorem updEngine_moor (s : State) (c : ChanId) (f : ChanEngine → ChanEngine) : (s.updEngine c f).moor = s.moor := rfl
@[simp] theorem updEngine_plate (s : State) (c : ChanId) (f : ChanEngine → ChanEngine) : (s.updEngine c f).plate = s.plate := rfl
@[simp] theorem updEngine_host (s : State) (c : ChanId) (f : ChanEngine → ChanEngine) : (s.updEngine c f).host = s.host := rfl
@[simp] theorem updEngine_copies (s : State) (c : ChanId) (f : ChanEngine → ChanEngine) : (s.updEngine c f).copies = s.copies := rfl
@[simp] theorem updEngine_badPar (s : State) (c : ChanId) (f : ChanEngine → ChanEngine) : (s.updEngine c f).badPar = s.badPar := rfl
@[simp] theorem updEngine_latches (s : State) (c : ChanId) (f : ChanEngine → ChanEngine) : (s.updEngine c f).latches = s.latches := rfl
@[simp] theorem updEngine_snap (s : State) (c : ChanId) (f : ChanEngine → ChanEngine) : (s.updEngine c f).snap = s.snap := rfl
@[simp] theorem updEngine_power (s : State) (c : ChanId) (f : ChanEngine → ChanEngine) : (s.updEngine c f).power = s.power := rfl
@[simp] theorem updEngine_ledger (s : State) (c : ChanId) (f : ChanEngine → ChanEngine) : (s.updEngine c f).ledger = s.ledger := rfl
@[simp] theorem updEngine_sec (s : State) (c : ChanId) (f : ChanEngine → ChanEngine) : (s.updEngine c f).sec = s.sec := rfl
@[simp] theorem updEngine_domains (s : State) (c : ChanId) (f : ChanEngine → ChanEngine) : (s.updEngine c f).domains = s.domains := rfl
@[simp] theorem updEngine_dieLost (s : State) (c : ChanId) (f : ChanEngine → ChanEngine) : (s.updEngine c f).dieLost = s.dieLost := rfl
@[simp] theorem updEngine_rd (s : State) (c : ChanId) (f : ChanEngine → ChanEngine) (q : Reg) : (s.updEngine c f).rd q = s.rd q := rfl
@[simp] theorem updEngine_fld (s : State) (c : ChanId) (f : ChanEngine → ChanEngine) (q : Reg) (k : FieldSpec) : (s.updEngine c f).fld q k = s.fld q k := rfl
@[simp] theorem updEngine_isSet (s : State) (c : ChanId) (f : ChanEngine → ChanEngine) (q : Reg) (k : FieldSpec) : (s.updEngine c f).isSet q k = s.isSet q k := rfl

/-! ### `updShadow` -/

@[simp] theorem updShadow_pending (s : State) (c : ChanId) (f : Shadow → Shadow) : (s.updShadow c f).pending = s.pending := rfl
@[simp] theorem updShadow_regs (s : State) (c : ChanId) (f : Shadow → Shadow) : (s.updShadow c f).regs = s.regs := rfl
@[simp] theorem updShadow_resp (s : State) (c : ChanId) (f : Shadow → Shadow) : (s.updShadow c f).resp = s.resp := rfl
@[simp] theorem updShadow_free (s : State) (c : ChanId) (f : Shadow → Shadow) : (s.updShadow c f).free = s.free := rfl
@[simp] theorem updShadow_clock (s : State) (c : ChanId) (f : Shadow → Shadow) : (s.updShadow c f).clock = s.clock := rfl
@[simp] theorem updShadow_chans (s : State) (c : ChanId) (f : Shadow → Shadow) : (s.updShadow c f).chans = s.chans := rfl
@[simp] theorem updShadow_engines (s : State) (c : ChanId) (f : Shadow → Shadow) : (s.updShadow c f).engines = s.engines := rfl
@[simp] theorem updShadow_bias (s : State) (c : ChanId) (f : Shadow → Shadow) : (s.updShadow c f).bias = s.bias := rfl
@[simp] theorem updShadow_biasBlk (s : State) (c : ChanId) (f : Shadow → Shadow) : (s.updShadow c f).biasBlk = s.biasBlk := rfl
@[simp] theorem updShadow_looks (s : State) (c : ChanId) (f : Shadow → Shadow) : (s.updShadow c f).looks = s.looks := rfl
@[simp] theorem updShadow_streams (s : State) (c : ChanId) (f : Shadow → Shadow) : (s.updShadow c f).streams = s.streams := rfl
@[simp] theorem updShadow_mers (s : State) (c : ChanId) (f : Shadow → Shadow) : (s.updShadow c f).mers = s.mers := rfl
@[simp] theorem updShadow_transit (s : State) (c : ChanId) (f : Shadow → Shadow) : (s.updShadow c f).transit = s.transit := rfl
@[simp] theorem updShadow_taps (s : State) (c : ChanId) (f : Shadow → Shadow) : (s.updShadow c f).taps = s.taps := rfl
@[simp] theorem updShadow_trnLogQ (s : State) (c : ChanId) (f : Shadow → Shadow) : (s.updShadow c f).trnLogQ = s.trnLogQ := rfl
@[simp] theorem updShadow_fabric (s : State) (c : ChanId) (f : Shadow → Shadow) : (s.updShadow c f).fabric = s.fabric := rfl
@[simp] theorem updShadow_links (s : State) (c : ChanId) (f : Shadow → Shadow) : (s.updShadow c f).links = s.links := rfl
@[simp] theorem updShadow_beats (s : State) (c : ChanId) (f : Shadow → Shadow) : (s.updShadow c f).beats = s.beats := rfl
@[simp] theorem updShadow_keepers (s : State) (c : ChanId) (f : Shadow → Shadow) : (s.updShadow c f).keepers = s.keepers := rfl
@[simp] theorem updShadow_flash (s : State) (c : ChanId) (f : Shadow → Shadow) : (s.updShadow c f).flash = s.flash := rfl
@[simp] theorem updShadow_pb3 (s : State) (c : ChanId) (f : Shadow → Shadow) : (s.updShadow c f).pb3 = s.pb3 := rfl
@[simp] theorem updShadow_ownerNew (s : State) (c : ChanId) (f : Shadow → Shadow) : (s.updShadow c f).ownerNew = s.ownerNew := rfl
@[simp] theorem updShadow_moor (s : State) (c : ChanId) (f : Shadow → Shadow) : (s.updShadow c f).moor = s.moor := rfl
@[simp] theorem updShadow_plate (s : State) (c : ChanId) (f : Shadow → Shadow) : (s.updShadow c f).plate = s.plate := rfl
@[simp] theorem updShadow_host (s : State) (c : ChanId) (f : Shadow → Shadow) : (s.updShadow c f).host = s.host := rfl
@[simp] theorem updShadow_copies (s : State) (c : ChanId) (f : Shadow → Shadow) : (s.updShadow c f).copies = s.copies := rfl
@[simp] theorem updShadow_badPar (s : State) (c : ChanId) (f : Shadow → Shadow) : (s.updShadow c f).badPar = s.badPar := rfl
@[simp] theorem updShadow_latches (s : State) (c : ChanId) (f : Shadow → Shadow) : (s.updShadow c f).latches = s.latches := rfl
@[simp] theorem updShadow_snap (s : State) (c : ChanId) (f : Shadow → Shadow) : (s.updShadow c f).snap = s.snap := rfl
@[simp] theorem updShadow_power (s : State) (c : ChanId) (f : Shadow → Shadow) : (s.updShadow c f).power = s.power := rfl
@[simp] theorem updShadow_ledger (s : State) (c : ChanId) (f : Shadow → Shadow) : (s.updShadow c f).ledger = s.ledger := rfl
@[simp] theorem updShadow_sec (s : State) (c : ChanId) (f : Shadow → Shadow) : (s.updShadow c f).sec = s.sec := rfl
@[simp] theorem updShadow_domains (s : State) (c : ChanId) (f : Shadow → Shadow) : (s.updShadow c f).domains = s.domains := rfl
@[simp] theorem updShadow_dieLost (s : State) (c : ChanId) (f : Shadow → Shadow) : (s.updShadow c f).dieLost = s.dieLost := rfl
@[simp] theorem updShadow_rd (s : State) (c : ChanId) (f : Shadow → Shadow) (q : Reg) : (s.updShadow c f).rd q = s.rd q := rfl
@[simp] theorem updShadow_fld (s : State) (c : ChanId) (f : Shadow → Shadow) (q : Reg) (k : FieldSpec) : (s.updShadow c f).fld q k = s.fld q k := rfl
@[simp] theorem updShadow_isSet (s : State) (c : ChanId) (f : Shadow → Shadow) (q : Reg) (k : FieldSpec) : (s.updShadow c f).isSet q k = s.isSet q k := rfl

/-! ### `updMoor` -/

@[simp] theorem updMoor_pending (s : State) (c : DomeId) (f : Mooring → Mooring) : (s.updMoor c f).pending = s.pending := rfl
@[simp] theorem updMoor_regs (s : State) (c : DomeId) (f : Mooring → Mooring) : (s.updMoor c f).regs = s.regs := rfl
@[simp] theorem updMoor_resp (s : State) (c : DomeId) (f : Mooring → Mooring) : (s.updMoor c f).resp = s.resp := rfl
@[simp] theorem updMoor_free (s : State) (c : DomeId) (f : Mooring → Mooring) : (s.updMoor c f).free = s.free := rfl
@[simp] theorem updMoor_clock (s : State) (c : DomeId) (f : Mooring → Mooring) : (s.updMoor c f).clock = s.clock := rfl
@[simp] theorem updMoor_chans (s : State) (c : DomeId) (f : Mooring → Mooring) : (s.updMoor c f).chans = s.chans := rfl
@[simp] theorem updMoor_engines (s : State) (c : DomeId) (f : Mooring → Mooring) : (s.updMoor c f).engines = s.engines := rfl
@[simp] theorem updMoor_shadows (s : State) (c : DomeId) (f : Mooring → Mooring) : (s.updMoor c f).shadows = s.shadows := rfl
@[simp] theorem updMoor_bias (s : State) (c : DomeId) (f : Mooring → Mooring) : (s.updMoor c f).bias = s.bias := rfl
@[simp] theorem updMoor_biasBlk (s : State) (c : DomeId) (f : Mooring → Mooring) : (s.updMoor c f).biasBlk = s.biasBlk := rfl
@[simp] theorem updMoor_looks (s : State) (c : DomeId) (f : Mooring → Mooring) : (s.updMoor c f).looks = s.looks := rfl
@[simp] theorem updMoor_streams (s : State) (c : DomeId) (f : Mooring → Mooring) : (s.updMoor c f).streams = s.streams := rfl
@[simp] theorem updMoor_mers (s : State) (c : DomeId) (f : Mooring → Mooring) : (s.updMoor c f).mers = s.mers := rfl
@[simp] theorem updMoor_transit (s : State) (c : DomeId) (f : Mooring → Mooring) : (s.updMoor c f).transit = s.transit := rfl
@[simp] theorem updMoor_taps (s : State) (c : DomeId) (f : Mooring → Mooring) : (s.updMoor c f).taps = s.taps := rfl
@[simp] theorem updMoor_trnLogQ (s : State) (c : DomeId) (f : Mooring → Mooring) : (s.updMoor c f).trnLogQ = s.trnLogQ := rfl
@[simp] theorem updMoor_fabric (s : State) (c : DomeId) (f : Mooring → Mooring) : (s.updMoor c f).fabric = s.fabric := rfl
@[simp] theorem updMoor_links (s : State) (c : DomeId) (f : Mooring → Mooring) : (s.updMoor c f).links = s.links := rfl
@[simp] theorem updMoor_beats (s : State) (c : DomeId) (f : Mooring → Mooring) : (s.updMoor c f).beats = s.beats := rfl
@[simp] theorem updMoor_keepers (s : State) (c : DomeId) (f : Mooring → Mooring) : (s.updMoor c f).keepers = s.keepers := rfl
@[simp] theorem updMoor_flash (s : State) (c : DomeId) (f : Mooring → Mooring) : (s.updMoor c f).flash = s.flash := rfl
@[simp] theorem updMoor_pb3 (s : State) (c : DomeId) (f : Mooring → Mooring) : (s.updMoor c f).pb3 = s.pb3 := rfl
@[simp] theorem updMoor_ownerNew (s : State) (c : DomeId) (f : Mooring → Mooring) : (s.updMoor c f).ownerNew = s.ownerNew := rfl
@[simp] theorem updMoor_plate (s : State) (c : DomeId) (f : Mooring → Mooring) : (s.updMoor c f).plate = s.plate := rfl
@[simp] theorem updMoor_host (s : State) (c : DomeId) (f : Mooring → Mooring) : (s.updMoor c f).host = s.host := rfl
@[simp] theorem updMoor_copies (s : State) (c : DomeId) (f : Mooring → Mooring) : (s.updMoor c f).copies = s.copies := rfl
@[simp] theorem updMoor_badPar (s : State) (c : DomeId) (f : Mooring → Mooring) : (s.updMoor c f).badPar = s.badPar := rfl
@[simp] theorem updMoor_latches (s : State) (c : DomeId) (f : Mooring → Mooring) : (s.updMoor c f).latches = s.latches := rfl
@[simp] theorem updMoor_snap (s : State) (c : DomeId) (f : Mooring → Mooring) : (s.updMoor c f).snap = s.snap := rfl
@[simp] theorem updMoor_power (s : State) (c : DomeId) (f : Mooring → Mooring) : (s.updMoor c f).power = s.power := rfl
@[simp] theorem updMoor_ledger (s : State) (c : DomeId) (f : Mooring → Mooring) : (s.updMoor c f).ledger = s.ledger := rfl
@[simp] theorem updMoor_sec (s : State) (c : DomeId) (f : Mooring → Mooring) : (s.updMoor c f).sec = s.sec := rfl
@[simp] theorem updMoor_domains (s : State) (c : DomeId) (f : Mooring → Mooring) : (s.updMoor c f).domains = s.domains := rfl
@[simp] theorem updMoor_dieLost (s : State) (c : DomeId) (f : Mooring → Mooring) : (s.updMoor c f).dieLost = s.dieLost := rfl
@[simp] theorem updMoor_rd (s : State) (c : DomeId) (f : Mooring → Mooring) (q : Reg) : (s.updMoor c f).rd q = s.rd q := rfl
@[simp] theorem updMoor_fld (s : State) (c : DomeId) (f : Mooring → Mooring) (q : Reg) (k : FieldSpec) : (s.updMoor c f).fld q k = s.fld q k := rfl
@[simp] theorem updMoor_isSet (s : State) (c : DomeId) (f : Mooring → Mooring) (q : Reg) (k : FieldSpec) : (s.updMoor c f).isSet q k = s.isSet q k := rfl

/-! ### `updBank` -/

@[simp] theorem updBank_pending (s : State) (c : DomeId) (b : BankId) (f : Bank → Bank) : (s.updBank c b f).pending = s.pending := rfl
@[simp] theorem updBank_regs (s : State) (c : DomeId) (b : BankId) (f : Bank → Bank) : (s.updBank c b f).regs = s.regs := rfl
@[simp] theorem updBank_resp (s : State) (c : DomeId) (b : BankId) (f : Bank → Bank) : (s.updBank c b f).resp = s.resp := rfl
@[simp] theorem updBank_free (s : State) (c : DomeId) (b : BankId) (f : Bank → Bank) : (s.updBank c b f).free = s.free := rfl
@[simp] theorem updBank_clock (s : State) (c : DomeId) (b : BankId) (f : Bank → Bank) : (s.updBank c b f).clock = s.clock := rfl
@[simp] theorem updBank_chans (s : State) (c : DomeId) (b : BankId) (f : Bank → Bank) : (s.updBank c b f).chans = s.chans := rfl
@[simp] theorem updBank_engines (s : State) (c : DomeId) (b : BankId) (f : Bank → Bank) : (s.updBank c b f).engines = s.engines := rfl
@[simp] theorem updBank_shadows (s : State) (c : DomeId) (b : BankId) (f : Bank → Bank) : (s.updBank c b f).shadows = s.shadows := rfl
@[simp] theorem updBank_bias (s : State) (c : DomeId) (b : BankId) (f : Bank → Bank) : (s.updBank c b f).bias = s.bias := rfl
@[simp] theorem updBank_biasBlk (s : State) (c : DomeId) (b : BankId) (f : Bank → Bank) : (s.updBank c b f).biasBlk = s.biasBlk := rfl
@[simp] theorem updBank_looks (s : State) (c : DomeId) (b : BankId) (f : Bank → Bank) : (s.updBank c b f).looks = s.looks := rfl
@[simp] theorem updBank_streams (s : State) (c : DomeId) (b : BankId) (f : Bank → Bank) : (s.updBank c b f).streams = s.streams := rfl
@[simp] theorem updBank_mers (s : State) (c : DomeId) (b : BankId) (f : Bank → Bank) : (s.updBank c b f).mers = s.mers := rfl
@[simp] theorem updBank_transit (s : State) (c : DomeId) (b : BankId) (f : Bank → Bank) : (s.updBank c b f).transit = s.transit := rfl
@[simp] theorem updBank_taps (s : State) (c : DomeId) (b : BankId) (f : Bank → Bank) : (s.updBank c b f).taps = s.taps := rfl
@[simp] theorem updBank_trnLogQ (s : State) (c : DomeId) (b : BankId) (f : Bank → Bank) : (s.updBank c b f).trnLogQ = s.trnLogQ := rfl
@[simp] theorem updBank_fabric (s : State) (c : DomeId) (b : BankId) (f : Bank → Bank) : (s.updBank c b f).fabric = s.fabric := rfl
@[simp] theorem updBank_links (s : State) (c : DomeId) (b : BankId) (f : Bank → Bank) : (s.updBank c b f).links = s.links := rfl
@[simp] theorem updBank_beats (s : State) (c : DomeId) (b : BankId) (f : Bank → Bank) : (s.updBank c b f).beats = s.beats := rfl
@[simp] theorem updBank_keepers (s : State) (c : DomeId) (b : BankId) (f : Bank → Bank) : (s.updBank c b f).keepers = s.keepers := rfl
@[simp] theorem updBank_flash (s : State) (c : DomeId) (b : BankId) (f : Bank → Bank) : (s.updBank c b f).flash = s.flash := rfl
@[simp] theorem updBank_pb3 (s : State) (c : DomeId) (b : BankId) (f : Bank → Bank) : (s.updBank c b f).pb3 = s.pb3 := rfl
@[simp] theorem updBank_ownerNew (s : State) (c : DomeId) (b : BankId) (f : Bank → Bank) : (s.updBank c b f).ownerNew = s.ownerNew := rfl
@[simp] theorem updBank_moor (s : State) (c : DomeId) (b : BankId) (f : Bank → Bank) : (s.updBank c b f).moor = s.moor := rfl
@[simp] theorem updBank_host (s : State) (c : DomeId) (b : BankId) (f : Bank → Bank) : (s.updBank c b f).host = s.host := rfl
@[simp] theorem updBank_copies (s : State) (c : DomeId) (b : BankId) (f : Bank → Bank) : (s.updBank c b f).copies = s.copies := rfl
@[simp] theorem updBank_badPar (s : State) (c : DomeId) (b : BankId) (f : Bank → Bank) : (s.updBank c b f).badPar = s.badPar := rfl
@[simp] theorem updBank_latches (s : State) (c : DomeId) (b : BankId) (f : Bank → Bank) : (s.updBank c b f).latches = s.latches := rfl
@[simp] theorem updBank_snap (s : State) (c : DomeId) (b : BankId) (f : Bank → Bank) : (s.updBank c b f).snap = s.snap := rfl
@[simp] theorem updBank_power (s : State) (c : DomeId) (b : BankId) (f : Bank → Bank) : (s.updBank c b f).power = s.power := rfl
@[simp] theorem updBank_ledger (s : State) (c : DomeId) (b : BankId) (f : Bank → Bank) : (s.updBank c b f).ledger = s.ledger := rfl
@[simp] theorem updBank_sec (s : State) (c : DomeId) (b : BankId) (f : Bank → Bank) : (s.updBank c b f).sec = s.sec := rfl
@[simp] theorem updBank_domains (s : State) (c : DomeId) (b : BankId) (f : Bank → Bank) : (s.updBank c b f).domains = s.domains := rfl
@[simp] theorem updBank_dieLost (s : State) (c : DomeId) (b : BankId) (f : Bank → Bank) : (s.updBank c b f).dieLost = s.dieLost := rfl
@[simp] theorem updBank_rd (s : State) (c : DomeId) (b : BankId) (f : Bank → Bank) (q : Reg) : (s.updBank c b f).rd q = s.rd q := rfl
@[simp] theorem updBank_fld (s : State) (c : DomeId) (b : BankId) (f : Bank → Bank) (q : Reg) (k : FieldSpec) : (s.updBank c b f).fld q k = s.fld q k := rfl
@[simp] theorem updBank_isSet (s : State) (c : DomeId) (b : BankId) (f : Bank → Bank) (q : Reg) (k : FieldSpec) : (s.updBank c b f).isSet q k = s.isSet q k := rfl

/-! ### `updHost` -/

@[simp] theorem updHost_pending (s : State) (f : HostIf → HostIf) : (s.updHost f).pending = s.pending := rfl
@[simp] theorem updHost_regs (s : State) (f : HostIf → HostIf) : (s.updHost f).regs = s.regs := rfl
@[simp] theorem updHost_resp (s : State) (f : HostIf → HostIf) : (s.updHost f).resp = s.resp := rfl
@[simp] theorem updHost_free (s : State) (f : HostIf → HostIf) : (s.updHost f).free = s.free := rfl
@[simp] theorem updHost_clock (s : State) (f : HostIf → HostIf) : (s.updHost f).clock = s.clock := rfl
@[simp] theorem updHost_chans (s : State) (f : HostIf → HostIf) : (s.updHost f).chans = s.chans := rfl
@[simp] theorem updHost_engines (s : State) (f : HostIf → HostIf) : (s.updHost f).engines = s.engines := rfl
@[simp] theorem updHost_shadows (s : State) (f : HostIf → HostIf) : (s.updHost f).shadows = s.shadows := rfl
@[simp] theorem updHost_bias (s : State) (f : HostIf → HostIf) : (s.updHost f).bias = s.bias := rfl
@[simp] theorem updHost_biasBlk (s : State) (f : HostIf → HostIf) : (s.updHost f).biasBlk = s.biasBlk := rfl
@[simp] theorem updHost_looks (s : State) (f : HostIf → HostIf) : (s.updHost f).looks = s.looks := rfl
@[simp] theorem updHost_streams (s : State) (f : HostIf → HostIf) : (s.updHost f).streams = s.streams := rfl
@[simp] theorem updHost_mers (s : State) (f : HostIf → HostIf) : (s.updHost f).mers = s.mers := rfl
@[simp] theorem updHost_transit (s : State) (f : HostIf → HostIf) : (s.updHost f).transit = s.transit := rfl
@[simp] theorem updHost_taps (s : State) (f : HostIf → HostIf) : (s.updHost f).taps = s.taps := rfl
@[simp] theorem updHost_trnLogQ (s : State) (f : HostIf → HostIf) : (s.updHost f).trnLogQ = s.trnLogQ := rfl
@[simp] theorem updHost_fabric (s : State) (f : HostIf → HostIf) : (s.updHost f).fabric = s.fabric := rfl
@[simp] theorem updHost_links (s : State) (f : HostIf → HostIf) : (s.updHost f).links = s.links := rfl
@[simp] theorem updHost_beats (s : State) (f : HostIf → HostIf) : (s.updHost f).beats = s.beats := rfl
@[simp] theorem updHost_keepers (s : State) (f : HostIf → HostIf) : (s.updHost f).keepers = s.keepers := rfl
@[simp] theorem updHost_flash (s : State) (f : HostIf → HostIf) : (s.updHost f).flash = s.flash := rfl
@[simp] theorem updHost_pb3 (s : State) (f : HostIf → HostIf) : (s.updHost f).pb3 = s.pb3 := rfl
@[simp] theorem updHost_ownerNew (s : State) (f : HostIf → HostIf) : (s.updHost f).ownerNew = s.ownerNew := rfl
@[simp] theorem updHost_moor (s : State) (f : HostIf → HostIf) : (s.updHost f).moor = s.moor := rfl
@[simp] theorem updHost_plate (s : State) (f : HostIf → HostIf) : (s.updHost f).plate = s.plate := rfl
@[simp] theorem updHost_copies (s : State) (f : HostIf → HostIf) : (s.updHost f).copies = s.copies := rfl
@[simp] theorem updHost_badPar (s : State) (f : HostIf → HostIf) : (s.updHost f).badPar = s.badPar := rfl
@[simp] theorem updHost_latches (s : State) (f : HostIf → HostIf) : (s.updHost f).latches = s.latches := rfl
@[simp] theorem updHost_snap (s : State) (f : HostIf → HostIf) : (s.updHost f).snap = s.snap := rfl
@[simp] theorem updHost_power (s : State) (f : HostIf → HostIf) : (s.updHost f).power = s.power := rfl
@[simp] theorem updHost_ledger (s : State) (f : HostIf → HostIf) : (s.updHost f).ledger = s.ledger := rfl
@[simp] theorem updHost_sec (s : State) (f : HostIf → HostIf) : (s.updHost f).sec = s.sec := rfl
@[simp] theorem updHost_domains (s : State) (f : HostIf → HostIf) : (s.updHost f).domains = s.domains := rfl
@[simp] theorem updHost_dieLost (s : State) (f : HostIf → HostIf) : (s.updHost f).dieLost = s.dieLost := rfl
@[simp] theorem updHost_rd (s : State) (f : HostIf → HostIf) (q : Reg) : (s.updHost f).rd q = s.rd q := rfl
@[simp] theorem updHost_fld (s : State) (f : HostIf → HostIf) (q : Reg) (k : FieldSpec) : (s.updHost f).fld q k = s.fld q k := rfl
@[simp] theorem updHost_isSet (s : State) (f : HostIf → HostIf) (q : Reg) (k : FieldSpec) : (s.updHost f).isSet q k = s.isSet q k := rfl

/-! ### `updSnap` -/

@[simp] theorem updSnap_pending (s : State) (f : Snap → Snap) : (s.updSnap f).pending = s.pending := rfl
@[simp] theorem updSnap_regs (s : State) (f : Snap → Snap) : (s.updSnap f).regs = s.regs := rfl
@[simp] theorem updSnap_resp (s : State) (f : Snap → Snap) : (s.updSnap f).resp = s.resp := rfl
@[simp] theorem updSnap_free (s : State) (f : Snap → Snap) : (s.updSnap f).free = s.free := rfl
@[simp] theorem updSnap_clock (s : State) (f : Snap → Snap) : (s.updSnap f).clock = s.clock := rfl
@[simp] theorem updSnap_chans (s : State) (f : Snap → Snap) : (s.updSnap f).chans = s.chans := rfl
@[simp] theorem updSnap_engines (s : State) (f : Snap → Snap) : (s.updSnap f).engines = s.engines := rfl
@[simp] theorem updSnap_shadows (s : State) (f : Snap → Snap) : (s.updSnap f).shadows = s.shadows := rfl
@[simp] theorem updSnap_bias (s : State) (f : Snap → Snap) : (s.updSnap f).bias = s.bias := rfl
@[simp] theorem updSnap_biasBlk (s : State) (f : Snap → Snap) : (s.updSnap f).biasBlk = s.biasBlk := rfl
@[simp] theorem updSnap_looks (s : State) (f : Snap → Snap) : (s.updSnap f).looks = s.looks := rfl
@[simp] theorem updSnap_streams (s : State) (f : Snap → Snap) : (s.updSnap f).streams = s.streams := rfl
@[simp] theorem updSnap_mers (s : State) (f : Snap → Snap) : (s.updSnap f).mers = s.mers := rfl
@[simp] theorem updSnap_transit (s : State) (f : Snap → Snap) : (s.updSnap f).transit = s.transit := rfl
@[simp] theorem updSnap_taps (s : State) (f : Snap → Snap) : (s.updSnap f).taps = s.taps := rfl
@[simp] theorem updSnap_trnLogQ (s : State) (f : Snap → Snap) : (s.updSnap f).trnLogQ = s.trnLogQ := rfl
@[simp] theorem updSnap_fabric (s : State) (f : Snap → Snap) : (s.updSnap f).fabric = s.fabric := rfl
@[simp] theorem updSnap_links (s : State) (f : Snap → Snap) : (s.updSnap f).links = s.links := rfl
@[simp] theorem updSnap_beats (s : State) (f : Snap → Snap) : (s.updSnap f).beats = s.beats := rfl
@[simp] theorem updSnap_keepers (s : State) (f : Snap → Snap) : (s.updSnap f).keepers = s.keepers := rfl
@[simp] theorem updSnap_flash (s : State) (f : Snap → Snap) : (s.updSnap f).flash = s.flash := rfl
@[simp] theorem updSnap_pb3 (s : State) (f : Snap → Snap) : (s.updSnap f).pb3 = s.pb3 := rfl
@[simp] theorem updSnap_ownerNew (s : State) (f : Snap → Snap) : (s.updSnap f).ownerNew = s.ownerNew := rfl
@[simp] theorem updSnap_moor (s : State) (f : Snap → Snap) : (s.updSnap f).moor = s.moor := rfl
@[simp] theorem updSnap_plate (s : State) (f : Snap → Snap) : (s.updSnap f).plate = s.plate := rfl
@[simp] theorem updSnap_host (s : State) (f : Snap → Snap) : (s.updSnap f).host = s.host := rfl
@[simp] theorem updSnap_copies (s : State) (f : Snap → Snap) : (s.updSnap f).copies = s.copies := rfl
@[simp] theorem updSnap_badPar (s : State) (f : Snap → Snap) : (s.updSnap f).badPar = s.badPar := rfl
@[simp] theorem updSnap_latches (s : State) (f : Snap → Snap) : (s.updSnap f).latches = s.latches := rfl
@[simp] theorem updSnap_power (s : State) (f : Snap → Snap) : (s.updSnap f).power = s.power := rfl
@[simp] theorem updSnap_ledger (s : State) (f : Snap → Snap) : (s.updSnap f).ledger = s.ledger := rfl
@[simp] theorem updSnap_sec (s : State) (f : Snap → Snap) : (s.updSnap f).sec = s.sec := rfl
@[simp] theorem updSnap_domains (s : State) (f : Snap → Snap) : (s.updSnap f).domains = s.domains := rfl
@[simp] theorem updSnap_dieLost (s : State) (f : Snap → Snap) : (s.updSnap f).dieLost = s.dieLost := rfl
@[simp] theorem updSnap_rd (s : State) (f : Snap → Snap) (q : Reg) : (s.updSnap f).rd q = s.rd q := rfl
@[simp] theorem updSnap_fld (s : State) (f : Snap → Snap) (q : Reg) (k : FieldSpec) : (s.updSnap f).fld q k = s.fld q k := rfl
@[simp] theorem updSnap_isSet (s : State) (f : Snap → Snap) (q : Reg) (k : FieldSpec) : (s.updSnap f).isSet q k = s.isSet q k := rfl

/-! ### `updPower` -/

@[simp] theorem updPower_pending (s : State) (f : Power → Power) : (s.updPower f).pending = s.pending := rfl
@[simp] theorem updPower_regs (s : State) (f : Power → Power) : (s.updPower f).regs = s.regs := rfl
@[simp] theorem updPower_resp (s : State) (f : Power → Power) : (s.updPower f).resp = s.resp := rfl
@[simp] theorem updPower_free (s : State) (f : Power → Power) : (s.updPower f).free = s.free := rfl
@[simp] theorem updPower_clock (s : State) (f : Power → Power) : (s.updPower f).clock = s.clock := rfl
@[simp] theorem updPower_chans (s : State) (f : Power → Power) : (s.updPower f).chans = s.chans := rfl
@[simp] theorem updPower_engines (s : State) (f : Power → Power) : (s.updPower f).engines = s.engines := rfl
@[simp] theorem updPower_shadows (s : State) (f : Power → Power) : (s.updPower f).shadows = s.shadows := rfl
@[simp] theorem updPower_bias (s : State) (f : Power → Power) : (s.updPower f).bias = s.bias := rfl
@[simp] theorem updPower_biasBlk (s : State) (f : Power → Power) : (s.updPower f).biasBlk = s.biasBlk := rfl
@[simp] theorem updPower_looks (s : State) (f : Power → Power) : (s.updPower f).looks = s.looks := rfl
@[simp] theorem updPower_streams (s : State) (f : Power → Power) : (s.updPower f).streams = s.streams := rfl
@[simp] theorem updPower_mers (s : State) (f : Power → Power) : (s.updPower f).mers = s.mers := rfl
@[simp] theorem updPower_transit (s : State) (f : Power → Power) : (s.updPower f).transit = s.transit := rfl
@[simp] theorem updPower_taps (s : State) (f : Power → Power) : (s.updPower f).taps = s.taps := rfl
@[simp] theorem updPower_trnLogQ (s : State) (f : Power → Power) : (s.updPower f).trnLogQ = s.trnLogQ := rfl
@[simp] theorem updPower_fabric (s : State) (f : Power → Power) : (s.updPower f).fabric = s.fabric := rfl
@[simp] theorem updPower_links (s : State) (f : Power → Power) : (s.updPower f).links = s.links := rfl
@[simp] theorem updPower_beats (s : State) (f : Power → Power) : (s.updPower f).beats = s.beats := rfl
@[simp] theorem updPower_keepers (s : State) (f : Power → Power) : (s.updPower f).keepers = s.keepers := rfl
@[simp] theorem updPower_flash (s : State) (f : Power → Power) : (s.updPower f).flash = s.flash := rfl
@[simp] theorem updPower_pb3 (s : State) (f : Power → Power) : (s.updPower f).pb3 = s.pb3 := rfl
@[simp] theorem updPower_ownerNew (s : State) (f : Power → Power) : (s.updPower f).ownerNew = s.ownerNew := rfl
@[simp] theorem updPower_moor (s : State) (f : Power → Power) : (s.updPower f).moor = s.moor := rfl
@[simp] theorem updPower_plate (s : State) (f : Power → Power) : (s.updPower f).plate = s.plate := rfl
@[simp] theorem updPower_host (s : State) (f : Power → Power) : (s.updPower f).host = s.host := rfl
@[simp] theorem updPower_copies (s : State) (f : Power → Power) : (s.updPower f).copies = s.copies := rfl
@[simp] theorem updPower_badPar (s : State) (f : Power → Power) : (s.updPower f).badPar = s.badPar := rfl
@[simp] theorem updPower_latches (s : State) (f : Power → Power) : (s.updPower f).latches = s.latches := rfl
@[simp] theorem updPower_snap (s : State) (f : Power → Power) : (s.updPower f).snap = s.snap := rfl
@[simp] theorem updPower_ledger (s : State) (f : Power → Power) : (s.updPower f).ledger = s.ledger := rfl
@[simp] theorem updPower_sec (s : State) (f : Power → Power) : (s.updPower f).sec = s.sec := rfl
@[simp] theorem updPower_domains (s : State) (f : Power → Power) : (s.updPower f).domains = s.domains := rfl
@[simp] theorem updPower_dieLost (s : State) (f : Power → Power) : (s.updPower f).dieLost = s.dieLost := rfl
@[simp] theorem updPower_rd (s : State) (f : Power → Power) (q : Reg) : (s.updPower f).rd q = s.rd q := rfl
@[simp] theorem updPower_fld (s : State) (f : Power → Power) (q : Reg) (k : FieldSpec) : (s.updPower f).fld q k = s.fld q k := rfl
@[simp] theorem updPower_isSet (s : State) (f : Power → Power) (q : Reg) (k : FieldSpec) : (s.updPower f).isSet q k = s.isSet q k := rfl

/-! ### `updLedger` -/

@[simp] theorem updLedger_pending (s : State) (f : Ledger → Ledger) : (s.updLedger f).pending = s.pending := rfl
@[simp] theorem updLedger_regs (s : State) (f : Ledger → Ledger) : (s.updLedger f).regs = s.regs := rfl
@[simp] theorem updLedger_resp (s : State) (f : Ledger → Ledger) : (s.updLedger f).resp = s.resp := rfl
@[simp] theorem updLedger_free (s : State) (f : Ledger → Ledger) : (s.updLedger f).free = s.free := rfl
@[simp] theorem updLedger_clock (s : State) (f : Ledger → Ledger) : (s.updLedger f).clock = s.clock := rfl
@[simp] theorem updLedger_chans (s : State) (f : Ledger → Ledger) : (s.updLedger f).chans = s.chans := rfl
@[simp] theorem updLedger_engines (s : State) (f : Ledger → Ledger) : (s.updLedger f).engines = s.engines := rfl
@[simp] theorem updLedger_shadows (s : State) (f : Ledger → Ledger) : (s.updLedger f).shadows = s.shadows := rfl
@[simp] theorem updLedger_bias (s : State) (f : Ledger → Ledger) : (s.updLedger f).bias = s.bias := rfl
@[simp] theorem updLedger_biasBlk (s : State) (f : Ledger → Ledger) : (s.updLedger f).biasBlk = s.biasBlk := rfl
@[simp] theorem updLedger_looks (s : State) (f : Ledger → Ledger) : (s.updLedger f).looks = s.looks := rfl
@[simp] theorem updLedger_streams (s : State) (f : Ledger → Ledger) : (s.updLedger f).streams = s.streams := rfl
@[simp] theorem updLedger_mers (s : State) (f : Ledger → Ledger) : (s.updLedger f).mers = s.mers := rfl
@[simp] theorem updLedger_transit (s : State) (f : Ledger → Ledger) : (s.updLedger f).transit = s.transit := rfl
@[simp] theorem updLedger_taps (s : State) (f : Ledger → Ledger) : (s.updLedger f).taps = s.taps := rfl
@[simp] theorem updLedger_trnLogQ (s : State) (f : Ledger → Ledger) : (s.updLedger f).trnLogQ = s.trnLogQ := rfl
@[simp] theorem updLedger_fabric (s : State) (f : Ledger → Ledger) : (s.updLedger f).fabric = s.fabric := rfl
@[simp] theorem updLedger_links (s : State) (f : Ledger → Ledger) : (s.updLedger f).links = s.links := rfl
@[simp] theorem updLedger_beats (s : State) (f : Ledger → Ledger) : (s.updLedger f).beats = s.beats := rfl
@[simp] theorem updLedger_keepers (s : State) (f : Ledger → Ledger) : (s.updLedger f).keepers = s.keepers := rfl
@[simp] theorem updLedger_flash (s : State) (f : Ledger → Ledger) : (s.updLedger f).flash = s.flash := rfl
@[simp] theorem updLedger_pb3 (s : State) (f : Ledger → Ledger) : (s.updLedger f).pb3 = s.pb3 := rfl
@[simp] theorem updLedger_ownerNew (s : State) (f : Ledger → Ledger) : (s.updLedger f).ownerNew = s.ownerNew := rfl
@[simp] theorem updLedger_moor (s : State) (f : Ledger → Ledger) : (s.updLedger f).moor = s.moor := rfl
@[simp] theorem updLedger_plate (s : State) (f : Ledger → Ledger) : (s.updLedger f).plate = s.plate := rfl
@[simp] theorem updLedger_host (s : State) (f : Ledger → Ledger) : (s.updLedger f).host = s.host := rfl
@[simp] theorem updLedger_copies (s : State) (f : Ledger → Ledger) : (s.updLedger f).copies = s.copies := rfl
@[simp] theorem updLedger_badPar (s : State) (f : Ledger → Ledger) : (s.updLedger f).badPar = s.badPar := rfl
@[simp] theorem updLedger_latches (s : State) (f : Ledger → Ledger) : (s.updLedger f).latches = s.latches := rfl
@[simp] theorem updLedger_snap (s : State) (f : Ledger → Ledger) : (s.updLedger f).snap = s.snap := rfl
@[simp] theorem updLedger_power (s : State) (f : Ledger → Ledger) : (s.updLedger f).power = s.power := rfl
@[simp] theorem updLedger_sec (s : State) (f : Ledger → Ledger) : (s.updLedger f).sec = s.sec := rfl
@[simp] theorem updLedger_domains (s : State) (f : Ledger → Ledger) : (s.updLedger f).domains = s.domains := rfl
@[simp] theorem updLedger_dieLost (s : State) (f : Ledger → Ledger) : (s.updLedger f).dieLost = s.dieLost := rfl
@[simp] theorem updLedger_rd (s : State) (f : Ledger → Ledger) (q : Reg) : (s.updLedger f).rd q = s.rd q := rfl
@[simp] theorem updLedger_fld (s : State) (f : Ledger → Ledger) (q : Reg) (k : FieldSpec) : (s.updLedger f).fld q k = s.fld q k := rfl
@[simp] theorem updLedger_isSet (s : State) (f : Ledger → Ledger) (q : Reg) (k : FieldSpec) : (s.updLedger f).isSet q k = s.isSet q k := rfl

/-! ### `updSec` -/

@[simp] theorem updSec_pending (s : State) (f : Security → Security) : (s.updSec f).pending = s.pending := rfl
@[simp] theorem updSec_regs (s : State) (f : Security → Security) : (s.updSec f).regs = s.regs := rfl
@[simp] theorem updSec_resp (s : State) (f : Security → Security) : (s.updSec f).resp = s.resp := rfl
@[simp] theorem updSec_free (s : State) (f : Security → Security) : (s.updSec f).free = s.free := rfl
@[simp] theorem updSec_clock (s : State) (f : Security → Security) : (s.updSec f).clock = s.clock := rfl
@[simp] theorem updSec_chans (s : State) (f : Security → Security) : (s.updSec f).chans = s.chans := rfl
@[simp] theorem updSec_engines (s : State) (f : Security → Security) : (s.updSec f).engines = s.engines := rfl
@[simp] theorem updSec_shadows (s : State) (f : Security → Security) : (s.updSec f).shadows = s.shadows := rfl
@[simp] theorem updSec_bias (s : State) (f : Security → Security) : (s.updSec f).bias = s.bias := rfl
@[simp] theorem updSec_biasBlk (s : State) (f : Security → Security) : (s.updSec f).biasBlk = s.biasBlk := rfl
@[simp] theorem updSec_looks (s : State) (f : Security → Security) : (s.updSec f).looks = s.looks := rfl
@[simp] theorem updSec_streams (s : State) (f : Security → Security) : (s.updSec f).streams = s.streams := rfl
@[simp] theorem updSec_mers (s : State) (f : Security → Security) : (s.updSec f).mers = s.mers := rfl
@[simp] theorem updSec_transit (s : State) (f : Security → Security) : (s.updSec f).transit = s.transit := rfl
@[simp] theorem updSec_taps (s : State) (f : Security → Security) : (s.updSec f).taps = s.taps := rfl
@[simp] theorem updSec_trnLogQ (s : State) (f : Security → Security) : (s.updSec f).trnLogQ = s.trnLogQ := rfl
@[simp] theorem updSec_fabric (s : State) (f : Security → Security) : (s.updSec f).fabric = s.fabric := rfl
@[simp] theorem updSec_links (s : State) (f : Security → Security) : (s.updSec f).links = s.links := rfl
@[simp] theorem updSec_beats (s : State) (f : Security → Security) : (s.updSec f).beats = s.beats := rfl
@[simp] theorem updSec_keepers (s : State) (f : Security → Security) : (s.updSec f).keepers = s.keepers := rfl
@[simp] theorem updSec_flash (s : State) (f : Security → Security) : (s.updSec f).flash = s.flash := rfl
@[simp] theorem updSec_pb3 (s : State) (f : Security → Security) : (s.updSec f).pb3 = s.pb3 := rfl
@[simp] theorem updSec_ownerNew (s : State) (f : Security → Security) : (s.updSec f).ownerNew = s.ownerNew := rfl
@[simp] theorem updSec_moor (s : State) (f : Security → Security) : (s.updSec f).moor = s.moor := rfl
@[simp] theorem updSec_plate (s : State) (f : Security → Security) : (s.updSec f).plate = s.plate := rfl
@[simp] theorem updSec_host (s : State) (f : Security → Security) : (s.updSec f).host = s.host := rfl
@[simp] theorem updSec_copies (s : State) (f : Security → Security) : (s.updSec f).copies = s.copies := rfl
@[simp] theorem updSec_badPar (s : State) (f : Security → Security) : (s.updSec f).badPar = s.badPar := rfl
@[simp] theorem updSec_latches (s : State) (f : Security → Security) : (s.updSec f).latches = s.latches := rfl
@[simp] theorem updSec_snap (s : State) (f : Security → Security) : (s.updSec f).snap = s.snap := rfl
@[simp] theorem updSec_power (s : State) (f : Security → Security) : (s.updSec f).power = s.power := rfl
@[simp] theorem updSec_ledger (s : State) (f : Security → Security) : (s.updSec f).ledger = s.ledger := rfl
@[simp] theorem updSec_domains (s : State) (f : Security → Security) : (s.updSec f).domains = s.domains := rfl
@[simp] theorem updSec_dieLost (s : State) (f : Security → Security) : (s.updSec f).dieLost = s.dieLost := rfl
@[simp] theorem updSec_rd (s : State) (f : Security → Security) (q : Reg) : (s.updSec f).rd q = s.rd q := rfl
@[simp] theorem updSec_fld (s : State) (f : Security → Security) (q : Reg) (k : FieldSpec) : (s.updSec f).fld q k = s.fld q k := rfl
@[simp] theorem updSec_isSet (s : State) (f : Security → Security) (q : Reg) (k : FieldSpec) : (s.updSec f).isSet q k = s.isSet q k := rfl

/-! ### The part changed, and the others -/

theorem vector_set_fin_same {α : Type} {n : Nat} (v : Vector α n) (i : Fin n) (x : α) : (v.set i x)[i] = x := Vector.getElem_set_self i.isLt
theorem vector_set_fin_ne {α : Type} {n : Nat} (v : Vector α n) {i j : Fin n} (x : α) (h : j ≠ i) : (v.set i x)[j] = v[j] :=
  Vector.getElem_set_ne i.isLt j.isLt (fun e => h (Fin.ext e.symm))

@[simp] theorem updChan_same (s : State) (c : ChanId) (f : Chan → Chan) : (s.updChan c f).chans[c] = f s.chans[c] := vector_set_fin_same _ _ _
@[simp] theorem updChan_ne (s : State) {c d : ChanId} (f : Chan → Chan) (h : d ≠ c) : (s.updChan c f).chans[d] = s.chans[d] := vector_set_fin_ne _ _ h
@[simp] theorem updStream_same (s : State) (c : StreamId) (f : Stream → Stream) : (s.updStream c f).streams[c] = f s.streams[c] := vector_set_fin_same _ _ _
@[simp] theorem updStream_ne (s : State) {c d : StreamId} (f : Stream → Stream) (h : d ≠ c) : (s.updStream c f).streams[d] = s.streams[d] := vector_set_fin_ne _ _ h
@[simp] theorem updMer_same (s : State) (c : MerId) (f : Mer → Mer) : (s.updMer c f).mers[c] = f s.mers[c] := vector_set_fin_same _ _ _
@[simp] theorem updMer_ne (s : State) {c d : MerId} (f : Mer → Mer) (h : d ≠ c) : (s.updMer c f).mers[d] = s.mers[d] := vector_set_fin_ne _ _ h
@[simp] theorem updBias_same (s : State) (c : BiasId) (f : BiasLine → BiasLine) : (s.updBias c f).bias[c] = f s.bias[c] := vector_set_fin_same _ _ _
@[simp] theorem updBias_ne (s : State) {c d : BiasId} (f : BiasLine → BiasLine) (h : d ≠ c) : (s.updBias c f).bias[d] = s.bias[d] := vector_set_fin_ne _ _ h
@[simp] theorem updLook_same (s : State) (c : LampId) (f : Lookout → Lookout) : (s.updLook c f).looks[c] = f s.looks[c] := vector_set_fin_same _ _ _
@[simp] theorem updLook_ne (s : State) {c d : LampId} (f : Lookout → Lookout) (h : d ≠ c) : (s.updLook c f).looks[d] = s.looks[d] := vector_set_fin_ne _ _ h
@[simp] theorem updTrn_same (s : State) (c : MerId) (f : Transit → Transit) : (s.updTrn c f).transit[c] = f s.transit[c] := vector_set_fin_same _ _ _
@[simp] theorem updTrn_ne (s : State) {c d : MerId} (f : Transit → Transit) (h : d ≠ c) : (s.updTrn c f).transit[d] = s.transit[d] := vector_set_fin_ne _ _ h
@[simp] theorem updLink_same (s : State) (c : LinkId) (f : Link → Link) : (s.updLink c f).links[c] = f s.links[c] := vector_set_fin_same _ _ _
@[simp] theorem updLink_ne (s : State) {c d : LinkId} (f : Link → Link) (h : d ≠ c) : (s.updLink c f).links[d] = s.links[d] := vector_set_fin_ne _ _ h
@[simp] theorem updBeat_same (s : State) (c : DomeId) (f : Beat → Beat) : (s.updBeat c f).beats[c] = f s.beats[c] := vector_set_fin_same _ _ _
@[simp] theorem updBeat_ne (s : State) {c d : DomeId} (f : Beat → Beat) (h : d ≠ c) : (s.updBeat c f).beats[d] = s.beats[d] := vector_set_fin_ne _ _ h
@[simp] theorem updKeeper_same (s : State) (c : KeeperId) (f : Keeper → Keeper) : (s.updKeeper c f).keepers[c] = f s.keepers[c] := vector_set_fin_same _ _ _
@[simp] theorem updKeeper_ne (s : State) {c d : KeeperId} (f : Keeper → Keeper) (h : d ≠ c) : (s.updKeeper c f).keepers[d] = s.keepers[d] := vector_set_fin_ne _ _ h
@[simp] theorem updEngine_same (s : State) (c : ChanId) (f : ChanEngine → ChanEngine) : (s.updEngine c f).engines[c] = f s.engines[c] := vector_set_fin_same _ _ _
@[simp] theorem updEngine_ne (s : State) {c d : ChanId} (f : ChanEngine → ChanEngine) (h : d ≠ c) : (s.updEngine c f).engines[d] = s.engines[d] := vector_set_fin_ne _ _ h
@[simp] theorem updShadow_same (s : State) (c : ChanId) (f : Shadow → Shadow) : (s.updShadow c f).shadows[c] = f s.shadows[c] := vector_set_fin_same _ _ _
@[simp] theorem updShadow_ne (s : State) {c d : ChanId} (f : Shadow → Shadow) (h : d ≠ c) : (s.updShadow c f).shadows[d] = s.shadows[d] := vector_set_fin_ne _ _ h
@[simp] theorem updMoor_same (s : State) (c : DomeId) (f : Mooring → Mooring) : (s.updMoor c f).moor[c] = f s.moor[c] := vector_set_fin_same _ _ _
@[simp] theorem updMoor_ne (s : State) {c d : DomeId} (f : Mooring → Mooring) (h : d ≠ c) : (s.updMoor c f).moor[d] = s.moor[d] := vector_set_fin_ne _ _ h
@[simp] theorem updClock_clock (s : State) (f : Clock → Clock) : (s.updClock f).clock = f s.clock := rfl
@[simp] theorem updHost_host (s : State) (f : HostIf → HostIf) : (s.updHost f).host = f s.host := rfl
@[simp] theorem updSnap_snap (s : State) (f : Snap → Snap) : (s.updSnap f).snap = f s.snap := rfl
@[simp] theorem updPower_power (s : State) (f : Power → Power) : (s.updPower f).power = f s.power := rfl
@[simp] theorem updLedger_ledger (s : State) (f : Ledger → Ledger) : (s.updLedger f).ledger = f s.ledger := rfl
@[simp] theorem updSec_sec (s : State) (f : Security → Security) : (s.updSec f).sec = f s.sec := rfl
@[simp] theorem fresh_free (s : State) : s.fresh.2.free = s.free + 1 := rfl

/-! ### Time, guarded commands -/

/-- Reaching a time changes the clock alone: no granule count falls. -/
theorem reachTime_spec (s : State) (t : Nat) : ∃ g : Vector Nat 4, s.reachTime t = s.updClock (fun x => { x with now := max x.now t, gran := g }) ∧ ∀ n : LampId, s.gran n ≤ g[n] := by
  unfold State.reachTime
  split
  · next h => exact ⟨s.clock.gran, by simp [State.updClock, Nat.max_eq_left h], fun n => Nat.le_refl _⟩
  · next h =>
    refine ⟨s.gransAt t, by simp only [State.updClock, Nat.max_eq_right (Nat.le_of_not_le h)], fun n => ?_⟩
    simp only [State.gransAt, State.gran, Fin.getElem_fin, Vector.getElem_ofFn]
    split
    · exact Nat.le_max_left _ _
    · exact Nat.le_refl _
theorem reachTime_now (s : State) (t : Nat) : (s.reachTime t).clock.now = max s.clock.now t := by obtain ⟨g, h, _⟩ := reachTime_spec s t; rw [h]; rfl
/-- Reaching an edge brings the count of its Lamp there. -/
theorem reachGran_reaches (s : State) (n : LampId) (g : Nat) : g ≤ (s.reachGran n g).gran n := by
  unfold State.reachGran
  split
  · assumption
  · show g ≤ _
    simp only [State.gran]
    rw [vector_set_fin_same]
    exact Nat.le_max_left _ _

@[simp] theorem reachTime_pending (s : State) (t : Nat) : (s.reachTime t).pending = s.pending := by unfold State.reachTime; split <;> rfl
@[simp] theorem reachTime_regs (s : State) (t : Nat) : (s.reachTime t).regs = s.regs := by unfold State.reachTime; split <;> rfl
@[simp] theorem reachTime_resp (s : State) (t : Nat) : (s.reachTime t).resp = s.resp := by unfold State.reachTime; split <;> rfl
@[simp] theorem reachTime_free (s : State) (t : Nat) : (s.reachTime t).free = s.free := by unfold State.reachTime; split <;> rfl
@[simp] theorem reachTime_chans (s : State) (t : Nat) : (s.reachTime t).chans = s.chans := by unfold State.reachTime; split <;> rfl
@[simp] theorem reachTime_engines (s : State) (t : Nat) : (s.reachTime t).engines = s.engines := by unfold State.reachTime; split <;> rfl
@[simp] theorem reachTime_shadows (s : State) (t : Nat) : (s.reachTime t).shadows = s.shadows := by unfold State.reachTime; split <;> rfl
@[simp] theorem reachTime_bias (s : State) (t : Nat) : (s.reachTime t).bias = s.bias := by unfold State.reachTime; split <;> rfl
@[simp] theorem reachTime_biasBlk (s : State) (t : Nat) : (s.reachTime t).biasBlk = s.biasBlk := by unfold State.reachTime; split <;> rfl
@[simp] theorem reachTime_looks (s : State) (t : Nat) : (s.reachTime t).looks = s.looks := by unfold State.reachTime; split <;> rfl
@[simp] theorem reachTime_streams (s : State) (t : Nat) : (s.reachTime t).streams = s.streams := by unfold State.reachTime; split <;> rfl
@[simp] theorem reachTime_mers (s : State) (t : Nat) : (s.reachTime t).mers = s.mers := by unfold State.reachTime; split <;> rfl
@[simp] theorem reachTime_transit (s : State) (t : Nat) : (s.reachTime t).transit = s.transit := by unfold State.reachTime; split <;> rfl
@[simp] theorem reachTime_taps (s : State) (t : Nat) : (s.reachTime t).taps = s.taps := by unfold State.reachTime; split <;> rfl
@[simp] theorem reachTime_trnLogQ (s : State) (t : Nat) : (s.reachTime t).trnLogQ = s.trnLogQ := by unfold State.reachTime; split <;> rfl
@[simp] theorem reachTime_fabric (s : State) (t : Nat) : (s.reachTime t).fabric = s.fabric := by unfold State.reachTime; split <;> rfl
@[simp] theorem reachTime_links (s : State) (t : Nat) : (s.reachTime t).links = s.links := by unfold State.reachTime; split <;> rfl
@[simp] theorem reachTime_beats (s : State) (t : Nat) : (s.reachTime t).beats = s.beats := by unfold State.reachTime; split <;> rfl
@[simp] theorem reachTime_keepers (s : State) (t : Nat) : (s.reachTime t).keepers = s.keepers := by unfold State.reachTime; split <;> rfl
@[simp] theorem reachTime_flash (s : State) (t : Nat) : (s.reachTime t).flash = s.flash := by unfold State.reachTime; split <;> rfl
@[simp] theorem reachTime_pb3 (s : State) (t : Nat) : (s.reachTime t).pb3 = s.pb3 := by unfold State.reachTime; split <;> rfl
@[simp] theorem reachTime_ownerNew (s : State) (t : Nat) : (s.reachTime t).ownerNew = s.ownerNew := by unfold State.reachTime; split <;> rfl
@[simp] theorem reachTime_moor (s : State) (t : Nat) : (s.reachTime t).moor = s.moor := by unfold State.reachTime; split <;> rfl
@[simp] theorem reachTime_plate (s : State) (t : Nat) : (s.reachTime t).plate = s.plate := by unfold State.reachTime; split <;> rfl
@[simp] theorem reachTime_host (s : State) (t : Nat) : (s.reachTime t).host = s.host := by unfold State.reachTime; split <;> rfl
@[simp] theorem reachTime_copies (s : State) (t : Nat) : (s.reachTime t).copies = s.copies := by unfold State.reachTime; split <;> rfl
@[simp] theorem reachTime_badPar (s : State) (t : Nat) : (s.reachTime t).badPar = s.badPar := by unfold State.reachTime; split <;> rfl
@[simp] theorem reachTime_latches (s : State) (t : Nat) : (s.reachTime t).latches = s.latches := by unfold State.reachTime; split <;> rfl
@[simp] theorem reachTime_snap (s : State) (t : Nat) : (s.reachTime t).snap = s.snap := by unfold State.reachTime; split <;> rfl
@[simp] theorem reachTime_power (s : State) (t : Nat) : (s.reachTime t).power = s.power := by unfold State.reachTime; split <;> rfl
@[simp] theorem reachTime_ledger (s : State) (t : Nat) : (s.reachTime t).ledger = s.ledger := by unfold State.reachTime; split <;> rfl
@[simp] theorem reachTime_sec (s : State) (t : Nat) : (s.reachTime t).sec = s.sec := by unfold State.reachTime; split <;> rfl
@[simp] theorem reachTime_domains (s : State) (t : Nat) : (s.reachTime t).domains = s.domains := by unfold State.reachTime; split <;> rfl
@[simp] theorem reachTime_dieLost (s : State) (t : Nat) : (s.reachTime t).dieLost = s.dieLost := by unfold State.reachTime; split <;> rfl
@[simp] theorem reachTime_rd (s : State) (t : Nat) (q : Reg) : (s.reachTime t).rd q = s.rd q := by simp [State.rd]
@[simp] theorem reachTime_fld (s : State) (t : Nat) (q : Reg) (k : FieldSpec) : (s.reachTime t).fld q k = s.fld q k := by simp [fld_eq]
@[simp] theorem reachGran_pending (s : State) (m : LampId) (t : Nat) : (s.reachGran m t).pending = s.pending := by unfold State.reachGran; split <;> rfl
@[simp] theorem reachGran_regs (s : State) (m : LampId) (t : Nat) : (s.reachGran m t).regs = s.regs := by unfold State.reachGran; split <;> rfl
@[simp] theorem reachGran_resp (s : State) (m : LampId) (t : Nat) : (s.reachGran m t).resp = s.resp := by unfold State.reachGran; split <;> rfl
@[simp] theorem reachGran_free (s : State) (m : LampId) (t : Nat) : (s.reachGran m t).free = s.free := by unfold State.reachGran; split <;> rfl
@[simp] theorem reachGran_chans (s : State) (m : LampId) (t : Nat) : (s.reachGran m t).chans = s.chans := by unfold State.reachGran; split <;> rfl
@[simp] theorem reachGran_engines (s : State) (m : LampId) (t : Nat) : (s.reachGran m t).engines = s.engines := by unfold State.reachGran; split <;> rfl
@[simp] theorem reachGran_shadows (s : State) (m : LampId) (t : Nat) : (s.reachGran m t).shadows = s.shadows := by unfold State.reachGran; split <;> rfl
@[simp] theorem reachGran_bias (s : State) (m : LampId) (t : Nat) : (s.reachGran m t).bias = s.bias := by unfold State.reachGran; split <;> rfl
@[simp] theorem reachGran_biasBlk (s : State) (m : LampId) (t : Nat) : (s.reachGran m t).biasBlk = s.biasBlk := by unfold State.reachGran; split <;> rfl
@[simp] theorem reachGran_looks (s : State) (m : LampId) (t : Nat) : (s.reachGran m t).looks = s.looks := by unfold State.reachGran; split <;> rfl
@[simp] theorem reachGran_streams (s : State) (m : LampId) (t : Nat) : (s.reachGran m t).streams = s.streams := by unfold State.reachGran; split <;> rfl
@[simp] theorem reachGran_mers (s : State) (m : LampId) (t : Nat) : (s.reachGran m t).mers = s.mers := by unfold State.reachGran; split <;> rfl
@[simp] theorem reachGran_transit (s : State) (m : LampId) (t : Nat) : (s.reachGran m t).transit = s.transit := by unfold State.reachGran; split <;> rfl
@[simp] theorem reachGran_taps (s : State) (m : LampId) (t : Nat) : (s.reachGran m t).taps = s.taps := by unfold State.reachGran; split <;> rfl
@[simp] theorem reachGran_trnLogQ (s : State) (m : LampId) (t : Nat) : (s.reachGran m t).trnLogQ = s.trnLogQ := by unfold State.reachGran; split <;> rfl
@[simp] theorem reachGran_fabric (s : State) (m : LampId) (t : Nat) : (s.reachGran m t).fabric = s.fabric := by unfold State.reachGran; split <;> rfl
@[simp] theorem reachGran_links (s : State) (m : LampId) (t : Nat) : (s.reachGran m t).links = s.links := by unfold State.reachGran; split <;> rfl
@[simp] theorem reachGran_beats (s : State) (m : LampId) (t : Nat) : (s.reachGran m t).beats = s.beats := by unfold State.reachGran; split <;> rfl
@[simp] theorem reachGran_keepers (s : State) (m : LampId) (t : Nat) : (s.reachGran m t).keepers = s.keepers := by unfold State.reachGran; split <;> rfl
@[simp] theorem reachGran_flash (s : State) (m : LampId) (t : Nat) : (s.reachGran m t).flash = s.flash := by unfold State.reachGran; split <;> rfl
@[simp] theorem reachGran_pb3 (s : State) (m : LampId) (t : Nat) : (s.reachGran m t).pb3 = s.pb3 := by unfold State.reachGran; split <;> rfl
@[simp] theorem reachGran_ownerNew (s : State) (m : LampId) (t : Nat) : (s.reachGran m t).ownerNew = s.ownerNew := by unfold State.reachGran; split <;> rfl
@[simp] theorem reachGran_moor (s : State) (m : LampId) (t : Nat) : (s.reachGran m t).moor = s.moor := by unfold State.reachGran; split <;> rfl
@[simp] theorem reachGran_plate (s : State) (m : LampId) (t : Nat) : (s.reachGran m t).plate = s.plate := by unfold State.reachGran; split <;> rfl
@[simp] theorem reachGran_host (s : State) (m : LampId) (t : Nat) : (s.reachGran m t).host = s.host := by unfold State.reachGran; split <;> rfl
@[simp] theorem reachGran_copies (s : State) (m : LampId) (t : Nat) : (s.reachGran m t).copies = s.copies := by unfold State.reachGran; split <;> rfl
@[simp] theorem reachGran_badPar (s : State) (m : LampId) (t : Nat) : (s.reachGran m t).badPar = s.badPar := by unfold State.reachGran; split <;> rfl
@[simp] theorem reachGran_latches (s : State) (m : LampId) (t : Nat) : (s.reachGran m t).latches = s.latches := by unfold State.reachGran; split <;> rfl
@[simp] theorem reachGran_snap (s : State) (m : LampId) (t : Nat) : (s.reachGran m t).snap = s.snap := by unfold State.reachGran; split <;> rfl
@[simp] theorem reachGran_power (s : State) (m : LampId) (t : Nat) : (s.reachGran m t).power = s.power := by unfold State.reachGran; split <;> rfl
@[simp] theorem reachGran_ledger (s : State) (m : LampId) (t : Nat) : (s.reachGran m t).ledger = s.ledger := by unfold State.reachGran; split <;> rfl
@[simp] theorem reachGran_sec (s : State) (m : LampId) (t : Nat) : (s.reachGran m t).sec = s.sec := by unfold State.reachGran; split <;> rfl
@[simp] theorem reachGran_domains (s : State) (m : LampId) (t : Nat) : (s.reachGran m t).domains = s.domains := by unfold State.reachGran; split <;> rfl
@[simp] theorem reachGran_dieLost (s : State) (m : LampId) (t : Nat) : (s.reachGran m t).dieLost = s.dieLost := by unfold State.reachGran; split <;> rfl
@[simp] theorem reachGran_rd (s : State) (m : LampId) (t : Nat) (q : Reg) : (s.reachGran m t).rd q = s.rd q := by simp [State.rd]
@[simp] theorem reachGran_fld (s : State) (m : LampId) (t : Nat) (q : Reg) (k : FieldSpec) : (s.reachGran m t).fld q k = s.fld q k := by simp [fld_eq]
@[simp] theorem reachGranC_pending (s : State) (c : ChanId) (t : Nat) : (s.reachGranC c t).pending = s.pending := reachGran_pending s _ _
@[simp] theorem reachGranC_regs (s : State) (c : ChanId) (t : Nat) : (s.reachGranC c t).regs = s.regs := reachGran_regs s _ _
@[simp] theorem reachGranC_resp (s : State) (c : ChanId) (t : Nat) : (s.reachGranC c t).resp = s.resp := reachGran_resp s _ _
@[simp] theorem reachGranC_free (s : State) (c : ChanId) (t : Nat) : (s.reachGranC c t).free = s.free := reachGran_free s _ _
@[simp] theorem reachGranC_chans (s : State) (c : ChanId) (t : Nat) : (s.reachGranC c t).chans = s.chans := reachGran_chans s _ _
@[simp] theorem reachGranC_engines (s : State) (c : ChanId) (t : Nat) : (s.reachGranC c t).engines = s.engines := reachGran_engines s _ _
@[simp] theorem reachGranC_shadows (s : State) (c : ChanId) (t : Nat) : (s.reachGranC c t).shadows = s.shadows := reachGran_shadows s _ _
@[simp] theorem reachGranC_bias (s : State) (c : ChanId) (t : Nat) : (s.reachGranC c t).bias = s.bias := reachGran_bias s _ _
@[simp] theorem reachGranC_biasBlk (s : State) (c : ChanId) (t : Nat) : (s.reachGranC c t).biasBlk = s.biasBlk := reachGran_biasBlk s _ _
@[simp] theorem reachGranC_looks (s : State) (c : ChanId) (t : Nat) : (s.reachGranC c t).looks = s.looks := reachGran_looks s _ _
@[simp] theorem reachGranC_streams (s : State) (c : ChanId) (t : Nat) : (s.reachGranC c t).streams = s.streams := reachGran_streams s _ _
@[simp] theorem reachGranC_mers (s : State) (c : ChanId) (t : Nat) : (s.reachGranC c t).mers = s.mers := reachGran_mers s _ _
@[simp] theorem reachGranC_transit (s : State) (c : ChanId) (t : Nat) : (s.reachGranC c t).transit = s.transit := reachGran_transit s _ _
@[simp] theorem reachGranC_taps (s : State) (c : ChanId) (t : Nat) : (s.reachGranC c t).taps = s.taps := reachGran_taps s _ _
@[simp] theorem reachGranC_trnLogQ (s : State) (c : ChanId) (t : Nat) : (s.reachGranC c t).trnLogQ = s.trnLogQ := reachGran_trnLogQ s _ _
@[simp] theorem reachGranC_fabric (s : State) (c : ChanId) (t : Nat) : (s.reachGranC c t).fabric = s.fabric := reachGran_fabric s _ _
@[simp] theorem reachGranC_links (s : State) (c : ChanId) (t : Nat) : (s.reachGranC c t).links = s.links := reachGran_links s _ _
@[simp] theorem reachGranC_beats (s : State) (c : ChanId) (t : Nat) : (s.reachGranC c t).beats = s.beats := reachGran_beats s _ _
@[simp] theorem reachGranC_keepers (s : State) (c : ChanId) (t : Nat) : (s.reachGranC c t).keepers = s.keepers := reachGran_keepers s _ _
@[simp] theorem reachGranC_flash (s : State) (c : ChanId) (t : Nat) : (s.reachGranC c t).flash = s.flash := reachGran_flash s _ _
@[simp] theorem reachGranC_pb3 (s : State) (c : ChanId) (t : Nat) : (s.reachGranC c t).pb3 = s.pb3 := reachGran_pb3 s _ _
@[simp] theorem reachGranC_ownerNew (s : State) (c : ChanId) (t : Nat) : (s.reachGranC c t).ownerNew = s.ownerNew := reachGran_ownerNew s _ _
@[simp] theorem reachGranC_moor (s : State) (c : ChanId) (t : Nat) : (s.reachGranC c t).moor = s.moor := reachGran_moor s _ _
@[simp] theorem reachGranC_plate (s : State) (c : ChanId) (t : Nat) : (s.reachGranC c t).plate = s.plate := reachGran_plate s _ _
@[simp] theorem reachGranC_host (s : State) (c : ChanId) (t : Nat) : (s.reachGranC c t).host = s.host := reachGran_host s _ _
@[simp] theorem reachGranC_copies (s : State) (c : ChanId) (t : Nat) : (s.reachGranC c t).copies = s.copies := reachGran_copies s _ _
@[simp] theorem reachGranC_badPar (s : State) (c : ChanId) (t : Nat) : (s.reachGranC c t).badPar = s.badPar := reachGran_badPar s _ _
@[simp] theorem reachGranC_latches (s : State) (c : ChanId) (t : Nat) : (s.reachGranC c t).latches = s.latches := reachGran_latches s _ _
@[simp] theorem reachGranC_snap (s : State) (c : ChanId) (t : Nat) : (s.reachGranC c t).snap = s.snap := reachGran_snap s _ _
@[simp] theorem reachGranC_power (s : State) (c : ChanId) (t : Nat) : (s.reachGranC c t).power = s.power := reachGran_power s _ _
@[simp] theorem reachGranC_ledger (s : State) (c : ChanId) (t : Nat) : (s.reachGranC c t).ledger = s.ledger := reachGran_ledger s _ _
@[simp] theorem reachGranC_sec (s : State) (c : ChanId) (t : Nat) : (s.reachGranC c t).sec = s.sec := reachGran_sec s _ _
@[simp] theorem reachGranC_domains (s : State) (c : ChanId) (t : Nat) : (s.reachGranC c t).domains = s.domains := reachGran_domains s _ _
@[simp] theorem reachGranC_dieLost (s : State) (c : ChanId) (t : Nat) : (s.reachGranC c t).dieLost = s.dieLost := reachGran_dieLost s _ _
@[simp] theorem reachGranC_rd (s : State) (c : ChanId) (t : Nat) (q : Reg) : (s.reachGranC c t).rd q = s.rd q := by simp [State.rd]
@[simp] theorem reachGranC_fld (s : State) (c : ChanId) (t : Nat) (q : Reg) (k : FieldSpec) : (s.reachGranC c t).fld q k = s.fld q k := by simp [fld_eq]

/-- A command acts on dies: with none of them under test it has its effect; else a free value decides whether it has (R375). -/
theorem act_cases (s : State) (dies : List Die) (f : State → State) :
    s.act dies f = .next (f s) ∨ s.act dies f = .next (f s.fresh.2) ∨ s.act dies f = .next s.fresh.2 := by
  unfold State.act
  split
  · dsimp only
    split
    · exact .inr (.inl rfl)
    · exact .inr (.inr rfl)
  · exact .inl rfl
theorem act_quiet (s : State) (dies : List Die) (f : State → State) (h : ∀ d ∈ dies, s.underTest d = false) : s.act dies f = .next (f s) := by
  unfold State.act
  rw [List.find?_eq_none.mpr fun d hd => by simp [h d hd]]
theorem act_next (s : State) (dies : List Die) (f : State → State) (h : s.Ordinary) : s.act dies f = .next (f s) := act_quiet s dies f fun d _ => h d
/-- A command that acts on dies completes. -/
theorem act_completes (s : State) (dies : List Die) (f : State → State) : ∃ t, s.act dies f = .next t := by
  rcases act_cases s dies f with h | h | h <;> exact ⟨_, h⟩

end Sys2Proof.Laws
end

