-- ==== Sys2Proof/Laws/Beacons.lean ====
section
/-! SUPPORT. All that a publication can do: it changes the deliveries in flight and the registers that count and show them, and nothing else. -/
namespace Sys2Proof.Laws
open Sys2Proof Sys2Proof.Machine

/-- `t` is `s` after publications. -/
def Beaconed (s t : State) : Prop := t = { s with regs := t.regs, fabric := { s.fabric with inFlight := t.fabric.inFlight } } ∧ ∀ r, r.ofFabric = false → t.rd r = s.rd r

theorem Beaconed.refl (s : State) : Beaconed s s := ⟨rfl, fun _ _ => rfl⟩
theorem Beaconed.trans {s t u : State} (h : Beaconed s t) (k : Beaconed t u) : Beaconed s u :=
  ⟨by rw [k.1, h.1], fun r hr => (k.2 r hr).trans (h.2 r hr)⟩

theorem Beaconed.wr (s : State) {r : Reg} (hr : r.ofFabric = true) (w : Word) : Beaconed s (s.wr r w) :=
  ⟨rfl, fun q hq => rd_wr_ne s w (fun e => by rw [e, hr] at hq; cases hq)⟩
theorem Beaconed.setFld (s : State) {r : Reg} (hr : r.ofFabric = true) (g : FieldSpec) (v : Nat) : Beaconed s (s.setFld r g v) := Beaconed.wr s hr _

theorem dropOff_beaconed (s : State) (n : Nat) : Beaconed s (s.dropOff n) := by
  unfold State.dropOff
  split
  · exact .refl s
  · exact (Beaconed.wr s rfl _).trans (Beaconed.wr _ rfl _)

theorem Beaconed.flight (s : State) (l : List Delivery) : Beaconed s { s with fabric := { s.fabric with inFlight := l } } := ⟨rfl, fun _ _ => rfl⟩
theorem setInFlight_beaconed (s : State) (ch : BeaconCh) (b : Bool) : Beaconed s (s.setInFlight ch b) := by
  unfold State.setInFlight
  rw [setFlag_eq]
  exact .setFld s rfl _ _

theorem deliver_beaconed (s : State) (ch : BeaconCh) (p : Payload) : Beaconed s (s.deliver ch p) := by
  unfold State.deliver
  split
  · exact .refl s
  · split
    · exact (Beaconed.wr s rfl _).trans (Beaconed.wr _ rfl _)
    · exact ((dropOff_beaconed s _).trans (.flight _ _)).trans (setInFlight_beaconed _ ch true)

theorem publishOn_beaconed (s : State) (src : Source) (ch : BeaconCh) (info : Nat) (st : Option StampRec) : Beaconed s (s.publishOn src ch info st) := by
  unfold State.publishOn
  split
  · exact deliver_beaconed s ch _
  · exact .refl s

theorem publish_beaconed (s : State) (src : Source) (info : Nat) : Beaconed s (s.publish src info) := publishOn_beaconed s src _ info none

variable {s t : State} (h : Beaconed s t)
include h
theorem Beaconed.pending : t.pending = s.pending := (congrArg State.pending h.1).trans rfl
theorem Beaconed.resp : t.resp = s.resp := (congrArg State.resp h.1).trans rfl
theorem Beaconed.free : t.free = s.free := (congrArg State.free h.1).trans rfl
theorem Beaconed.clock : t.clock = s.clock := (congrArg State.clock h.1).trans rfl
theorem Beaconed.chans : t.chans = s.chans := (congrArg State.chans h.1).trans rfl
theorem Beaconed.engines : t.engines = s.engines := (congrArg State.engines h.1).trans rfl
theorem Beaconed.shadows : t.shadows = s.shadows := (congrArg State.shadows h.1).trans rfl
theorem Beaconed.bias : t.bias = s.bias := (congrArg State.bias h.1).trans rfl
theorem Beaconed.biasBlk : t.biasBlk = s.biasBlk := (congrArg State.biasBlk h.1).trans rfl
theorem Beaconed.looks : t.looks = s.looks := (congrArg State.looks h.1).trans rfl
theorem Beaconed.streams : t.streams = s.streams := (congrArg State.streams h.1).trans rfl
theorem Beaconed.mers : t.mers = s.mers := (congrArg State.mers h.1).trans rfl
theorem Beaconed.transit : t.transit = s.transit := (congrArg State.transit h.1).trans rfl
theorem Beaconed.taps : t.taps = s.taps := (congrArg State.taps h.1).trans rfl
theorem Beaconed.trnLogQ : t.trnLogQ = s.trnLogQ := (congrArg State.trnLogQ h.1).trans rfl
theorem Beaconed.links : t.links = s.links := (congrArg State.links h.1).trans rfl
theorem Beaconed.beats : t.beats = s.beats := (congrArg State.beats h.1).trans rfl
theorem Beaconed.keepers : t.keepers = s.keepers := (congrArg State.keepers h.1).trans rfl
theorem Beaconed.flash : t.flash = s.flash := (congrArg State.flash h.1).trans rfl
theorem Beaconed.pb3 : t.pb3 = s.pb3 := (congrArg State.pb3 h.1).trans rfl
theorem Beaconed.ownerNew : t.ownerNew = s.ownerNew := (congrArg State.ownerNew h.1).trans rfl
theorem Beaconed.moor : t.moor = s.moor := (congrArg State.moor h.1).trans rfl
theorem Beaconed.plate : t.plate = s.plate := (congrArg State.plate h.1).trans rfl
theorem Beaconed.host : t.host = s.host := (congrArg State.host h.1).trans rfl
theorem Beaconed.copies : t.copies = s.copies := (congrArg State.copies h.1).trans rfl
theorem Beaconed.badPar : t.badPar = s.badPar := (congrArg State.badPar h.1).trans rfl
theorem Beaconed.latches : t.latches = s.latches := (congrArg State.latches h.1).trans rfl
theorem Beaconed.snap : t.snap = s.snap := (congrArg State.snap h.1).trans rfl
theorem Beaconed.power : t.power = s.power := (congrArg State.power h.1).trans rfl
theorem Beaconed.ledger : t.ledger = s.ledger := (congrArg State.ledger h.1).trans rfl
theorem Beaconed.sec : t.sec = s.sec := (congrArg State.sec h.1).trans rfl
theorem Beaconed.domains : t.domains = s.domains := (congrArg State.domains h.1).trans rfl
theorem Beaconed.dieLost : t.dieLost = s.dieLost := (congrArg State.dieLost h.1).trans rfl
theorem Beaconed.fld (r : Reg) (hr : r.ofFabric = false) (g : FieldSpec) : t.fld r g = s.fld r g := by rw [fld_eq, h.2 r hr, fld_eq]

end Sys2Proof.Laws
end

