-- ==== Sys2Proof/Laws/Kept.lean ====
section
/-! SUPPORT. What every meaning keeps: the queue, and the canonical form of every sparse table of the state. `Kept s0 s` carries both from `s0` to `s`; each law takes it through one operation. -/
namespace Sys2Proof.Laws
open Sys2Proof Sys2Proof.Machine

/-- No two registers share an offset. -/
def AddrInj : Prop := ∀ r q : Reg, r.addr = q.addr → r = q

/-- The queue stands, and the canonical form is kept. -/
def Kept (s0 s : State) : Prop := s.pending = s0.pending ∧ (AddrInj → s0.Canonical → s.Canonical)

variable {s0 s : State}

theorem kept_refl (s : State) : Kept s s := ⟨rfl, fun _ h => h⟩

theorem RegTab_insert_wf {t : List (Reg × Word)} {r : Reg} {w : Word} (hinj : AddrInj) (ht : RegTab.wf t) (hr : RegTab.free t r) (hw : w ≠ r.reset) : RegTab.wf (RegTab.insert t r w) := by
  refine ⟨?_, fun p hp => (RegTab_mem_insert hp).elim (fun e => by rw [e]; exact hw) (ht.2 p)⟩
  induction t with
  | nil => simp [RegTab.insert]
  | cons q t ih =>
    obtain ⟨r', w'⟩ := q
    have h0 := List.pairwise_cons.1 ht.1
    have hne : r' ≠ r := hr (r', w') List.mem_cons_self
    unfold RegTab.insert
    split
    · rename_i hlt
      exact List.pairwise_cons.2 ⟨fun x hx => (List.mem_cons.1 hx).elim (fun e => by rw [e]; exact hlt) (fun hx => Nat.lt_trans hlt (h0.1 x hx)), ht.1⟩
    · rename_i hlt
      refine List.pairwise_cons.2 ⟨fun x hx => ?_, ih ⟨h0.2, fun p hp => ht.2 p (List.mem_cons_of_mem _ hp)⟩ (fun p hp => hr p (List.mem_cons_of_mem _ hp))⟩
      rcases RegTab_mem_insert hx with e | hx
      · rw [e]
        have : r'.addr ≠ r.addr := fun e => hne (hinj _ _ e)
        show r'.addr < r.addr; omega
      · exact h0.1 x hx

/-- Storing a register keeps the canonical form. -/
theorem RegTab_set_wf {t : List (Reg × Word)} (r : Reg) (w : Word) (hinj : AddrInj) (ht : RegTab.wf t) : RegTab.wf (RegTab.set t r w) := by
  unfold RegTab.set
  split
  · exact RegTab_erase_wf r ht
  · rename_i hw; exact RegTab_insert_wf hinj (RegTab_erase_wf r ht) (RegTab_erase_free t r) hw

/-- What a change keeps that touches none of the sparse tables and not the queue. -/
theorem kept_same {t : State} (h : Kept s0 s) (h1 : t.pending = s.pending) (h2 : t.regs = s.regs) (h3 : t.host.mem = s.host.mem) (h4 : t.host.bar2 = s.host.bar2)
    (h5 : ∀ d : DomeId, t.moor[d].data = s.moor[d].data) (h6 : ∀ (d : DomeId) (b : BankId), t.plate[d][b].cells = s.plate[d][b].cells) : Kept s0 t := by
  refine ⟨h1.trans h.1, fun hi hc => ?_⟩
  obtain ⟨a, b, c, d, e⟩ := h.2 hi hc
  exact ⟨h2 ▸ a, h3 ▸ b, fun f => h4 ▸ c f, fun f => (h5 f) ▸ d f, fun f g => (h6 f g) ▸ e f g⟩

/-- A change that leaves the queue and takes each sparse table from a canonical form to one. -/
theorem kept_change {t : State} (h : Kept s0 s) (h1 : t.pending = s.pending) (h2 : RegTab.wf s.regs → RegTab.wf t.regs) (h3 : Memory.wf s.host.mem = true → Memory.wf t.host.mem = true)
    (h4 : (∀ f : Func, Memory.wf s.host.bar2[f] = true) → ∀ f : Func, Memory.wf t.host.bar2[f] = true)
    (h5 : (∀ d : DomeId, Memory.wf s.moor[d].data = true) → ∀ d : DomeId, Memory.wf t.moor[d].data = true)
    (h6 : (∀ (d : DomeId) (b : BankId), Memory.wf s.plate[d][b].cells = true) → ∀ (d : DomeId) (b : BankId), Memory.wf t.plate[d][b].cells = true) : Kept s0 t :=
  ⟨h1.trans h.1, fun hi hc => by
    obtain ⟨a, b, c, d, e⟩ := h.2 hi hc
    exact ⟨h2 a, h3 b, h4 c, h5 d, h6 e⟩⟩

theorem kept_ite {P : Prop} [Decidable P] {a b : State} (ha : Kept s0 a) (hb : Kept s0 b) : Kept s0 (if P then a else b) := by split <;> assumption

theorem kept_foldl {α : Type} {l : List α} {f : State → α → State} (h : Kept s0 s) (hf : ∀ t x, Kept s0 t → Kept s0 (f t x)) : Kept s0 (l.foldl f s) := by
  induction l generalizing s with
  | nil => exact h
  | cons x l ih => exact ih (hf s x h)

theorem kept_foldl_snd {α β : Type} {l : List α} {f : β × State → α → β × State} {b : β × State} (h : Kept s0 b.2) (hf : ∀ b x, Kept s0 b.2 → Kept s0 (f b x).2) : Kept s0 (l.foldl f b).2 := by
  induction l generalizing b with
  | nil => exact h
  | cons x l ih => exact ih (hf b x h)

theorem kept_foldl_fst {α β : Type} {l : List α} {f : State × β → α → State × β} {b : State × β} (h : Kept s0 b.1) (hf : ∀ b x, Kept s0 b.1 → Kept s0 (f b x).1) : Kept s0 (l.foldl f b).1 := by
  induction l generalizing b with
  | nil => exact h
  | cons x l ih => exact ih (hf b x h)

theorem wr_kept (h : Kept s0 s) (r : Reg) (w : Word) : Kept s0 (s.wr r w) :=
  ⟨h.1, fun hi hc => ⟨RegTab_set_wf r w hi (h.2 hi hc).1, (h.2 hi hc).2⟩⟩

/-- Any change of the fields that hold neither the queue nor a sparse table. -/
theorem kept_mk (h : Kept s0 s) {resp : Resp} {free : Nat} {clock : Clock} {chans : Vector Chan 16} {engines : Vector ChanEngine 16} {shadows : Vector Shadow 16} {bias : Vector BiasLine 32} {biasBlk : Vector BiasBlock 4} {looks : Vector Lookout 4} {streams : Vector Stream 16} {mers : Vector Mer 2} {transit : Vector Transit 2} {taps : List TapEdge} {trnLogQ : List Nat} {fabric : Fabric} {links : Vector Link 22} {beats : Vector Beat 2} {keepers : Vector Keeper 4} {flash : Images} {pb3 : Vector Images 2} {ownerNew : Option StoreImage} {copies : List CopyFault} {badPar : List Reg} {latches : List Latch} {snap : Snap} {power : Power} {ledger : Ledger} {sec : Security} {domains : Vector DomState 76} {dieLost : Vector Bool 8} :
    Kept s0 ({ pending := s.pending, regs := s.regs, host := s.host, moor := s.moor, plate := s.plate, resp := resp, free := free, clock := clock, chans := chans, engines := engines, shadows := shadows, bias := bias, biasBlk := biasBlk, looks := looks, streams := streams, mers := mers, transit := transit, taps := taps, trnLogQ := trnLogQ, fabric := fabric, links := links, beats := beats, keepers := keepers, flash := flash, pb3 := pb3, ownerNew := ownerNew, copies := copies, badPar := badPar, latches := latches, snap := snap, power := power, ledger := ledger, sec := sec, domains := domains, dieLost := dieLost } : State) :=
  kept_same h rfl rfl rfl rfl (fun _ => rfl) (fun _ _ => rfl)

/-- The same, with the rings and transactions of the host interface. -/
theorem kept_mkHost (h : Kept s0 s) {host : HostIf} (hm : host.mem = s.host.mem) (hb : host.bar2 = s.host.bar2) {resp : Resp} {free : Nat} {clock : Clock} {chans : Vector Chan 16} {engines : Vector ChanEngine 16} {shadows : Vector Shadow 16} {bias : Vector BiasLine 32} {biasBlk : Vector BiasBlock 4} {looks : Vector Lookout 4} {streams : Vector Stream 16} {mers : Vector Mer 2} {transit : Vector Transit 2} {taps : List TapEdge} {trnLogQ : List Nat} {fabric : Fabric} {links : Vector Link 22} {beats : Vector Beat 2} {keepers : Vector Keeper 4} {flash : Images} {pb3 : Vector Images 2} {ownerNew : Option StoreImage} {copies : List CopyFault} {badPar : List Reg} {latches : List Latch} {snap : Snap} {power : Power} {ledger : Ledger} {sec : Security} {domains : Vector DomState 76} {dieLost : Vector Bool 8} :
    Kept s0 ({ pending := s.pending, regs := s.regs, host := host, moor := s.moor, plate := s.plate, resp := resp, free := free, clock := clock, chans := chans, engines := engines, shadows := shadows, bias := bias, biasBlk := biasBlk, looks := looks, streams := streams, mers := mers, transit := transit, taps := taps, trnLogQ := trnLogQ, fabric := fabric, links := links, beats := beats, keepers := keepers, flash := flash, pb3 := pb3, ownerNew := ownerNew, copies := copies, badPar := badPar, latches := latches, snap := snap, power := power, ledger := ledger, sec := sec, domains := domains, dieLost := dieLost } : State) :=
  kept_same h rfl rfl hm hb (fun _ => rfl) (fun _ _ => rfl)

theorem kept_host (h : Kept s0 s) {v : HostIf} (hm : v.mem = s.host.mem) (hb : v.bar2 = s.host.bar2) : Kept s0 { s with host := v } :=
  kept_same h rfl rfl hm hb (fun _ => rfl) (fun _ _ => rfl)

theorem kept_resp (h : Kept s0 s) {v} : Kept s0 { s with resp := v } := kept_same h rfl rfl rfl rfl (fun _ => rfl) (fun _ _ => rfl)
theorem kept_free (h : Kept s0 s) {v} : Kept s0 { s with free := v } := kept_same h rfl rfl rfl rfl (fun _ => rfl) (fun _ _ => rfl)
theorem kept_clock (h : Kept s0 s) {v} : Kept s0 { s with clock := v } := kept_same h rfl rfl rfl rfl (fun _ => rfl) (fun _ _ => rfl)
theorem kept_chans (h : Kept s0 s) {v} : Kept s0 { s with chans := v } := kept_same h rfl rfl rfl rfl (fun _ => rfl) (fun _ _ => rfl)
theorem kept_engines (h : Kept s0 s) {v} : Kept s0 { s with engines := v } := kept_same h rfl rfl rfl rfl (fun _ => rfl) (fun _ _ => rfl)
theorem kept_shadows (h : Kept s0 s) {v} : Kept s0 { s with shadows := v } := kept_same h rfl rfl rfl rfl (fun _ => rfl) (fun _ _ => rfl)
theorem kept_bias (h : Kept s0 s) {v} : Kept s0 { s with bias := v } := kept_same h rfl rfl rfl rfl (fun _ => rfl) (fun _ _ => rfl)
theorem kept_biasBlk (h : Kept s0 s) {v} : Kept s0 { s with biasBlk := v } := kept_same h rfl rfl rfl rfl (fun _ => rfl) (fun _ _ => rfl)
theorem kept_looks (h : Kept s0 s) {v} : Kept s0 { s with looks := v } := kept_same h rfl rfl rfl rfl (fun _ => rfl) (fun _ _ => rfl)
theorem kept_streams (h : Kept s0 s) {v} : Kept s0 { s with streams := v } := kept_same h rfl rfl rfl rfl (fun _ => rfl) (fun _ _ => rfl)
theorem kept_mers (h : Kept s0 s) {v} : Kept s0 { s with mers := v } := kept_same h rfl rfl rfl rfl (fun _ => rfl) (fun _ _ => rfl)
theorem kept_transit (h : Kept s0 s) {v} : Kept s0 { s with transit := v } := kept_same h rfl rfl rfl rfl (fun _ => rfl) (fun _ _ => rfl)
theorem kept_taps (h : Kept s0 s) {v} : Kept s0 { s with taps := v } := kept_same h rfl rfl rfl rfl (fun _ => rfl) (fun _ _ => rfl)
theorem kept_trnLogQ (h : Kept s0 s) {v} : Kept s0 { s with trnLogQ := v } := kept_same h rfl rfl rfl rfl (fun _ => rfl) (fun _ _ => rfl)
theorem kept_fabric (h : Kept s0 s) {v} : Kept s0 { s with fabric := v } := kept_same h rfl rfl rfl rfl (fun _ => rfl) (fun _ _ => rfl)
theorem kept_links (h : Kept s0 s) {v} : Kept s0 { s with links := v } := kept_same h rfl rfl rfl rfl (fun _ => rfl) (fun _ _ => rfl)
theorem kept_beats (h : Kept s0 s) {v} : Kept s0 { s with beats := v } := kept_same h rfl rfl rfl rfl (fun _ => rfl) (fun _ _ => rfl)
theorem kept_keepers (h : Kept s0 s) {v} : Kept s0 { s with keepers := v } := kept_same h rfl rfl rfl rfl (fun _ => rfl) (fun _ _ => rfl)
theorem kept_flash (h : Kept s0 s) {v} : Kept s0 { s with flash := v } := kept_same h rfl rfl rfl rfl (fun _ => rfl) (fun _ _ => rfl)
theorem kept_pb3 (h : Kept s0 s) {v} : Kept s0 { s with pb3 := v } := kept_same h rfl rfl rfl rfl (fun _ => rfl) (fun _ _ => rfl)
theorem kept_ownerNew (h : Kept s0 s) {v} : Kept s0 { s with ownerNew := v } := kept_same h rfl rfl rfl rfl (fun _ => rfl) (fun _ _ => rfl)
theorem kept_copies (h : Kept s0 s) {v} : Kept s0 { s with copies := v } := kept_same h rfl rfl rfl rfl (fun _ => rfl) (fun _ _ => rfl)
theorem kept_badPar (h : Kept s0 s) {v} : Kept s0 { s with badPar := v } := kept_same h rfl rfl rfl rfl (fun _ => rfl) (fun _ _ => rfl)
theorem kept_latches (h : Kept s0 s) {v} : Kept s0 { s with latches := v } := kept_same h rfl rfl rfl rfl (fun _ => rfl) (fun _ _ => rfl)
theorem kept_snap (h : Kept s0 s) {v} : Kept s0 { s with snap := v } := kept_same h rfl rfl rfl rfl (fun _ => rfl) (fun _ _ => rfl)
theorem kept_power (h : Kept s0 s) {v} : Kept s0 { s with power := v } := kept_same h rfl rfl rfl rfl (fun _ => rfl) (fun _ _ => rfl)
theorem kept_ledger (h : Kept s0 s) {v} : Kept s0 { s with ledger := v } := kept_same h rfl rfl rfl rfl (fun _ => rfl) (fun _ _ => rfl)
theorem kept_sec (h : Kept s0 s) {v} : Kept s0 { s with sec := v } := kept_same h rfl rfl rfl rfl (fun _ => rfl) (fun _ _ => rfl)
theorem kept_domains (h : Kept s0 s) {v} : Kept s0 { s with domains := v } := kept_same h rfl rfl rfl rfl (fun _ => rfl) (fun _ _ => rfl)
theorem kept_dieLost (h : Kept s0 s) {v} : Kept s0 { s with dieLost := v } := kept_same h rfl rfl rfl rfl (fun _ => rfl) (fun _ _ => rfl)

theorem updHost_kept (h : Kept s0 s) {f : HostIf → HostIf} (hm : (f s.host).mem = s.host.mem) (hb : (f s.host).bar2 = s.host.bar2) : Kept s0 (s.updHost f) :=
  kept_same h rfl rfl hm hb (fun _ => rfl) (fun _ _ => rfl)

theorem updMoor_wf (h : Kept s0 s) {d : DomeId} {f : Mooring → Mooring} (hm : Memory.wf s.moor[d].data = true → Memory.wf (f s.moor[d]).data = true) : Kept s0 (s.updMoor d f) := by
  refine ⟨h.1, fun hi hc => ⟨(h.2 hi hc).1, (h.2 hi hc).2.1, (h.2 hi hc).2.2.1, fun x => ?_, (h.2 hi hc).2.2.2.2⟩⟩
  have hx := (h.2 hi hc).2.2.2.1 x
  simp only [State.updMoor, Fin.getElem_fin, Vector.getElem_set]
  split
  · rename_i e; have : d = x := Fin.ext e; subst this; exact hm hx
  · exact hx

theorem updMoor_kept (h : Kept s0 s) {d : DomeId} {f : Mooring → Mooring} (hm : (f s.moor[d]).data = s.moor[d].data) : Kept s0 (s.updMoor d f) := updMoor_wf h (fun hd => by rw [hm]; exact hd)

theorem updBank_wf (h : Kept s0 s) {d : DomeId} {b : BankId} {f : Bank → Bank} (hm : Memory.wf s.plate[d][b].cells = true → Memory.wf (f s.plate[d][b]).cells = true) :
    Kept s0 (s.updBank d b f) := by
  refine ⟨h.1, fun hi hc => ⟨(h.2 hi hc).1, (h.2 hi hc).2.1, (h.2 hi hc).2.2.1, (h.2 hi hc).2.2.2.1, fun x y => ?_⟩⟩
  have hx := (h.2 hi hc).2.2.2.2 x y
  simp only [State.updBank, Fin.getElem_fin, Vector.getElem_set]
  split
  · rename_i e; have : d = x := Fin.ext e; subst this
    simp only [Vector.getElem_set]
    split
    · rename_i e; have : b = y := Fin.ext e; subst this; exact hm hx
    · exact hx
  · exact hx

theorem updBank_kept (h : Kept s0 s) {d : DomeId} {b : BankId} {f : Bank → Bank} (hm : (f s.plate[d][b]).cells = s.plate[d][b].cells) : Kept s0 (s.updBank d b f) :=
  updBank_wf h (fun hd => by rw [hm]; exact hd)

end Sys2Proof.Laws
end

