-- ==== Sys2Proof/Laws/KeptOps.lean ====
section
/-! SUPPORT. What the operations of Machine/Ops.lean keep (see Kept.lean). -/
namespace Sys2Proof.Laws
open Sys2Proof Sys2Proof.Machine

theorem setFld_kept {s0 : State} (s : State) (r : Reg) (f : FieldSpec) (v : Nat) (hk : Kept s0 s) : Kept s0 (State.setFld s r f v) := by
  unfold State.setFld
  repeat (first | with_reducible assumption | intro _ | with_reducible apply wr_kept | with_reducible apply kept_ite | split | dsimp only | with_reducible apply kept_ite | split | dsimp only)

theorem setFlag_kept {s0 : State} (s : State) (r : Reg) (f : FieldSpec) (b : Bool) (hk : Kept s0 s) : Kept s0 (State.setFlag s r f b) := by
  unfold State.setFlag
  repeat (first | with_reducible assumption | intro _ | with_reducible apply setFld_kept | with_reducible apply kept_ite | split | dsimp only | with_reducible apply kept_ite | split | dsimp only)

theorem raise_kept {s0 : State} (s : State) (r : Reg) (f : FieldSpec) (hk : Kept s0 s) : Kept s0 (State.raise s r f) := by
  unfold State.raise
  repeat (first | with_reducible assumption | intro _ | with_reducible apply setFld_kept | with_reducible apply kept_ite | split | dsimp only | with_reducible apply kept_ite | split | dsimp only)

theorem bumpBy_kept {s0 : State} (s : State) (r : Reg) (f : FieldSpec) (n : Nat) (hk : Kept s0 s) : Kept s0 (State.bumpBy s r f n) := by
  unfold State.bumpBy
  repeat (first | with_reducible assumption | intro _ | with_reducible apply setFld_kept | with_reducible apply kept_ite | split | dsimp only | with_reducible apply kept_ite | split | dsimp only)

theorem bump_kept {s0 : State} (s : State) (r : Reg) (f : FieldSpec) (hk : Kept s0 s) : Kept s0 (State.bump s r f) := by
  unfold State.bump
  repeat (first | with_reducible assumption | intro _ | with_reducible apply bumpBy_kept | with_reducible apply kept_ite | split | dsimp only | with_reducible apply kept_ite | split | dsimp only)

theorem wr64_kept {s0 : State} (s : State) (lo hi : Reg) (v : Nat) (hk : Kept s0 s) : Kept s0 (State.wr64 s lo hi v) := by
  unfold State.wr64
  repeat (first | with_reducible assumption | intro _ | with_reducible apply wr_kept | with_reducible apply kept_ite | split | dsimp only | with_reducible apply kept_ite | split | dsimp only)

theorem updChan_kept {s0 : State} (s : State) (c : ChanId) (f : Chan → Chan) (hk : Kept s0 s) : Kept s0 (State.updChan s c f) := by
  unfold State.updChan
  repeat (first | with_reducible assumption | intro _ | with_reducible apply kept_ite | split | dsimp only | with_reducible apply kept_mk | with_reducible apply kept_ite | split | dsimp only | with_reducible apply kept_chans)

theorem updStream_kept {s0 : State} (s : State) (st : StreamId) (f : Stream → Stream) (hk : Kept s0 s) : Kept s0 (State.updStream s st f) := by
  unfold State.updStream
  repeat (first | with_reducible assumption | intro _ | with_reducible apply kept_ite | split | dsimp only | with_reducible apply kept_mk | with_reducible apply kept_ite | split | dsimp only | with_reducible apply kept_streams)

theorem updMer_kept {s0 : State} (s : State) (m : MerId) (f : Mer → Mer) (hk : Kept s0 s) : Kept s0 (State.updMer s m f) := by
  unfold State.updMer
  repeat (first | with_reducible assumption | intro _ | with_reducible apply kept_ite | split | dsimp only | with_reducible apply kept_mk | with_reducible apply kept_ite | split | dsimp only | with_reducible apply kept_mers)

theorem updBias_kept {s0 : State} (s : State) (b : BiasId) (f : BiasLine → BiasLine) (hk : Kept s0 s) : Kept s0 (State.updBias s b f) := by
  unfold State.updBias
  repeat (first | with_reducible assumption | intro _ | with_reducible apply kept_ite | split | dsimp only | with_reducible apply kept_mk | with_reducible apply kept_ite | split | dsimp only | with_reducible apply kept_bias)

theorem updLook_kept {s0 : State} (s : State) (n : LampId) (f : Lookout → Lookout) (hk : Kept s0 s) : Kept s0 (State.updLook s n f) := by
  unfold State.updLook
  repeat (first | with_reducible assumption | intro _ | with_reducible apply kept_ite | split | dsimp only | with_reducible apply kept_mk | with_reducible apply kept_ite | split | dsimp only | with_reducible apply kept_looks)

theorem fresh_kept {s0 : State} (s : State) (hk : Kept s0 s) : Kept s0 (State.fresh s).2 := by
  unfold State.fresh
  repeat (first | with_reducible assumption | intro _ | with_reducible apply kept_ite | split | dsimp only | with_reducible apply kept_mk | with_reducible apply kept_ite | split | dsimp only | with_reducible apply kept_free)

theorem reachTime_kept {s0 : State} (s : State) (t : Nat) (hk : Kept s0 s) : Kept s0 (State.reachTime s t) := by
  unfold State.reachTime
  repeat (first | with_reducible assumption | intro _ | with_reducible apply kept_ite | split | dsimp only | with_reducible apply kept_mk | with_reducible apply kept_ite | split | dsimp only | with_reducible apply kept_clock)

theorem reachGran_kept {s0 : State} (s : State) (n : LampId) (g : Nat) (hk : Kept s0 s) : Kept s0 (State.reachGran s n g) := by
  unfold State.reachGran
  repeat (first | with_reducible assumption | intro _ | with_reducible apply kept_ite | split | dsimp only | with_reducible apply kept_mk | with_reducible apply kept_ite | split | dsimp only | with_reducible apply kept_clock)

theorem reachGranC_kept {s0 : State} (s : State) (c : ChanId) (g : Nat) (hk : Kept s0 s) : Kept s0 (State.reachGranC s c g) := by
  unfold State.reachGranC
  repeat (first | with_reducible assumption | intro _ | with_reducible apply reachGran_kept | with_reducible apply kept_ite | split | dsimp only | with_reducible apply kept_ite | split | dsimp only)

end Sys2Proof.Laws
end

