-- ==== Sys2Proof/Laws/KeptFabric.lean ====
section
/-! SUPPORT. What the operations of Machine/Fabric.lean keep (see Kept.lean). -/
namespace Sys2Proof.Laws
open Sys2Proof Sys2Proof.Machine

theorem setInFlight_kept {s0 : State} (s : State) (ch : BeaconCh) (b : Bool) (hk : Kept s0 s) : Kept s0 (State.setInFlight s ch b) := by
  unfold State.setInFlight
  repeat (first | with_reducible assumption | intro _ | with_reducible apply setFlag_kept | with_reducible apply kept_ite | split | dsimp only | with_reducible apply kept_ite | split | dsimp only)

theorem dropOff_kept {s0 : State} (s : State) (n : Nat) (hk : Kept s0 s) : Kept s0 (State.dropOff s n) := by
  unfold State.dropOff
  repeat (first | with_reducible assumption | intro _ | with_reducible apply raise_kept | with_reducible apply bumpBy_kept | with_reducible apply kept_ite | split | dsimp only | with_reducible apply kept_ite | split | dsimp only)

theorem arbitrate_kept {s0 : State} (s : State) (ch : BeaconCh) (p : Payload) (hk : Kept s0 s) : Kept s0 (State.arbitrate s ch p) := by
  unfold State.arbitrate
  repeat (first | with_reducible assumption | intro _ | with_reducible apply kept_ite | split | dsimp only | with_reducible apply kept_mk | with_reducible apply kept_ite | split | dsimp only | with_reducible apply kept_fabric)

theorem deliver_kept {s0 : State} (s : State) (ch : BeaconCh) (p : Payload) (hk : Kept s0 s) : Kept s0 (State.deliver s ch p) := by
  unfold State.deliver
  repeat (first | with_reducible assumption | intro _ | with_reducible apply raise_kept | with_reducible apply bump_kept | with_reducible apply setInFlight_kept | with_reducible apply dropOff_kept | with_reducible apply arbitrate_kept | with_reducible apply kept_ite | split | dsimp only | with_reducible apply kept_mk | with_reducible apply kept_ite | split | dsimp only | with_reducible apply kept_fabric)

theorem publishOn_kept {s0 : State} (s : State) (src : Source) (ch : BeaconCh) (info : Nat) (stamp : Option StampRec) (hk : Kept s0 s) : Kept s0 (State.publishOn s src ch info stamp) := by
  unfold State.publishOn
  repeat (first | with_reducible assumption | intro _ | with_reducible apply deliver_kept | with_reducible apply kept_ite | split | dsimp only | with_reducible apply kept_ite | split | dsimp only)

theorem publish_kept {s0 : State} (s : State) (src : Source) (info : Nat) (hk : Kept s0 s) : Kept s0 (State.publish s src info) := by
  unfold State.publish
  repeat (first | with_reducible assumption | intro _ | with_reducible apply publishOn_kept | with_reducible apply kept_ite | split | dsimp only | with_reducible apply kept_ite | split | dsimp only)

theorem publishFree_kept {s0 : State} (s : State) (src : Source) (hk : Kept s0 s) : Kept s0 (State.publishFree s src) := by
  unfold State.publishFree
  repeat (first | with_reducible assumption | intro _ | with_reducible apply fresh_kept | with_reducible apply publish_kept | with_reducible apply kept_ite | split | dsimp only | with_reducible apply kept_mk | with_reducible apply kept_ite | split | dsimp only | with_reducible apply kept_free)

theorem mapDoms_kept {s0 : State} (s : State) (f : DomId → DomState → DomState) (hk : Kept s0 s) : Kept s0 (State.mapDoms s f) := by
  unfold State.mapDoms
  repeat (first | with_reducible assumption | intro _ | with_reducible apply publish_kept | with_reducible apply kept_ite | split | dsimp only | with_reducible apply kept_mk | with_reducible apply kept_ite | split | dsimp only | with_reducible apply kept_bias | with_reducible apply kept_power | with_reducible apply kept_domains)

theorem setDoms_kept {s0 : State} (s : State) (xs : List DomId) (v : DomState) (hk : Kept s0 s) : Kept s0 (State.setDoms s xs v) := by
  unfold State.setDoms
  repeat (first | with_reducible assumption | intro _ | with_reducible apply mapDoms_kept | with_reducible apply kept_ite | split | dsimp only | with_reducible apply kept_ite | split | dsimp only)

theorem updTimer_kept {s0 : State} (s : State) (t : TimerId) (f : Timer → Timer) (hk : Kept s0 s) : Kept s0 (State.updTimer s t f) := by
  unfold State.updTimer
  repeat (first | with_reducible assumption | intro _ | with_reducible apply kept_ite | split | dsimp only | with_reducible apply kept_mk | with_reducible apply kept_ite | split | dsimp only | with_reducible apply kept_fabric)

theorem timerStart_kept {s0 : State} (s : State) (t : TimerId) (hk : Kept s0 s) : Kept s0 (State.timerStart s t) := by
  unfold State.timerStart
  repeat (first | with_reducible assumption | intro _ | with_reducible apply raise_kept | with_reducible apply updTimer_kept | with_reducible apply kept_ite | split | dsimp only | with_reducible apply kept_mk | with_reducible apply kept_ite | split | dsimp only)

theorem timerHalt_kept {s0 : State} (s : State) (t : TimerId) (hk : Kept s0 s) : Kept s0 (State.timerHalt s t) := by
  unfold State.timerHalt
  repeat (first | with_reducible assumption | intro _ | with_reducible apply setFld_kept | with_reducible apply updTimer_kept | with_reducible apply kept_ite | split | dsimp only | with_reducible apply kept_mk | with_reducible apply kept_ite | split | dsimp only)

theorem timerStop_kept {s0 : State} (s : State) (t : TimerId) (hk : Kept s0 s) : Kept s0 (State.timerStop s t) := by
  unfold State.timerStop
  repeat (first | with_reducible assumption | intro _ | with_reducible apply setFld_kept | with_reducible apply timerHalt_kept | with_reducible apply kept_ite | split | dsimp only | with_reducible apply kept_ite | split | dsimp only)

theorem timerPublish_kept {s0 : State} (s : State) (t : TimerId) (hk : Kept s0 s) : Kept s0 (State.timerPublish s t) := by
  unfold State.timerPublish
  repeat (first | with_reducible assumption | intro _ | with_reducible apply publish_kept | with_reducible apply updTimer_kept | with_reducible apply timerHalt_kept | with_reducible apply kept_ite | split | dsimp only | with_reducible apply kept_mk | with_reducible apply kept_ite | split | dsimp only)

theorem timerInstant_kept {s0 : State} (s : State) (t : TimerId) (hk : Kept s0 s) : Kept s0 (State.timerInstant s t) := by
  unfold State.timerInstant
  repeat (first | with_reducible assumption | intro _ | with_reducible apply reachTime_kept | with_reducible apply updTimer_kept | with_reducible apply timerPublish_kept | with_reducible apply kept_ite | split | dsimp only | with_reducible apply kept_mk | with_reducible apply kept_ite | split | dsimp only)

theorem updEvOut_kept {s0 : State} (s : State) (j : EvOutId) (f : EvOut → EvOut) (hk : Kept s0 s) : Kept s0 (State.updEvOut s j f) := by
  unfold State.updEvOut
  repeat (first | with_reducible assumption | intro _ | with_reducible apply kept_ite | split | dsimp only | with_reducible apply kept_mk | with_reducible apply kept_ite | split | dsimp only | with_reducible apply kept_fabric)

theorem evOutDrive_kept {s0 : State} (s : State) (j : EvOutId) (hk : Kept s0 s) : Kept s0 (State.evOutDrive s j) := by
  unfold State.evOutDrive
  repeat (first | with_reducible assumption | intro _ | with_reducible apply raise_kept | with_reducible apply updEvOut_kept | with_reducible apply kept_ite | split | dsimp only | with_reducible apply kept_mk | with_reducible apply kept_ite | split | dsimp only)

theorem evOutEnd_kept {s0 : State} (s : State) (j : EvOutId) (hk : Kept s0 s) : Kept s0 (State.evOutEnd s j) := by
  unfold State.evOutEnd
  repeat (first | with_reducible assumption | intro _ | with_reducible apply setFld_kept | with_reducible apply updEvOut_kept | with_reducible apply kept_ite | split | dsimp only | with_reducible apply kept_ite | split | dsimp only)

theorem acknowledge_kept {s0 : State} (s : State) (ch : BeaconCh) (x : Consumer) (hk : Kept s0 s) : Kept s0 (State.acknowledge s ch x) := by
  unfold State.acknowledge
  repeat (first | with_reducible assumption | intro _ | with_reducible apply kept_ite | split | dsimp only | with_reducible apply kept_mk | with_reducible apply kept_ite | split | dsimp only | with_reducible apply kept_fabric)

theorem mergeAt_kept {s0 : State} (s : State) (i : ConsId) (extra : Nat) (hk : Kept s0 s) : Kept s0 (State.mergeAt s i extra) := by
  unfold State.mergeAt
  repeat (first | with_reducible assumption | intro _ | with_reducible apply raise_kept | with_reducible apply bump_kept | with_reducible apply kept_ite | split | dsimp only | with_reducible apply kept_ite | split | dsimp only)

theorem overrun_kept {s0 : State} (s : State) (i : ConsId) (hk : Kept s0 s) : Kept s0 (State.overrun s i) := by
  unfold State.overrun
  repeat (first | with_reducible assumption | intro _ | with_reducible apply raise_kept | with_reducible apply bump_kept | with_reducible apply kept_ite | split | dsimp only | with_reducible apply kept_ite | split | dsimp only)

theorem endDelivery_kept {s0 : State} (s : State) (ch : BeaconCh) (hk : Kept s0 s) : Kept s0 (State.endDelivery s ch) := by
  unfold State.endDelivery
  repeat (first | with_reducible assumption | intro _ | with_reducible apply setInFlight_kept | with_reducible apply kept_ite | split | dsimp only | with_reducible apply kept_mk | with_reducible apply kept_ite | split | dsimp only | with_reducible apply kept_fabric)

theorem legTimeout_kept {s0 : State} (s : State) (ch : BeaconCh) (n : Nat) (hk : Kept s0 s) : Kept s0 (State.legTimeout s ch n) := by
  unfold State.legTimeout
  repeat (first | with_reducible assumption | intro _ | with_reducible apply raise_kept | with_reducible apply bumpBy_kept | with_reducible apply endDelivery_kept | with_reducible apply kept_ite | split | dsimp only | with_reducible apply kept_ite | split | dsimp only)

end Sys2Proof.Laws
end

