-- ==== Sys2Proof/Laws/KeptKeepers.lean ====
section
/-! SUPPORT. What the operations of Machine/Keepers.lean keep (see Kept.lean). -/
namespace Sys2Proof.Laws
open Sys2Proof Sys2Proof.Machine

theorem updKeeper_kept {s0 : State} (s : State) (k : KeeperId) (f : Keeper → Keeper) (hk : Kept s0 s) : Kept s0 (State.updKeeper s k f) := by
  unfold State.updKeeper
  repeat (first | with_reducible assumption | intro _ | with_reducible apply kept_ite | split | dsimp only | with_reducible apply kept_mk | with_reducible apply kept_ite | split | dsimp only | with_reducible apply kept_keepers)

theorem discardRun_kept {s0 : State} (s : State) (k : KeeperId) (hk : Kept s0 s) : Kept s0 (State.discardRun s k) := by
  unfold State.discardRun
  repeat (first | with_reducible assumption | intro _ | with_reducible apply updKeeper_kept | with_reducible apply kept_ite | split | dsimp only | with_reducible apply kept_mk | with_reducible apply kept_ite | split | dsimp only | with_reducible apply kept_free)

theorem abandon_kept {s0 : State} (s : State) (k : KeeperId) (i : Fin 16) (hk : Kept s0 s) : Kept s0 (State.abandon s k i) := by
  unfold State.abandon
  repeat (first | with_reducible assumption | intro _ | with_reducible apply raise_kept | with_reducible apply bump_kept | with_reducible apply updKeeper_kept | with_reducible apply discardRun_kept | with_reducible apply kept_ite | split | dsimp only | with_reducible apply kept_mk | with_reducible apply kept_ite | split | dsimp only)

theorem leavePending_kept {s0 : State} (s : State) (k : KeeperId) (i : Fin 16) (p : Option Payload) (hk : Kept s0 s) : Kept s0 (State.leavePending s k i p) := by
  unfold State.leavePending
  repeat (first | with_reducible assumption | intro _ | with_reducible apply raise_kept | with_reducible apply kept_ite | split | dsimp only | with_reducible apply kept_mk | with_reducible apply kept_ite | split | dsimp only | with_reducible apply kept_fabric)

theorem activateKeeper_kept {s0 : State} (s : State) (k : KeeperId) (i : Fin 16) (p : Option Payload) (hk : Kept s0 s) : Kept s0 (State.activateKeeper s k i p) := by
  unfold State.activateKeeper
  repeat (first | with_reducible assumption | intro _ | with_reducible apply raise_kept | with_reducible apply abandon_kept | with_reducible apply leavePending_kept | with_reducible apply kept_ite | split | dsimp only | with_reducible apply kept_mk | with_reducible apply kept_ite | split | dsimp only | with_reducible apply kept_fabric)

theorem askRecover_kept {s0 : State} (s : State) (c : ChanId) (cause shd : Nat) (hk : Kept s0 s) : Kept s0 (State.askRecover s c cause shd) := by
  unfold State.askRecover
  repeat (first | with_reducible assumption | intro _ | with_reducible apply setFld_kept | with_reducible apply leavePending_kept | with_reducible apply activateKeeper_kept | with_reducible apply kept_ite | split | dsimp only | with_reducible apply kept_mk | with_reducible apply kept_ite | split | dsimp only | with_reducible apply kept_shadows)

end Sys2Proof.Laws
end

