-- ==== Sys2Proof/Laws/KeptLantern.lean ====
section
/-! SUPPORT. What the operations of Machine/Lantern.lean keep (see Kept.lean). -/
namespace Sys2Proof.Laws
open Sys2Proof Sys2Proof.Machine

theorem updNco_kept {s0 : State} (s : State) (c : ChanId) (f : Nco → Nco) (hk : Kept s0 s) : Kept s0 (State.updNco s c f) := by
  unfold State.updNco
  repeat (first | with_reducible assumption | intro _ | with_reducible apply updChan_kept | with_reducible apply kept_ite | split | dsimp only | with_reducible apply kept_mk | with_reducible apply kept_ite | split | dsimp only)

theorem ncoOpAt_kept {s0 : State} (s : State) (c : ChanId) (e : EntryWords) (t : Nat) (hk : Kept s0 s) : Kept s0 (State.ncoOpAt s c e t) := by
  unfold State.ncoOpAt
  repeat (first | with_reducible assumption | intro _ | with_reducible apply raise_kept | with_reducible apply updNco_kept | with_reducible apply kept_ite | split | dsimp only | with_reducible apply kept_ite | split | dsimp only)

theorem freqWrite_kept {s0 : State} (s : State) (c : ChanId) (k : Fin 8) (hi : Nat) (g : Nat) (hk : Kept s0 s) : Kept s0 (State.freqWrite s c k hi g) := by
  unfold State.freqWrite
  repeat (first | with_reducible assumption | intro _ | with_reducible apply updNco_kept | with_reducible apply kept_ite | split | dsimp only | with_reducible apply kept_mk | with_reducible apply kept_ite | split | dsimp only)

theorem freqHold_kept {s0 : State} (s : State) (c : ChanId) (k : Fin 8) (lo : Word) (hk : Kept s0 s) : Kept s0 (State.freqHold s c k lo) := by
  unfold State.freqHold
  repeat (first | with_reducible assumption | intro _ | with_reducible apply updNco_kept | with_reducible apply kept_ite | split | dsimp only | with_reducible apply kept_mk | with_reducible apply kept_ite | split | dsimp only)

theorem pairChanged_kept {s0 : State} (s : State) (c : ChanId) (was : Bool) (hk : Kept s0 s) : Kept s0 (State.pairChanged s c was) := by
  unfold State.pairChanged
  repeat (first | with_reducible assumption | intro _ | with_reducible apply updNco_kept | with_reducible apply idle_kept | with_reducible apply kept_ite | split | dsimp only | with_reducible apply kept_mk | with_reducible apply kept_ite | split | dsimp only)

end Sys2Proof.Laws
end

