-- ==== Sys2Proof/Laws/KeptPath.lean ====
section
/-! SUPPORT. What the operations of Machine/Path.lean keep (see Kept.lean). -/
namespace Sys2Proof.Laws
open Sys2Proof Sys2Proof.Machine

theorem reachPos_kept {s0 : State} (s : State) (c : ChanId) (p : Nat) (hk : Kept s0 s) : Kept s0 (State.reachPos s c p) := by
  unfold State.reachPos
  repeat (first | with_reducible assumption | intro _ | with_reducible apply reachGranC_kept | with_reducible apply kept_ite | split | dsimp only | with_reducible apply kept_ite | split | dsimp only)

theorem noteLead_kept {s0 : State} (s : State) (c : ChanId) (hk : Kept s0 s) : Kept s0 (State.noteLead s c) := by
  unfold State.noteLead
  repeat (first | with_reducible assumption | intro _ | with_reducible apply setFld_kept | with_reducible apply kept_ite | split | dsimp only | with_reducible apply kept_ite | split | dsimp only)

theorem report_kept {s0 : State} (s : State) (c : ChanId) (r : ChanReport) (hk : Kept s0 s) : Kept s0 (State.report s c r) := by
  unfold State.report
  repeat (first | with_reducible assumption | intro _ | with_reducible apply updChan_kept | with_reducible apply kept_ite | split | dsimp only | with_reducible apply kept_mk | with_reducible apply kept_ite | split | dsimp only)

theorem updShadow_kept {s0 : State} (s : State) (c : ChanId) (f : Shadow → Shadow) (hk : Kept s0 s) : Kept s0 (State.updShadow s c f) := by
  unfold State.updShadow
  repeat (first | with_reducible assumption | intro _ | with_reducible apply kept_ite | split | dsimp only | with_reducible apply kept_mk | with_reducible apply kept_ite | split | dsimp only | with_reducible apply kept_shadows)

theorem pauseBegins_kept {s0 : State} (s : State) (c : ChanId) (q : Nat) (hk : Kept s0 s) : Kept s0 (State.pauseBegins s c q) := by
  unfold State.pauseBegins
  repeat (first | with_reducible assumption | intro _ | with_reducible apply updChan_kept | with_reducible apply updShadow_kept | with_reducible apply kept_ite | split | dsimp only | with_reducible apply kept_mk | with_reducible apply kept_ite | split | dsimp only)

theorem pauseEnds_kept {s0 : State} (s : State) (c : ChanId) (p : Nat) (hk : Kept s0 s) : Kept s0 (State.pauseEnds s c p) := by
  unfold State.pauseEnds
  repeat (first | with_reducible assumption | intro _ | with_reducible apply updChan_kept | with_reducible apply updShadow_kept | with_reducible apply kept_ite | split | dsimp only | with_reducible apply kept_mk | with_reducible apply kept_ite | split | dsimp only)

end Sys2Proof.Laws
end

