-- ==== Sys2Proof/Laws/KeptSamples.lean ====
section
/-! SUPPORT. What the operations of Machine/Samples.lean keep (see Kept.lean). -/
namespace Sys2Proof.Laws
open Sys2Proof Sys2Proof.Machine

theorem updPipe_kept {s0 : State} (s : State) (x : ChanId) (f : Pipe → Pipe) (hk : Kept s0 s) : Kept s0 (State.updPipe s x f) := by
  unfold State.updPipe
  repeat (first | with_reducible assumption | intro _ | with_reducible apply updChan_kept | with_reducible apply kept_ite | split | dsimp only | with_reducible apply kept_mk | with_reducible apply kept_ite | split | dsimp only)

theorem saturated_kept {s0 : State} (s : State) (x : ChanId) (count : Nat) (grans : List Nat) (hk : Kept s0 s) : Kept s0 (State.saturated s x count grans) := by
  unfold State.saturated
  repeat (first | with_reducible assumption | intro _ | with_reducible apply raise_kept | with_reducible apply bumpBy_kept | with_reducible apply publish_kept | with_reducible apply updPipe_kept | with_reducible apply kept_foldl | with_reducible apply kept_foldl_snd | with_reducible apply kept_foldl_fst | with_reducible apply kept_ite | split | dsimp only | with_reducible apply kept_mk | with_reducible apply kept_ite | split | dsimp only)

theorem passTo_kept {s0 : State} (s : State) (c x : ChanId) (b : Nat) (hk : Kept s0 s) : Kept s0 (State.passTo s c x b) := by
  unfold State.passTo
  repeat (first | with_reducible assumption | intro _ | with_reducible apply raise_kept | with_reducible apply updPipe_kept | with_reducible apply saturated_kept | with_reducible apply kept_foldl | with_reducible apply kept_foldl_snd | with_reducible apply kept_foldl_fst | with_reducible apply kept_ite | split | dsimp only | with_reducible apply kept_mk | with_reducible apply kept_ite | split | dsimp only)

theorem pipeTo_kept {s0 : State} (s : State) (c : ChanId) (p : Nat) (hk : Kept s0 s) : Kept s0 (State.pipeTo s c p) := by
  unfold State.pipeTo
  repeat (first | with_reducible assumption | intro _ | with_reducible apply passTo_kept | with_reducible apply kept_foldl | with_reducible apply kept_foldl_snd | with_reducible apply kept_foldl_fst | with_reducible apply kept_ite | split | dsimp only | with_reducible apply kept_ite | split | dsimp only)

theorem pipeNow_kept {s0 : State} (s : State) (c : ChanId) (hk : Kept s0 s) : Kept s0 (State.pipeNow s c) := by
  unfold State.pipeNow
  repeat (first | with_reducible assumption | intro _ | with_reducible apply pipeTo_kept | with_reducible apply kept_ite | split | dsimp only | with_reducible apply kept_ite | split | dsimp only)

theorem pipesNow_kept {s0 : State} (s : State) (hk : Kept s0 s) : Kept s0 (State.pipesNow s) := by
  unfold State.pipesNow
  repeat (first | with_reducible assumption | intro _ | with_reducible apply pipeNow_kept | with_reducible apply kept_foldl | with_reducible apply kept_foldl_snd | with_reducible apply kept_foldl_fst | with_reducible apply kept_ite | split | dsimp only | with_reducible apply kept_ite | split | dsimp only)

theorem emptyChain_kept {s0 : State} (s : State) (c : ChanId) (factor : Nat) (hk : Kept s0 s) : Kept s0 (State.emptyChain s c factor) := by
  unfold State.emptyChain
  repeat (first | with_reducible assumption | intro _ | with_reducible apply updPipe_kept | with_reducible apply kept_foldl | with_reducible apply kept_foldl_snd | with_reducible apply kept_foldl_fst | with_reducible apply kept_ite | split | dsimp only | with_reducible apply kept_mk | with_reducible apply kept_ite | split | dsimp only)

theorem cutChain_kept {s0 : State} (s : State) (c : ChanId) (factor : Nat) (hk : Kept s0 s) : Kept s0 (State.cutChain s c factor) := by
  unfold State.cutChain
  repeat (first | with_reducible assumption | intro _ | with_reducible apply raise_kept | with_reducible apply emptyChain_kept | with_reducible apply kept_foldl | with_reducible apply kept_foldl_snd | with_reducible apply kept_foldl_fst | with_reducible apply kept_ite | split | dsimp only | with_reducible apply kept_ite | split | dsimp only)

theorem startPipes_kept {s0 : State} (s : State) (c : ChanId) (p : Nat) (hk : Kept s0 s) : Kept s0 (State.startPipes s c p) := by
  unfold State.startPipes
  repeat (first | with_reducible assumption | intro _ | with_reducible apply updPipe_kept | with_reducible apply kept_foldl | with_reducible apply kept_foldl_snd | with_reducible apply kept_foldl_fst | with_reducible apply kept_ite | split | dsimp only | with_reducible apply kept_mk | with_reducible apply kept_ite | split | dsimp only)

theorem dropHeld_kept {s0 : State} (s : State) (st : StreamId) (hk : Kept s0 s) : Kept s0 (State.dropHeld s st) := by
  unfold State.dropHeld
  repeat (first | with_reducible assumption | intro _ | with_reducible apply updPipe_kept | with_reducible apply kept_foldl | with_reducible apply kept_foldl_snd | with_reducible apply kept_foldl_fst | with_reducible apply kept_ite | split | dsimp only | with_reducible apply kept_mk | with_reducible apply kept_ite | split | dsimp only)

theorem cutLines_kept {s0 : State} (s : State) (c : ChanId) (hk : Kept s0 s) : Kept s0 (State.cutLines s c) := by
  unfold State.cutLines
  repeat (first | with_reducible assumption | intro _ | with_reducible apply updPipe_kept | with_reducible apply kept_foldl | with_reducible apply kept_foldl_snd | with_reducible apply kept_foldl_fst | with_reducible apply kept_ite | split | dsimp only | with_reducible apply kept_mk | with_reducible apply kept_ite | split | dsimp only)

theorem lantWritten_kept {s0 : State} (s : State) (x : ChanId) (g : Nat) (hk : Kept s0 s) : Kept s0 (State.lantWritten s x g) := by
  unfold State.lantWritten
  repeat (first | with_reducible assumption | intro _ | with_reducible apply updPipe_kept | with_reducible apply pipeNow_kept | with_reducible apply kept_ite | split | dsimp only | with_reducible apply kept_mk | with_reducible apply kept_ite | split | dsimp only)

end Sys2Proof.Laws
end

