-- ==== Sys2Proof/Laws/KeptWalk.lean ====
section
/-! SUPPORT. What the operations of Machine/Walk.lean keep (see Kept.lean). -/
namespace Sys2Proof.Laws
open Sys2Proof Sys2Proof.Machine

theorem askRange_kept {s0 : State} (s : State) (c : ChanId) (r : Bool) (t : Nat) (atStart : Bool) (hk : Kept s0 s) : Kept s0 (State.askRange s c r t atStart) := by
  unfold State.askRange
  repeat (first | with_reducible assumption | intro _ | with_reducible apply updChan_kept | with_reducible apply kept_ite | split | dsimp only | with_reducible apply kept_mk | with_reducible apply kept_ite | split | dsimp only)

theorem visitRange_kept {s0 : State} (s : State) (c : ChanId) (e : EntryWords) (t : Nat) (hk : Kept s0 s) : Kept s0 (State.visitRange s c e t) := by
  unfold State.visitRange
  repeat (first | with_reducible assumption | intro _ | with_reducible apply askRange_kept | with_reducible apply kept_ite | split | dsimp only | with_reducible apply kept_ite | split | dsimp only)

theorem visitPub_kept {s0 : State} (s : State) (c : ChanId) (e : EntryWords) (i : Nat) (isEnd : Bool) (hk : Kept s0 s) : Kept s0 (State.visitPub s c e i isEnd) := by
  unfold State.visitPub
  repeat (first | with_reducible assumption | intro _ | with_reducible apply setFld_kept | with_reducible apply publishOn_kept | with_reducible apply kept_ite | split | dsimp only | with_reducible apply kept_ite | split | dsimp only)

theorem tapEdge_kept {s0 : State} (s : State) (i : TrnIn) (fall : Bool) (t : Nat) (hk : Kept s0 s) : Kept s0 (State.tapEdge s i fall t) := by
  unfold State.tapEdge
  repeat (first | with_reducible assumption | intro _ | with_reducible apply kept_ite | split | dsimp only | with_reducible apply kept_mk | with_reducible apply kept_ite | split | dsimp only | with_reducible apply kept_taps)

theorem strobe_kept {s0 : State} (s : State) (c : ChanId) (e : EntryWords) (newVisit : Bool) (p : Nat) (hk : Kept s0 s) : Kept s0 (State.strobe s c e newVisit p) := by
  unfold State.strobe
  repeat (first | with_reducible assumption | intro _ | with_reducible apply tapEdge_kept | with_reducible apply kept_ite | split | dsimp only | with_reducible apply kept_ite | split | dsimp only)

theorem markerMove_kept {s0 : State} (s : State) (x : ChanId) (mk : Fin 2) (new : MarkerWalk) (u : Nat) (hk : Kept s0 s) : Kept s0 (State.markerMove s x mk new u) := by
  unfold State.markerMove
  repeat (first | with_reducible assumption | intro _ | with_reducible apply updChan_kept | with_reducible apply tapEdge_kept | with_reducible apply kept_ite | split | dsimp only | with_reducible apply kept_mk | with_reducible apply kept_ite | split | dsimp only)

theorem markersMove_kept {s0 : State} (s : State) (c : ChanId) (p : Nat) (hk : Kept s0 s) : Kept s0 (State.markersMove s c p) := by
  unfold State.markersMove
  repeat (first | with_reducible assumption | intro _ | with_reducible apply markerMove_kept | with_reducible apply kept_foldl | with_reducible apply kept_foldl_snd | with_reducible apply kept_foldl_fst | with_reducible apply kept_ite | split | dsimp only | with_reducible apply kept_ite | split | dsimp only)

theorem dropJump_kept {s0 : State} (s : State) (c : ChanId) (j : PendingJump) (hk : Kept s0 s) : Kept s0 (State.dropJump s c j) := by
  unfold State.dropJump
  repeat (first | with_reducible assumption | intro _ | with_reducible apply raise_kept | with_reducible apply bump_kept | with_reducible apply publish_kept | with_reducible apply kept_ite | split | dsimp only | with_reducible apply kept_ite | split | dsimp only)

theorem discardJump_kept {s0 : State} (s : State) (c : ChanId) (hk : Kept s0 s) : Kept s0 (State.discardJump s c) := by
  unfold State.discardJump
  repeat (first | with_reducible assumption | intro _ | with_reducible apply updChan_kept | with_reducible apply dropJump_kept | with_reducible apply kept_ite | split | dsimp only | with_reducible apply kept_mk | with_reducible apply kept_ite | split | dsimp only)

theorem cancelSwap_kept {s0 : State} (s : State) (c : ChanId) (hk : Kept s0 s) : Kept s0 (State.cancelSwap s c) := by
  unfold State.cancelSwap
  split
  · exact raise_kept _ _ _ (updChan_kept _ _ _ (kept_host hk rfl rfl))
  · exact hk

theorem endGaps_kept {s0 : State} (s : State) (c : ChanId) (hk : Kept s0 s) : Kept s0 (State.endGaps s c) := by
  unfold State.endGaps
  repeat (first | with_reducible assumption | intro _ | with_reducible apply updStream_kept | with_reducible apply dropHeld_kept | with_reducible apply underrun_kept | with_reducible apply kept_foldl | with_reducible apply kept_foldl_snd | with_reducible apply kept_foldl_fst | with_reducible apply kept_ite | split | dsimp only | with_reducible apply kept_mk | with_reducible apply kept_ite | split | dsimp only)

theorem streamSync_kept {s0 : State} (s : State) (st : StreamId) (p : Nat) (hk : Kept s0 s) : Kept s0 (State.streamSync s st p) := by
  unfold State.streamSync
  repeat (first | with_reducible assumption | intro _ | with_reducible apply bumpBy_kept | with_reducible apply updStream_kept | with_reducible apply kept_ite | split | dsimp only | with_reducible apply kept_mk | with_reducible apply kept_ite | split | dsimp only)

theorem playedTo_kept {s0 : State} (s : State) (c : ChanId) (p : Nat) (hk : Kept s0 s) : Kept s0 (State.playedTo s c p) := by
  unfold State.playedTo
  repeat (first | with_reducible assumption | intro _ | with_reducible apply bumpBy_kept | with_reducible apply pipeTo_kept | with_reducible apply streamSync_kept | with_reducible apply kept_ite | split | dsimp only | with_reducible apply kept_mk | with_reducible apply kept_ite | split | dsimp only)

theorem walkTo_kept {s0 : State} (s : State) (c : ChanId) (p : Nat) (hk : Kept s0 s) : Kept s0 (State.walkTo s c p) := by
  unfold State.walkTo
  repeat (first | with_reducible assumption | intro _ | with_reducible apply reachPos_kept | with_reducible apply noteLead_kept | with_reducible apply playedTo_kept | with_reducible apply kept_ite | split | dsimp only | with_reducible apply kept_ite | split | dsimp only)

theorem leaveVisit_kept {s0 : State} (s : State) (c : ChanId) (p : Nat) (timed : Bool) (hk : Kept s0 s) : Kept s0 (State.leaveVisit s c p timed) := by
  unfold State.leaveVisit
  repeat (first | with_reducible assumption | intro _ | with_reducible apply reachPos_kept | with_reducible apply noteLead_kept | with_reducible apply pipeTo_kept | with_reducible apply visitPub_kept | with_reducible apply walkTo_kept | with_reducible apply kept_ite | split | dsimp only | with_reducible apply kept_ite | split | dsimp only)

theorem visitEnd_kept {s0 : State} (s : State) (c : ChanId) (iters p : Nat) (hk : Kept s0 s) : Kept s0 (State.visitEnd s c iters p) := by
  unfold State.visitEnd
  repeat (first | with_reducible assumption | intro _ | with_reducible apply updChan_kept | with_reducible apply report_kept | with_reducible apply visitStart_kept | with_reducible apply kept_ite | split | dsimp only | with_reducible apply kept_ite | split | dsimp only)

theorem leavePlay_kept {s0 : State} (s : State) (c : ChanId) (st : ChanState) (p : Nat) (hk : Kept s0 s) : Kept s0 (State.leavePlay s c st p) := by
  unfold State.leavePlay
  repeat (first | with_reducible assumption | intro _ | with_reducible apply updChan_kept | with_reducible apply updNco_kept | with_reducible apply pauseEnds_kept | with_reducible apply markersMove_kept | with_reducible apply discardJump_kept | with_reducible apply cancelSwap_kept | with_reducible apply endGaps_kept | with_reducible apply idle_kept | with_reducible apply kept_ite | split | dsimp only | with_reducible apply kept_mk | with_reducible apply kept_ite | split | dsimp only)

theorem toIdle_kept {s0 : State} (s : State) (c : ChanId) (hk : Kept s0 s) : Kept s0 (State.toIdle s c) := by
  unfold State.toIdle
  repeat (first | with_reducible assumption | intro _ | with_reducible apply playedTo_kept | with_reducible apply leavePlay_kept | with_reducible apply idle_kept | with_reducible apply kept_ite | split | dsimp only | with_reducible apply kept_ite | split | dsimp only)

theorem cutPulses_kept {s0 : State} (s : State) (c : ChanId) (hk : Kept s0 s) : Kept s0 (State.cutPulses s c) := by
  unfold State.cutPulses
  repeat (first | with_reducible assumption | intro _ | with_reducible apply updChan_kept | with_reducible apply kept_foldl | with_reducible apply kept_foldl_snd | with_reducible apply kept_foldl_fst | with_reducible apply kept_ite | split | dsimp only | with_reducible apply kept_mk | with_reducible apply kept_ite | split | dsimp only)

theorem cutMarkers_kept {s0 : State} (s : State) (c : ChanId) (hk : Kept s0 s) : Kept s0 (State.cutMarkers s c) := by
  unfold State.cutMarkers
  repeat (first | with_reducible assumption | intro _ | with_reducible apply markersMove_kept | with_reducible apply cutPulses_kept | with_reducible apply kept_ite | split | dsimp only | with_reducible apply kept_ite | split | dsimp only)

theorem dropMarkers_kept {s0 : State} (s : State) (c : ChanId) (hk : Kept s0 s) : Kept s0 (State.dropMarkers s c) := by
  unfold State.dropMarkers
  repeat (first | with_reducible assumption | intro _ | with_reducible apply updChan_kept | with_reducible apply tapEdge_kept | with_reducible apply cutPulses_kept | with_reducible apply kept_foldl | with_reducible apply kept_foldl_snd | with_reducible apply kept_foldl_fst | with_reducible apply kept_ite | split | dsimp only | with_reducible apply kept_mk | with_reducible apply kept_ite | split | dsimp only | with_reducible apply kept_taps)

theorem enterFault_kept {s0 : State} (s : State) (c : ChanId) (hk : Kept s0 s) : Kept s0 (State.enterFault s c) := by
  unfold State.enterFault
  repeat (first | with_reducible assumption | intro _ | with_reducible apply updChan_kept | with_reducible apply updShadow_kept | with_reducible apply playedTo_kept | with_reducible apply leavePlay_kept | with_reducible apply cutMarkers_kept | with_reducible apply kept_ite | split | dsimp only | with_reducible apply kept_mk | with_reducible apply kept_ite | split | dsimp only)

theorem walkFault_kept {s0 : State} (s : State) (c : ChanId) (i code : Nat) (hk : Kept s0 s) : Kept s0 (State.walkFault s c i code) := by
  unfold State.walkFault
  repeat (first | with_reducible assumption | intro _ | with_reducible apply setFld_kept | with_reducible apply raise_kept | with_reducible apply publish_kept | with_reducible apply askRecover_kept | with_reducible apply enterFault_kept | with_reducible apply kept_ite | split | dsimp only | with_reducible apply kept_ite | split | dsimp only)

theorem enterFactor_kept {s0 : State} (s : State) (c : ChanId) (e : EntryWords) (why : PathChange) (hk : Kept s0 s) : Kept s0 (State.enterFactor s c e why) := by
  unfold State.enterFactor
  repeat (first | with_reducible assumption | intro _ | with_reducible apply updChan_kept | with_reducible apply emptyChain_kept | with_reducible apply cutChain_kept | with_reducible apply kept_ite | split | dsimp only | with_reducible apply kept_mk | with_reducible apply kept_ite | split | dsimp only)

theorem firstSample_kept {s0 : State} (s : State) (c : ChanId) (e : EntryWords) (newVisit : Bool) (p : Nat) (hk : Kept s0 s) : Kept s0 (State.firstSample s c e newVisit p) := by
  unfold State.firstSample
  repeat (first | with_reducible assumption | intro _ | with_reducible apply ncoOpAt_kept | with_reducible apply strobe_kept | with_reducible apply kept_ite | split | dsimp only | with_reducible apply kept_ite | split | dsimp only)

theorem visitStart_kept {s0 : State} (s : State) (c : ChanId) (i : Nat) (loopBack : Bool) (why : PathChange) (p : Nat) (hk : Kept s0 s) : Kept s0 (State.visitStart s c i loopBack why p) := by
  unfold State.visitStart
  repeat (first | with_reducible assumption | intro _ | with_reducible apply raise_kept | with_reducible apply updChan_kept | with_reducible apply publish_kept | with_reducible apply visitRange_kept | with_reducible apply visitPub_kept | with_reducible apply markersMove_kept | with_reducible apply walkFault_kept | with_reducible apply enterFactor_kept | with_reducible apply firstSample_kept | with_reducible apply kept_ite | split | dsimp only | with_reducible apply kept_mk | with_reducible apply kept_ite | split | dsimp only)

theorem restartAhead_kept {s0 : State} (s : State) (c : ChanId) (i g : Nat) (jump : Bool) (hk : Kept s0 s) : Kept s0 (State.restartAhead s c i g jump) := by
  unfold State.restartAhead
  repeat (first | with_reducible assumption | intro _ | with_reducible apply updChan_kept | with_reducible apply kept_ite | split | dsimp only | with_reducible apply kept_mk | with_reducible apply kept_ite | split | dsimp only)

theorem takeSwap_kept {s0 : State} (s : State) (c : ChanId) (iters p : Nat) (jumpDue : Bool) (hk : Kept s0 s) : Kept s0 (State.takeSwap s c iters p jumpDue) := by
  unfold State.takeSwap
  repeat (first | with_reducible assumption | intro _ | with_reducible apply raise_kept | with_reducible apply updChan_kept | with_reducible apply publish_kept | with_reducible apply report_kept | with_reducible apply pauseEnds_kept | with_reducible apply discardJump_kept | with_reducible apply endGaps_kept | with_reducible apply visitEnd_kept | with_reducible apply visitStart_kept | with_reducible apply restartAhead_kept | with_reducible apply swapDone_kept | with_reducible apply kept_ite | split | dsimp only | with_reducible apply kept_mk | with_reducible apply kept_ite | split | dsimp only)

theorem takeJump_kept {s0 : State} (s : State) (c : ChanId) (j : PendingJump) (iters p : Nat) (hk : Kept s0 s) : Kept s0 (State.takeJump s c j iters p) := by
  unfold State.takeJump
  repeat (first | with_reducible assumption | intro _ | with_reducible apply wr_kept | with_reducible apply setFld_kept | with_reducible apply raise_kept | with_reducible apply bump_kept | with_reducible apply updChan_kept | with_reducible apply publish_kept | with_reducible apply report_kept | with_reducible apply pauseEnds_kept | with_reducible apply endGaps_kept | with_reducible apply visitEnd_kept | with_reducible apply visitStart_kept | with_reducible apply restartAhead_kept | with_reducible apply kept_ite | split | dsimp only | with_reducible apply kept_mk | with_reducible apply kept_ite | split | dsimp only)

theorem stopAtEnd_kept {s0 : State} (s : State) (c : ChanId) (iters p : Nat) (hk : Kept s0 s) : Kept s0 (State.stopAtEnd s c iters p) := by
  unfold State.stopAtEnd
  repeat (first | with_reducible assumption | intro _ | with_reducible apply raise_kept | with_reducible apply publish_kept | with_reducible apply report_kept | with_reducible apply visitEnd_kept | with_reducible apply leavePlay_kept | with_reducible apply kept_ite | split | dsimp only | with_reducible apply kept_ite | split | dsimp only)

theorem iterationEnds_kept {s0 : State} (s : State) (c : ChanId) (hk : Kept s0 s) : Kept s0 (State.iterationEnds s c) := by
  unfold State.iterationEnds
  repeat (first | with_reducible assumption | intro _ | with_reducible apply raise_kept | with_reducible apply updChan_kept | with_reducible apply publish_kept | with_reducible apply walkTo_kept | with_reducible apply leaveVisit_kept | with_reducible apply visitEnd_kept | with_reducible apply walkFault_kept | with_reducible apply firstSample_kept | with_reducible apply visitStart_kept | with_reducible apply takeSwap_kept | with_reducible apply takeJump_kept | with_reducible apply stopAtEnd_kept | with_reducible apply kept_ite | split | dsimp only | with_reducible apply kept_mk | with_reducible apply kept_ite | split | dsimp only)

theorem beginPriming_kept {s0 : State} (s : State) (c : ChanId) (entry : Nat) (startAt : Option Nat) (withs : List ChanId) (f : Func) (g : Nat) (hk : Kept s0 s) : Kept s0 (State.beginPriming s c entry startAt withs f g) := by
  unfold State.beginPriming
  repeat (first | with_reducible assumption | intro _ | with_reducible apply updChan_kept | with_reducible apply updNco_kept | with_reducible apply report_kept | with_reducible apply updShadow_kept | with_reducible apply askRange_kept | with_reducible apply kept_ite | split | dsimp only | with_reducible apply kept_mk | with_reducible apply kept_ite | split | dsimp only)

theorem startInstantAt_kept {s0 : State} (s : State) (c : ChanId) (g dark : Nat) (hk : Kept s0 s) : Kept s0 (State.startInstantAt s c g dark) := by
  unfold State.startInstantAt
  repeat (first | with_reducible assumption | intro _ | with_reducible apply setFld_kept | with_reducible apply raise_kept | with_reducible apply bumpBy_kept | with_reducible apply updChan_kept | with_reducible apply updStream_kept | with_reducible apply reachGranC_kept | with_reducible apply publish_kept | with_reducible apply updNco_kept | with_reducible apply updShadow_kept | with_reducible apply startPipes_kept | with_reducible apply enterFactor_kept | with_reducible apply visitStart_kept | with_reducible apply primed_kept | with_reducible apply kept_foldl | with_reducible apply kept_foldl_snd | with_reducible apply kept_foldl_fst | with_reducible apply kept_ite | split | dsimp only | with_reducible apply kept_mk | with_reducible apply kept_ite | split | dsimp only)

end Sys2Proof.Laws
end

