-- ==== Sys2Proof/Laws/KeptJumps.lean ====
section
/-! SUPPORT. What the operations of Machine/Jumps.lean keep (see Kept.lean). -/
namespace Sys2Proof.Laws
open Sys2Proof Sys2Proof.Machine

theorem asBoundary_kept {s0 : State} (s : State) (c : ChanId) (j : PendingJump) (hk : Kept s0 s) : Kept s0 (State.asBoundary s c j).2 := by
  unfold State.asBoundary
  repeat (first | with_reducible assumption | intro _ | with_reducible apply fresh_kept | with_reducible apply kept_ite | split | dsimp only | with_reducible apply kept_mk | with_reducible apply kept_ite | split | dsimp only | with_reducible apply kept_free)

theorem makeRequest_kept {s0 : State} (s : State) (c : ChanId) (ch : BeaconCh) (r : Nat) (x : Candidate) (edge : Int) (hk : Kept s0 s) : Kept s0 (State.makeRequest s c ch r x edge).2 := by
  unfold State.makeRequest
  repeat (first | with_reducible assumption | intro _ | with_reducible apply raise_kept | with_reducible apply bump_kept | with_reducible apply publish_kept | with_reducible apply asBoundary_kept | with_reducible apply kept_ite | split | dsimp only | with_reducible apply kept_mk | with_reducible apply kept_ite | split | dsimp only)

theorem resolveJump_kept {s0 : State} (s : State) (c : ChanId) (j : PendingJump) (hk : Kept s0 s) : Kept s0 (State.resolveJump s c j).1 := by
  unfold State.resolveJump
  repeat (first | with_reducible assumption | intro _ | with_reducible apply updChan_kept | with_reducible apply dropJump_kept | with_reducible apply kept_ite | split | dsimp only | with_reducible apply kept_mk | with_reducible apply kept_ite | split | dsimp only)

theorem cutAhead_kept {s0 : State} (s : State) (c : ChanId) (j : PendingJump) (hk : Kept s0 s) : Kept s0 (State.cutAhead s c j) := by
  unfold State.cutAhead
  repeat (first | with_reducible assumption | intro _ | with_reducible apply updChan_kept | with_reducible apply kept_ite | split | dsimp only | with_reducible apply kept_mk | with_reducible apply kept_ite | split | dsimp only)

theorem sendOrders_kept {s0 : State} (s : State) (c : ChanId) (old new : JumpBatch) (hk : Kept s0 s) : Kept s0 (State.sendOrders s c old new) := by
  unfold State.sendOrders
  repeat (first | with_reducible assumption | intro _ | with_reducible apply updChan_kept | with_reducible apply kept_foldl | with_reducible apply kept_foldl_snd | with_reducible apply kept_foldl_fst | with_reducible apply kept_ite | split | dsimp only | with_reducible apply kept_mk | with_reducible apply kept_ite | split | dsimp only)

theorem registerEvent_kept {s0 : State} (s : State) (c : ChanId) (ch : BeaconCh) (stamp : Option StampRec) (hk : Kept s0 s) : Kept s0 (State.registerEvent s c ch stamp) := by
  unfold State.registerEvent
  repeat (first | with_reducible assumption | intro _ | with_reducible apply raise_kept | with_reducible apply bump_kept | with_reducible apply updChan_kept | with_reducible apply makeRequest_kept | with_reducible apply resolveJump_kept | with_reducible apply cutAhead_kept | with_reducible apply sendOrders_kept | with_reducible apply kept_ite | split | dsimp only | with_reducible apply kept_mk | with_reducible apply kept_ite | split | dsimp only)

theorem jumpEvent_kept {s0 : State} (s : State) (c : ChanId) (ch : BeaconCh) (merged : Nat) (hk : Kept s0 s) : Kept s0 (State.jumpEvent s c ch merged) := by
  unfold State.jumpEvent
  repeat (first | with_reducible assumption | intro _ | with_reducible apply raise_kept | with_reducible apply bump_kept | with_reducible apply acknowledge_kept | with_reducible apply registerEvent_kept | with_reducible apply kept_ite | split | dsimp only | with_reducible apply kept_mk | with_reducible apply kept_ite | split | dsimp only)

theorem groupOrder_kept {s0 : State} (s : State) (c : ChanId) (hk : Kept s0 s) : Kept s0 (State.groupOrder s c) := by
  unfold State.groupOrder
  repeat (first | with_reducible assumption | intro _ | with_reducible apply raise_kept | with_reducible apply updChan_kept | with_reducible apply publish_kept | with_reducible apply asBoundary_kept | with_reducible apply resolveJump_kept | with_reducible apply cutAhead_kept | with_reducible apply kept_ite | split | dsimp only | with_reducible apply kept_mk | with_reducible apply kept_ite | split | dsimp only)

theorem jumpReached_kept {s0 : State} (s : State) (c : ChanId) (hk : Kept s0 s) : Kept s0 (State.jumpReached s c) := by
  unfold State.jumpReached
  extract_lets x
  clear_value x
  split
  · rename_i j _ _
    split
    · exact kept_ite (iterationEnds_kept _ _ hk) hk
    · exact kept_ite (iterationEnds_kept _ _ hk) (kept_ite (takeJump_kept _ _ _ _ _ (leaveVisit_kept _ _ _ _ hk)) hk)
  · exact hk

theorem headRead_kept {s0 : State} (s : State) (c : ChanId) (place : Fin 8) (ok : Bool) (hk : Kept s0 s) : Kept s0 (State.headRead s c place ok) := by
  unfold State.headRead
  repeat (first | with_reducible assumption | intro _ | with_reducible apply raise_kept | with_reducible apply updChan_kept | with_reducible apply kept_ite | split | dsimp only | with_reducible apply kept_mk | with_reducible apply kept_ite | split | dsimp only)

end Sys2Proof.Laws
end

