-- ==== Sys2Proof/Laws/KeptResume.lean ====
section
/-! SUPPORT. What the operations of Machine/Resume.lean keep (see Kept.lean). -/
namespace Sys2Proof.Laws
open Sys2Proof Sys2Proof.Machine

theorem standAt_kept {s0 : State} (s : State) (c : ChanId) (k : KeptWalk) (r : Unbroken × PathEnd) (g : Nat) (hk : Kept s0 s) : Kept s0 (State.standAt s c k r g) := by
  unfold State.standAt
  repeat (first | with_reducible assumption | intro _ | with_reducible apply updChan_kept | with_reducible apply visitStart_kept | with_reducible apply kept_ite | split | dsimp only | with_reducible apply kept_mk | with_reducible apply kept_ite | split | dsimp only)

theorem resumeAt_kept {s0 : State} (s : State) (c : ChanId) (k : KeptWalk) (g : Nat) (hk : Kept s0 s) : Kept s0 (State.resumeAt s c k g) := by
  unfold State.resumeAt
  repeat (first | with_reducible assumption | intro _ | with_reducible apply updChan_kept | with_reducible apply standAt_kept | with_reducible apply kept_ite | split | dsimp only | with_reducible apply kept_mk | with_reducible apply kept_ite | split | dsimp only)

theorem passPiece_kept {s0 : State} (s : State) (c : ChanId) (p : PathPiece) (hk : Kept s0 s) : Kept s0 (State.passPiece s c p) := by
  unfold State.passPiece
  repeat (first | with_reducible assumption | intro _ | with_reducible apply ncoOpAt_kept | with_reducible apply visitRange_kept | with_reducible apply kept_ite | split | dsimp only | with_reducible apply kept_ite | split | dsimp only)

theorem skipStream_kept {s0 : State} (s : State) (c : ChanId) (e : EntryWords) (granules : Nat) (hk : Kept s0 s) : Kept s0 (State.skipStream s c e granules) := by
  unfold State.skipStream
  repeat (first | with_reducible assumption | intro _ | with_reducible apply bumpBy_kept | with_reducible apply updStream_kept | with_reducible apply kept_ite | split | dsimp only | with_reducible apply kept_mk | with_reducible apply kept_ite | split | dsimp only)

theorem passDark_kept {s0 : State} (s : State) (c : ChanId) (k : KeptWalk) (u : Unbroken) (pos : Nat) (hk : Kept s0 s) : Kept s0 (State.passDark s c k u pos) := by
  unfold State.passDark
  repeat (first | with_reducible assumption | intro _ | with_reducible apply passPiece_kept | with_reducible apply skipStream_kept | with_reducible apply kept_foldl | with_reducible apply kept_foldl_snd | with_reducible apply kept_foldl_fst | with_reducible apply kept_ite | split | dsimp only | with_reducible apply kept_ite | split | dsimp only)

theorem takeUpWalk_kept {s0 : State} (s : State) (c : ChanId) (g : Nat) (hk : Kept s0 s) : Kept s0 (State.takeUpWalk s c g) := by
  unfold State.takeUpWalk
  repeat (first | with_reducible assumption | intro _ | with_reducible apply updChan_kept | with_reducible apply updShadow_kept | with_reducible apply discardJump_kept | with_reducible apply visitStart_kept | with_reducible apply standAt_kept | with_reducible apply passDark_kept | with_reducible apply kept_ite | split | dsimp only | with_reducible apply kept_mk | with_reducible apply kept_ite | split | dsimp only)

end Sys2Proof.Laws
end

