-- ==== Sys2Proof/Laws/KeptRings.lean ====
section
/-! SUPPORT. What the operations of Machine/Rings.lean keep (see Kept.lean). -/
namespace Sys2Proof.Laws
open Sys2Proof Sys2Proof.Machine

theorem updDring_kept {s0 : State} (s : State) (r : RingId) (f : DRing → DRing) (hk : Kept s0 s) : Kept s0 (State.updDring s r f) := by
  unfold State.updDring
  repeat (first | with_reducible assumption | intro _ | with_reducible refine updHost_kept ?_ rfl rfl | with_reducible apply kept_ite | split | dsimp only | with_reducible apply kept_mk | with_reducible apply kept_ite | split | dsimp only)

theorem updRring_kept {s0 : State} (s : State) (r : RingId) (f : RRing → RRing) (hk : Kept s0 s) : Kept s0 (State.updRring s r f) := by
  unfold State.updRring
  repeat (first | with_reducible assumption | intro _ | with_reducible refine updHost_kept ?_ rfl rfl | with_reducible apply kept_ite | split | dsimp only | with_reducible apply kept_mk | with_reducible apply kept_ite | split | dsimp only)

theorem updTxn_kept {s0 : State} (s : State) (t : TxnId) (f : Txn → Txn) (hk : Kept s0 s) : Kept s0 (State.updTxn s t f) := by
  unfold State.updTxn
  repeat (first | with_reducible assumption | intro _ | with_reducible refine updHost_kept ?_ rfl rfl | with_reducible apply kept_ite | split | dsimp only | with_reducible apply kept_mk | with_reducible apply kept_ite | split | dsimp only)

theorem hostWrite_kept {s0 : State} (s : State) (a : Nat) (bs : List Byte) (h : Kept s0 s) : Kept s0 (s.hostWrite a bs) :=
  ⟨h.1, fun hi hc => ⟨(h.2 hi hc).1, Memory_wf_write _ a bs (h.2 hi hc).2.1, (h.2 hi hc).2.2⟩⟩

theorem requestVector_kept {s0 : State} (s : State) (v : Fin 128) (hk : Kept s0 s) : Kept s0 (State.requestVector s v) := by
  unfold State.requestVector
  repeat (first | with_reducible assumption | intro _ | with_reducible apply raise_kept | with_reducible apply kept_ite | split | dsimp only | with_reducible apply kept_ite | split | dsimp only)

theorem queueReport_kept {s0 : State} (s : State) (r : RingId) (rep : Report) (hk : Kept s0 s) : Kept s0 (State.queueReport s r rep) := by
  unfold State.queueReport
  repeat (first | with_reducible assumption | intro _ | with_reducible apply updRring_kept | with_reducible apply kept_ite | split | dsimp only | with_reducible apply kept_mk | with_reducible apply kept_ite | split | dsimp only)

theorem asyncReport_kept {s0 : State} (s : State) (r : RingId) (code : Byte) (detail : Nat) (hk : Kept s0 s) : Kept s0 (State.asyncReport s r code detail) := by
  unfold State.asyncReport
  repeat (first | with_reducible assumption | intro _ | with_reducible apply raise_kept | with_reducible apply bump_kept | with_reducible apply queueReport_kept | with_reducible apply kept_ite | split | dsimp only | with_reducible apply kept_ite | split | dsimp only)

theorem announce_kept {s0 : State} (s : State) (r : RingId) (irq : Bool) (hk : Kept s0 s) : Kept s0 (State.announce s r irq) := by
  unfold State.announce
  repeat (first | with_reducible assumption | intro _ | with_reducible apply updRring_kept | with_reducible apply requestVector_kept | with_reducible apply kept_ite | split | dsimp only | with_reducible apply kept_mk | with_reducible apply kept_ite | split | dsimp only)

theorem postReport_kept {s0 : State} (s : State) (r : RingId) (hk : Kept s0 s) : Kept s0 (State.postReport s r) := by
  unfold State.postReport
  repeat (first | with_reducible assumption | intro _ | with_reducible apply updRring_kept | with_reducible apply hostWrite_kept | with_reducible apply announce_kept | with_reducible apply kept_ite | split | dsimp only | with_reducible apply kept_mk | with_reducible apply kept_ite | split | dsimp only)

theorem postAll_kept {s0 : State} (s : State) (hk : Kept s0 s) : Kept s0 (State.postAll s) := by
  unfold State.postAll
  repeat (first | with_reducible assumption | intro _ | with_reducible apply postReport_kept | with_reducible apply kept_foldl | with_reducible apply kept_foldl_snd | with_reducible apply kept_foldl_fst | with_reducible apply kept_ite | split | dsimp only | with_reducible apply kept_ite | split | dsimp only)

theorem finish_kept {s0 : State} (s : State) (ref : DescRef) (status detail : Nat) (hk : Kept s0 s) : Kept s0 (State.finish s ref status detail) := by
  unfold State.finish
  repeat (first | with_reducible assumption | intro _ | with_reducible apply publishFree_kept | with_reducible apply report_kept | with_reducible apply queueReport_kept | with_reducible apply kept_ite | split | dsimp only | with_reducible apply kept_ite | split | dsimp only)

theorem complete_kept {s0 : State} (s : State) (ref : DescRef) (status detail : Nat) (hk : Kept s0 s) : Kept s0 (State.complete s ref status detail) := by
  unfold State.complete
  repeat (first | with_reducible assumption | intro _ | with_reducible apply updDring_kept | with_reducible apply finish_kept | with_reducible apply kept_ite | split | dsimp only | with_reducible apply kept_mk | with_reducible apply kept_ite | split | dsimp only)

theorem descriptor_kept {s0 : State} (s : State) (h : DescHdr) (code : Nat) (setsUp : Bool) (f : DescRef → State → State) (hk : Kept s0 s) (hf : ∀ a0 t, Kept s0 t → Kept s0 (f a0 t)) : Kept s0 (State.descriptor s h code setsUp f) := by
  unfold State.descriptor
  repeat (first | with_reducible assumption | intro _ | with_reducible apply updDring_kept | with_reducible apply complete_kept | with_reducible apply hf | with_reducible apply kept_ite | split | dsimp only | with_reducible apply kept_mk | with_reducible apply kept_ite | split | dsimp only)

theorem slotFreed_kept {s0 : State} (s : State) (t : TxnId) (hk : Kept s0 s) : Kept s0 (State.slotFreed s t) := by
  unfold State.slotFreed
  repeat (first | with_reducible assumption | intro _ | with_reducible apply setFld_kept | with_reducible apply kept_ite | split | dsimp only | with_reducible apply kept_ite | split | dsimp only)

theorem rollBack_kept {s0 : State} (s : State) (t : TxnId) (reason : Nat) (hk : Kept s0 s) : Kept s0 (State.rollBack s t reason) := by
  unfold State.rollBack
  repeat (first | with_reducible assumption | intro _ | with_reducible apply updTxn_kept | with_reducible apply complete_kept | with_reducible apply slotFreed_kept | with_reducible apply kept_ite | split | dsimp only | with_reducible apply kept_mk | with_reducible apply kept_ite | split | dsimp only)

theorem enterForm_kept {s0 : State} (s : State) (form : Nat) (hk : Kept s0 s) : Kept s0 (State.enterForm s form) := by
  unfold State.enterForm
  repeat (first | with_reducible assumption | intro _ | with_reducible apply asyncReport_kept | with_reducible apply rollBack_kept | with_reducible apply kept_foldl | with_reducible apply kept_foldl_snd | with_reducible apply kept_foldl_fst | with_reducible apply kept_ite | split | dsimp only | with_reducible apply kept_mk | with_reducible apply kept_ite | split | dsimp only)

end Sys2Proof.Laws
end

