-- ==== Sys2Proof/Laws/KeptLedger.lean ====
section
/-! SUPPORT. What the operations of Machine/Ledger.lean keep (see Kept.lean). -/
namespace Sys2Proof.Laws
open Sys2Proof Sys2Proof.Machine

theorem updLedger_kept {s0 : State} (s : State) (f : Ledger → Ledger) (hk : Kept s0 s) : Kept s0 (State.updLedger s f) := by
  unfold State.updLedger
  repeat (first | with_reducible assumption | intro _ | with_reducible apply kept_ite | split | dsimp only | with_reducible apply kept_mk | with_reducible apply kept_ite | split | dsimp only | with_reducible apply kept_ledger)

theorem logLedger_kept {s0 : State} (s : State) (kind die a b : Nat) (hk : Kept s0 s) : Kept s0 (State.logLedger s kind die a b) := by
  unfold State.logLedger
  repeat (first | with_reducible assumption | intro _ | with_reducible apply updLedger_kept | with_reducible apply kept_ite | split | dsimp only | with_reducible apply kept_mk | with_reducible apply kept_ite | split | dsimp only)

theorem retireDom_kept {s0 : State} (s : State) (x : DomId) (hk : Kept s0 s) : Kept s0 (State.retireDom s x) := by
  unfold State.retireDom
  repeat (first | with_reducible assumption | intro _ | with_reducible apply setDoms_kept | with_reducible apply logLedger_kept | with_reducible apply kept_ite | split | dsimp only | with_reducible apply kept_ite | split | dsimp only)

end Sys2Proof.Laws
end

