-- ==== Sys2Proof/Laws/KeptPlate.lean ====
section
/-! SUPPORT. What the operations of Machine/Plate.lean keep (see Kept.lean). -/
namespace Sys2Proof.Laws
open Sys2Proof Sys2Proof.Machine

theorem eccRecord_kept {s0 : State} (s : State) (d : DomeId) (b : BankId) (kind row : Nat) (publish : Bool) (hk : Kept s0 s) : Kept s0 (State.eccRecord s d b kind row publish) := by
  unfold State.eccRecord
  repeat (first | with_reducible assumption | intro _ | with_reducible apply setFld_kept | with_reducible apply raise_kept | with_reducible apply publish_kept | with_reducible apply kept_ite | split | dsimp only | with_reducible apply kept_ite | split | dsimp only)

theorem rowRepair_kept {s0 : State} (s : State) (d : DomeId) (b : BankId) (row : Nat) (hk : Kept s0 s) : Kept s0 (State.rowRepair s d b row) := by
  unfold State.rowRepair
  repeat (first | with_reducible assumption | intro _ | with_reducible apply raise_kept | with_reducible refine updBank_kept ?_ rfl | with_reducible apply eccRecord_kept | with_reducible apply kept_ite | split | dsimp only | with_reducible apply kept_mk | with_reducible apply kept_ite | split | dsimp only)

theorem plateCorrected_kept {s0 : State} (s : State) (d : DomeId) (b : BankId) (w : Nat) (hk : Kept s0 s) : Kept s0 (State.plateCorrected s d b w) := by
  unfold State.plateCorrected
  repeat (first | with_reducible assumption | intro _ | with_reducible apply raise_kept | with_reducible apply bump_kept | with_reducible refine updBank_kept ?_ rfl | with_reducible apply eccRecord_kept | with_reducible apply kept_ite | split | dsimp only | with_reducible apply kept_mk | with_reducible apply kept_ite | split | dsimp only)

theorem testCorrected_kept {s0 : State} (s : State) (d : DomeId) (b : BankId) (w : Nat) (hk : Kept s0 s) : Kept s0 (State.testCorrected s d b w) := by
  unfold State.testCorrected
  repeat (first | with_reducible assumption | intro _ | with_reducible refine updBank_kept ?_ rfl | with_reducible apply rowRepair_kept | with_reducible apply plateCorrected_kept | with_reducible apply kept_ite | split | dsimp only | with_reducible apply kept_mk | with_reducible apply kept_ite | split | dsimp only)

theorem plateUncorrectable_kept {s0 : State} (s : State) (d : DomeId) (b : BankId) (w : Nat) (hk : Kept s0 s) : Kept s0 (State.plateUncorrectable s d b w) := by
  unfold State.plateUncorrectable
  repeat (first | with_reducible assumption | intro _ | with_reducible apply raise_kept | with_reducible apply bump_kept | with_reducible refine updBank_kept ?_ rfl | with_reducible apply eccRecord_kept | with_reducible apply rowRepair_kept | with_reducible apply kept_ite | split | dsimp only | with_reducible apply kept_mk | with_reducible apply kept_ite | split | dsimp only)

theorem plateCheck_kept {s0 : State} (s : State) (d : DomeId) (b : BankId) (w : Nat) (ecc : Ecc) (hk : Kept s0 s) : Kept s0 (State.plateCheck s d b w ecc) := by
  unfold State.plateCheck
  repeat (first | with_reducible assumption | intro _ | with_reducible apply plateCorrected_kept | with_reducible apply plateUncorrectable_kept | with_reducible apply kept_ite | split | dsimp only | with_reducible apply kept_mk | with_reducible apply kept_ite | split | dsimp only)

theorem plateStore_kept {s0 : State} (s : State) (d : DomeId) (b : BankId) (w : Nat) (v : QWord) (hk : Kept s0 s) : Kept s0 (s.plateStore d b w v) :=
  updBank_wf hk (fun hd => Memory_wf_writeLE _ _ _ _ hd)

theorem plateCycle_kept {s0 : State} (s : State) (d : DomeId) (b : BankId) (pa pb : PlateAccess) (master : PlateMaster) (ecc : Ecc) (hk : Kept s0 s) : Kept s0 (s.plateCycle d b pa pb master ecc) := by
  unfold State.plateCycle
  extract_lets old out hit storeOf s1 s2 s3 s4 s5
  have h1 : Kept s0 s1 := by dsimp only [s1]; split <;> first | exact hk | exact plateCheck_kept _ _ _ _ _ hk
  have h2 : Kept s0 s2 := by
    dsimp only [s2]
    split
    · split
      · exact h1
      · exact plateCheck_kept _ _ _ _ _ h1
    · exact h1
  have h3 : Kept s0 s3 := by dsimp only [s3]; split <;> first | exact h2 | exact plateStore_kept _ _ _ _ _ h2
  have h4 : Kept s0 s4 := by dsimp only [s4]; split <;> first | exact h3 | exact plateStore_kept _ _ _ _ _ h3
  have h5 : Kept s0 s5 := kept_resp h4
  split
  · exact publish_kept _ _ _ (updBank_kept (raise_kept _ _ _ (bump_kept _ _ _ h5)) rfl)
  · exact h5

theorem forceRestore_kept {s0 : State} (s : State) (d : DomeId) (b : BankId) (hk : Kept s0 s) : Kept s0 (State.forceRestore s d b) := by
  unfold State.forceRestore
  repeat (first | with_reducible assumption | intro _ | with_reducible apply raise_kept | with_reducible apply bump_kept | with_reducible refine updBank_kept ?_ rfl | with_reducible apply kept_ite | split | dsimp only | with_reducible apply kept_mk | with_reducible apply kept_ite | split | dsimp only)

theorem plateAccess_kept {s0 : State} (s : State) (d : DomeId) (b : BankId) (pa pb : PlateAccess) (master : PlateMaster) (ecc : Ecc) (hk : Kept s0 s) : Kept s0 (State.plateAccess s d b pa pb master ecc) := by
  unfold State.plateAccess
  repeat (first | with_reducible assumption | intro _ | with_reducible refine updBank_kept ?_ rfl | with_reducible apply plateCycle_kept | with_reducible apply forceRestore_kept | with_reducible apply kept_ite | split | dsimp only | with_reducible apply kept_mk | with_reducible apply kept_ite | split | dsimp only | with_reducible apply kept_resp)

theorem plateProceed_kept {s0 : State} (s : State) (d : DomeId) (b : BankId) (hk : Kept s0 s) : Kept s0 (State.plateProceed s d b) := by
  unfold State.plateProceed
  repeat (first | with_reducible assumption | intro _ | with_reducible refine updBank_kept ?_ rfl | with_reducible apply plateCycle_kept | with_reducible apply kept_foldl | with_reducible apply kept_foldl_snd | with_reducible apply kept_foldl_fst | with_reducible apply kept_ite | split | dsimp only | with_reducible apply kept_mk | with_reducible apply kept_ite | split | dsimp only)

theorem plateRetry_kept {s0 : State} (s : State) (d : DomeId) (b : BankId) (hk : Kept s0 s) : Kept s0 (State.plateRetry s d b) := by
  unfold State.plateRetry
  repeat (first | with_reducible assumption | intro _ | with_reducible refine updBank_kept ?_ rfl | with_reducible apply plateAccess_kept | with_reducible apply kept_ite | split | dsimp only | with_reducible apply kept_mk | with_reducible apply kept_ite | split | dsimp only)

theorem regionDone_kept {s0 : State} (s : State) (d : DomeId) (b : BankId) (hk : Kept s0 s) : Kept s0 (State.regionDone s d b) := by
  unfold State.regionDone
  repeat (first | with_reducible assumption | intro _ | with_reducible apply setFld_kept | with_reducible apply bump_kept | with_reducible refine updBank_kept ?_ rfl | with_reducible apply kept_ite | split | dsimp only | with_reducible apply kept_mk | with_reducible apply kept_ite | split | dsimp only)

theorem testStart_kept {s0 : State} (s : State) (d : DomeId) (b : BankId) (hk : Kept s0 s) : Kept s0 (State.testStart s d b) := by
  unfold State.testStart
  repeat (first | with_reducible assumption | intro _ | with_reducible apply raise_kept | with_reducible refine updBank_kept ?_ rfl | with_reducible apply kept_ite | split | dsimp only | with_reducible apply kept_mk | with_reducible apply kept_ite | split | dsimp only)

theorem testPhase_kept {s0 : State} (s : State) (d : DomeId) (b : BankId) (bad : Option (Fin 2)) (ecc : Ecc) (hk : Kept s0 s) : Kept s0 (State.testPhase s d b bad ecc) := by
  unfold State.testPhase
  repeat (first | with_reducible assumption | intro _ | with_reducible apply raise_kept | with_reducible refine updBank_kept ?_ rfl | with_reducible apply rowRepair_kept | with_reducible apply testCorrected_kept | with_reducible apply regionDone_kept | with_reducible apply kept_ite | split | dsimp only | with_reducible apply kept_mk | with_reducible apply kept_ite | split | dsimp only)

theorem restoreDone_kept {s0 : State} (s : State) (d : DomeId) (b : BankId) (hk : Kept s0 s) : Kept s0 (State.restoreDone s d b) := by
  unfold State.restoreDone
  repeat (first | with_reducible assumption | intro _ | with_reducible apply setFld_kept | with_reducible apply bump_kept | with_reducible refine updBank_kept ?_ rfl | with_reducible apply plateProceed_kept | with_reducible apply regionDone_kept | with_reducible apply kept_ite | split | dsimp only | with_reducible apply kept_mk | with_reducible apply kept_ite | split | dsimp only)

theorem rowCopied_kept {s0 : State} (s : State) (d : DomeId) (b : BankId) (hk : Kept s0 s) : Kept s0 (State.rowCopied s d b) := by
  unfold State.rowCopied
  repeat (first | with_reducible assumption | intro _ | with_reducible apply setFld_kept | with_reducible apply raise_kept | with_reducible apply logLedger_kept | with_reducible refine updBank_kept ?_ rfl | with_reducible apply eccRecord_kept | with_reducible apply plateProceed_kept | with_reducible apply regionDone_kept | with_reducible apply kept_ite | split | dsimp only | with_reducible apply kept_mk | with_reducible apply kept_ite | split | dsimp only)

theorem plateLost_kept {s0 : State} (s : State) (d : DomeId) (b : BankId) (hk : Kept s0 s) : Kept s0 (s.plateLost d b) :=
  setFld_kept _ _ _ _ (updBank_wf hk (fun _ => rfl))

end Sys2Proof.Laws
end

