-- ==== Sys2Proof/Laws/KeptMooring.lean ====
section
/-! SUPPORT. What the operations of Machine/Mooring.lean keep (see Kept.lean). -/
namespace Sys2Proof.Laws
open Sys2Proof Sys2Proof.Machine

theorem updPort_kept {s0 : State} (s : State) (d : DomeId) (p : PortId) (f : MemPort → MemPort) (hk : Kept s0 s) : Kept s0 (State.updPort s d p f) := by
  unfold State.updPort
  repeat (first | with_reducible assumption | intro _ | with_reducible refine updMoor_kept ?_ rfl | with_reducible apply kept_ite | split | dsimp only | with_reducible apply kept_mk | with_reducible apply kept_ite | split | dsimp only)

theorem updSub_kept {s0 : State} (s : State) (d : DomeId) (p : PortId) (sc : Fin 4) (f : SubChannel → SubChannel) (hk : Kept s0 s) : Kept s0 (State.updSub s d p sc f) := by
  unfold State.updSub
  repeat (first | with_reducible assumption | intro _ | with_reducible apply updPort_kept | with_reducible apply kept_ite | split | dsimp only | with_reducible apply kept_mk | with_reducible apply kept_ite | split | dsimp only)

theorem setRole_kept {s0 : State} (s : State) (d : DomeId) (p : PortId) (r : Nat) (hk : Kept s0 s) : Kept s0 (State.setRole s d p r) := by
  unfold State.setRole
  repeat (first | with_reducible assumption | intro _ | with_reducible apply setFld_kept | with_reducible apply kept_ite | split | dsimp only | with_reducible apply kept_ite | split | dsimp only)

theorem toSetState_kept {s0 : State} (s : State) (d : DomeId) (v : Nat) (hk : Kept s0 s) : Kept s0 (State.toSetState s d v) := by
  unfold State.toSetState
  repeat (first | with_reducible assumption | intro _ | with_reducible apply setFld_kept | with_reducible apply kept_ite | split | dsimp only | with_reducible apply kept_ite | split | dsimp only)

theorem portEvent_kept {s0 : State} (s : State) (d : DomeId) (p : PortId) (code sc detail : Nat) (hk : Kept s0 s) : Kept s0 (State.portEvent s d p code sc detail) := by
  unfold State.portEvent
  repeat (first | with_reducible assumption | intro _ | with_reducible apply publish_kept | with_reducible apply kept_ite | split | dsimp only | with_reducible apply kept_ite | split | dsimp only)

theorem setEvent_kept {s0 : State} (s : State) (d : DomeId) (code detail : Nat) (hk : Kept s0 s) : Kept s0 (State.setEvent s d code detail) := by
  unfold State.setEvent
  repeat (first | with_reducible assumption | intro _ | with_reducible apply publish_kept | with_reducible apply kept_ite | split | dsimp only | with_reducible apply kept_mk | with_reducible apply kept_ite | split | dsimp only)

theorem poisonRead_kept {s0 : State} (s : State) (d : DomeId) (stripe : Nat) (hk : Kept s0 s) : Kept s0 (State.poisonRead s d stripe) := by
  unfold State.poisonRead
  repeat (first | with_reducible assumption | intro _ | with_reducible apply raise_kept | with_reducible apply bump_kept | with_reducible apply setEvent_kept | with_reducible apply kept_ite | split | dsimp only | with_reducible apply kept_ite | split | dsimp only)

theorem answerRead_kept {s0 : State} (s : State) (d : DomeId) (req : MemReq) (unit : Vector Byte 64) (hk : Kept s0 s) : Kept s0 (State.answerRead s d req unit) := by
  unfold State.answerRead
  repeat (first | with_reducible assumption | intro _ | with_reducible refine updMoor_kept ?_ rfl | with_reducible apply poisonRead_kept | with_reducible apply kept_ite | split | dsimp only | with_reducible apply kept_mk | with_reducible apply kept_ite | split | dsimp only)

theorem srAbort_kept {s0 : State} (s : State) (d : DomeId) (hk : Kept s0 s) : Kept s0 (State.srAbort s d) := by
  unfold State.srAbort
  repeat (first | with_reducible assumption | intro _ | with_reducible apply setFld_kept | with_reducible apply raise_kept | with_reducible apply bump_kept | with_reducible apply kept_ite | split | dsimp only | with_reducible apply kept_ite | split | dsimp only)

theorem memArrive_kept {s0 : State} (s : State) (d : DomeId) (req : MemReq) (hk : Kept s0 s) : Kept s0 (State.memArrive s d req) := by
  unfold State.memArrive
  repeat (first | with_reducible assumption | intro _ | with_reducible refine updMoor_kept ?_ rfl | with_reducible apply updSub_kept | with_reducible apply answerRead_kept | with_reducible apply srAbort_kept | with_reducible apply kept_ite | split | dsimp only | with_reducible apply kept_mk | with_reducible apply kept_ite | split | dsimp only | with_reducible apply kept_resp)

theorem setOwed_kept {s0 : State} (s : State) (d : DomeId) (p : PortId) (sc : Fin 4) (n : Nat) (hk : Kept s0 s) : Kept s0 (State.setOwed s d p sc n) := by
  unfold State.setOwed
  repeat (first | with_reducible assumption | intro _ | with_reducible apply setFld_kept | with_reducible apply kept_ite | split | dsimp only | with_reducible apply kept_ite | split | dsimp only)

theorem issueCmd_kept {s0 : State} (s : State) (d : DomeId) (p : PortId) (sc : Fin 4) (k : MemCmdKind) (hk : Kept s0 s) : Kept s0 (State.issueCmd s d p sc k) := by
  unfold State.issueCmd
  repeat (first | with_reducible assumption | intro _ | with_reducible apply updPort_kept | with_reducible apply kept_ite | split | dsimp only | with_reducible apply kept_mk | with_reducible apply kept_ite | split | dsimp only)

theorem reissue_kept {s0 : State} (s : State) (d : DomeId) (p : PortId) (oldest : Nat) (hk : Kept s0 s) : Kept s0 (State.reissue s d p oldest) := by
  unfold State.reissue
  repeat (first | with_reducible assumption | intro _ | with_reducible apply updPort_kept | with_reducible apply kept_ite | split | dsimp only | with_reducible apply kept_mk | with_reducible apply kept_ite | split | dsimp only)

theorem clockReplay_kept {s0 : State} (s : State) (d : DomeId) (hk : Kept s0 s) : Kept s0 (State.clockReplay s d) := by
  unfold State.clockReplay
  repeat (first | with_reducible assumption | intro _ | with_reducible apply fresh_kept | with_reducible apply reissue_kept | with_reducible apply kept_foldl | with_reducible apply kept_foldl_snd | with_reducible apply kept_foldl_fst | with_reducible apply kept_ite | split | dsimp only | with_reducible apply kept_mk | with_reducible apply kept_ite | split | dsimp only | with_reducible apply kept_free)

theorem readAround_kept {s0 : State} (s : State) (d : DomeId) (p : PortId) (sc : Fin 4) (hk : Kept s0 s) : Kept s0 (State.readAround s d p sc) := by
  unfold State.readAround
  repeat (first | with_reducible assumption | intro _ | with_reducible apply updSub_kept | with_reducible apply answerRead_kept | with_reducible apply kept_foldl | with_reducible apply kept_foldl_snd | with_reducible apply kept_foldl_fst | with_reducible apply kept_ite | split | dsimp only | with_reducible apply kept_mk | with_reducible apply kept_ite | split | dsimp only)

theorem refreshAll_kept {s0 : State} (s : State) (d : DomeId) (p : PortId) (sc : Fin 4) (hk : Kept s0 s) : Kept s0 (State.refreshAll s d p sc) := by
  unfold State.refreshAll
  repeat (first | with_reducible assumption | intro _ | with_reducible apply updSub_kept | with_reducible apply issueCmd_kept | with_reducible apply readAround_kept | with_reducible apply kept_ite | split | dsimp only | with_reducible apply kept_mk | with_reducible apply kept_ite | split | dsimp only)

theorem refreshBank_kept {s0 : State} (s : State) (d : DomeId) (p : PortId) (sc : Fin 4) (hk : Kept s0 s) : Kept s0 (State.refreshBank s d p sc) := by
  unfold State.refreshBank
  repeat (first | with_reducible assumption | intro _ | with_reducible apply updSub_kept | with_reducible apply setOwed_kept | with_reducible apply issueCmd_kept | with_reducible apply readAround_kept | with_reducible apply kept_ite | split | dsimp only | with_reducible apply kept_mk | with_reducible apply kept_ite | split | dsimp only)

theorem refreshDue_kept {s0 : State} (s : State) (d : DomeId) (p : PortId) (sc : Fin 4) (hk : Kept s0 s) : Kept s0 (State.refreshDue s d p sc) := by
  unfold State.refreshDue
  repeat (first | with_reducible assumption | intro _ | with_reducible apply setOwed_kept | with_reducible apply refreshAll_kept | with_reducible apply kept_ite | split | dsimp only | with_reducible apply kept_ite | split | dsimp only)

theorem doubleBegins_kept {s0 : State} (s : State) (d : DomeId) (p : PortId) (celsius : Nat) (hk : Kept s0 s) : Kept s0 (State.doubleBegins s d p celsius) := by
  unfold State.doubleBegins
  repeat (first | with_reducible assumption | intro _ | with_reducible apply raise_kept | with_reducible apply bumpBy_kept | with_reducible apply updSub_kept | with_reducible apply portEvent_kept | with_reducible apply setOwed_kept | with_reducible apply kept_foldl | with_reducible apply kept_foldl_snd | with_reducible apply kept_foldl_fst | with_reducible apply kept_ite | split | dsimp only | with_reducible apply kept_mk | with_reducible apply kept_ite | split | dsimp only)

theorem doubleEnds_kept {s0 : State} (s : State) (d : DomeId) (p : PortId) (celsius : Nat) (hk : Kept s0 s) : Kept s0 (State.doubleEnds s d p celsius) := by
  unfold State.doubleEnds
  repeat (first | with_reducible assumption | intro _ | with_reducible apply setFld_kept | with_reducible apply portEvent_kept | with_reducible apply setOwed_kept | with_reducible apply kept_foldl | with_reducible apply kept_foldl_snd | with_reducible apply kept_foldl_fst | with_reducible apply kept_ite | split | dsimp only | with_reducible apply kept_ite | split | dsimp only)

theorem temperature_kept {s0 : State} (s : State) (d : DomeId) (p : PortId) (celsius : BitVec 8) (above : Bool) (hk : Kept s0 s) : Kept s0 (State.temperature s d p celsius above) := by
  unfold State.temperature
  repeat (first | with_reducible assumption | intro _ | with_reducible apply setFld_kept | with_reducible apply updPort_kept | with_reducible apply doubleBegins_kept | with_reducible apply doubleEnds_kept | with_reducible apply kept_ite | split | dsimp only | with_reducible apply kept_mk | with_reducible apply kept_ite | split | dsimp only)

theorem activated_kept {s0 : State} (s : State) (d : DomeId) (p : PortId) (sc : Fin 4) (bank : Fin 16) (row : Nat) (hk : Kept s0 s) : Kept s0 (State.activated s d p sc bank row) := by
  unfold State.activated
  repeat (first | with_reducible assumption | intro _ | with_reducible apply bump_kept | with_reducible apply fresh_kept | with_reducible apply updPort_kept | with_reducible apply updSub_kept | with_reducible apply kept_ite | split | dsimp only | with_reducible apply kept_mk | with_reducible apply kept_ite | split | dsimp only | with_reducible apply kept_free)

theorem openRowFor_kept {s0 : State} (s : State) (d : DomeId) (p : PortId) (sc : Fin 4) (x : Waiting) (keep : Bool) (hk : Kept s0 s) : Kept s0 (State.openRowFor s d p sc x keep) := by
  unfold State.openRowFor
  repeat (first | with_reducible assumption | intro _ | with_reducible apply updSub_kept | with_reducible apply issueCmd_kept | with_reducible apply activated_kept | with_reducible apply kept_ite | split | dsimp only | with_reducible apply kept_mk | with_reducible apply kept_ite | split | dsimp only)

theorem issueRequest_kept {s0 : State} (s : State) (d : DomeId) (p : PortId) (sc : Fin 4) (w : Waiting) (hk : Kept s0 s) : Kept s0 (s.issueRequest d p sc w) := by
  cases w with
  | read r => exact answerRead_kept _ _ _ _ (updSub_kept _ _ _ _ _ (issueCmd_kept _ _ _ _ _ (openRowFor_kept _ _ _ _ _ _ hk)))
  | write w =>
    rw [State.issueRequest]
    split
    · exact hk
    · extract_lets read whole parity b s1
      have h1 : Kept s0 s1 := issueCmd_kept _ _ _ _ _ (openRowFor_kept _ _ _ _ _ _ hk)
      clear_value s1
      exact updMoor_kept h1 rfl

theorem neighbourNow_kept {s0 : State} (s : State) (d : DomeId) (p : PortId) (sc : Fin 4) (n : Neighbour) (hk : Kept s0 s) : Kept s0 (State.neighbourNow s d p sc n) := by
  unfold State.neighbourNow
  repeat (first | with_reducible assumption | intro _ | with_reducible apply updSub_kept | with_reducible apply issueCmd_kept | with_reducible apply kept_ite | split | dsimp only | with_reducible apply kept_mk | with_reducible apply kept_ite | split | dsimp only)

theorem srEnter_kept {s0 : State} (s : State) (d : DomeId) (cause : SrCause) (hk : Kept s0 s) : Kept s0 (State.srEnter s d cause) := by
  unfold State.srEnter
  repeat (first | with_reducible assumption | intro _ | with_reducible apply wr_kept | with_reducible apply setFld_kept | with_reducible apply raise_kept | with_reducible refine updMoor_kept ?_ rfl | with_reducible apply updSub_kept | with_reducible apply setEvent_kept | with_reducible apply idle_kept | with_reducible apply kept_foldl | with_reducible apply kept_foldl_snd | with_reducible apply kept_foldl_fst | with_reducible apply kept_ite | split | dsimp only | with_reducible apply kept_mk | with_reducible apply kept_ite | split | dsimp only)

theorem srLeave_kept {s0 : State} (s : State) (d : DomeId) (hk : Kept s0 s) : Kept s0 (State.srLeave s d) := by
  unfold State.srLeave
  repeat (first | with_reducible assumption | intro _ | with_reducible apply wr_kept | with_reducible apply setFld_kept | with_reducible refine updMoor_kept ?_ rfl | with_reducible apply setEvent_kept | with_reducible apply kept_foldl | with_reducible apply kept_foldl_snd | with_reducible apply kept_foldl_fst | with_reducible apply kept_ite | split | dsimp only | with_reducible apply kept_mk | with_reducible apply kept_ite | split | dsimp only)

theorem lastRow_kept {s0 : State} (s : State) (d : DomeId) (p : PortId) (sc : Fin 4) (hk : Kept s0 s) : Kept s0 (State.lastRow s d p sc) := by
  unfold State.lastRow
  repeat (first | with_reducible assumption | intro _ | with_reducible apply setOwed_kept | with_reducible apply refreshAll_kept | with_reducible apply refreshBank_kept | with_reducible apply neighbourNow_kept | with_reducible apply srEnter_kept | with_reducible apply idle_kept | with_reducible apply issueRequest_kept | with_reducible apply kept_ite | split | dsimp only | with_reducible apply kept_mk | with_reducible apply kept_ite | split | dsimp only)

theorem commandIssue_kept {s0 : State} (s : State) (d : DomeId) (p : PortId) (sc : Fin 4) (hk : Kept s0 s) : Kept s0 (State.commandIssue s d p sc) := by
  unfold State.commandIssue
  repeat (first | with_reducible assumption | intro _ | with_reducible apply updSub_kept | with_reducible apply refreshAll_kept | with_reducible apply neighbourNow_kept | with_reducible apply lastRow_kept | with_reducible apply issueRequest_kept | with_reducible apply kept_ite | split | dsimp only | with_reducible apply kept_mk | with_reducible apply kept_ite | split | dsimp only)

theorem writeDone_kept {s0 : State} (s : State) (d : DomeId) (id : Nat) (hk : Kept s0 s) : Kept s0 (s.writeDone d id) := by
  unfold State.writeDone
  split
  · exact hk
  · refine updMoor_wf (pipesNow_kept _ hk) (fun hd => ?_)
    dsimp only
    split
    · exact Memory_wf_write _ _ _ hd
    · exact hd

theorem dataWrite_kept {s0 : State} (s : State) (d : DomeId) (a : Nat) (bs : List Byte) (hk : Kept s0 s) : Kept s0 (s.dataWrite d a bs) :=
  updMoor_wf (pipesNow_kept _ hk) (fun hd => Memory_wf_write _ _ _ hd)

theorem scrubRead_kept {s0 : State} (s : State) (d : DomeId) (stripe : Nat) (mismatch : Bool) (hk : Kept s0 s) : Kept s0 (State.scrubRead s d stripe mismatch) := by
  unfold State.scrubRead
  repeat (first | with_reducible assumption | intro _ | with_reducible apply setFld_kept | with_reducible apply raise_kept | with_reducible apply bump_kept | with_reducible apply setEvent_kept | with_reducible apply kept_ite | split | dsimp only | with_reducible apply kept_ite | split | dsimp only)

theorem markRetired_kept {s0 : State} (s : State) (d : DomeId) (p : PortId) (hk : Kept s0 s) : Kept s0 (State.markRetired s d p) := by
  unfold State.markRetired
  repeat (first | with_reducible assumption | intro _ | with_reducible apply raise_kept | with_reducible apply logLedger_kept | with_reducible apply setRole_kept | with_reducible apply portEvent_kept | with_reducible apply kept_ite | split | dsimp only | with_reducible apply kept_ite | split | dsimp only)

theorem retireGone_kept {s0 : State} (s : State) (d : DomeId) (hk : Kept s0 s) : Kept s0 (State.retireGone s d) := by
  unfold State.retireGone
  repeat (first | with_reducible assumption | intro _ | with_reducible apply retireDom_kept | with_reducible apply kept_foldl | with_reducible apply kept_foldl_snd | with_reducible apply kept_foldl_fst | with_reducible apply kept_ite | split | dsimp only | with_reducible apply kept_ite | split | dsimp only)

theorem retirePort_kept {s0 : State} (s : State) (d : DomeId) (p : PortId) (hk : Kept s0 s) : Kept s0 (State.retirePort s d p) := by
  unfold State.retirePort
  repeat (first | with_reducible assumption | intro _ | with_reducible apply setFld_kept | with_reducible apply raise_kept | with_reducible apply enterForm_kept | with_reducible refine updMoor_kept ?_ rfl | with_reducible apply toSetState_kept | with_reducible apply markRetired_kept | with_reducible apply retireGone_kept | with_reducible apply kept_ite | split | dsimp only | with_reducible apply kept_mk | with_reducible apply kept_ite | split | dsimp only)

theorem parityAlert_kept {s0 : State} (s : State) (d : DomeId) (p : PortId) (oldest : Nat) (hk : Kept s0 s) : Kept s0 (State.parityAlert s d p oldest) := by
  unfold State.parityAlert
  repeat (first | with_reducible assumption | intro _ | with_reducible apply raise_kept | with_reducible apply bump_kept | with_reducible apply updPort_kept | with_reducible apply portEvent_kept | with_reducible apply reissue_kept | with_reducible apply retirePort_kept | with_reducible apply kept_ite | split | dsimp only | with_reducible apply kept_mk | with_reducible apply kept_ite | split | dsimp only)

theorem detectionFails_kept {s0 : State} (s : State) (d : DomeId) (p : PortId) (a : Nat) (uncorrectable : Bool) (hk : Kept s0 s) : Kept s0 (State.detectionFails s d p a uncorrectable) := by
  unfold State.detectionFails
  repeat (first | with_reducible assumption | intro _ | with_reducible apply raise_kept | with_reducible apply bump_kept | with_reducible refine updMoor_kept ?_ rfl | with_reducible apply updPort_kept | with_reducible apply portEvent_kept | with_reducible apply poisonRead_kept | with_reducible apply retirePort_kept | with_reducible apply kept_ite | split | dsimp only | with_reducible apply kept_mk | with_reducible apply kept_ite | split | dsimp only)

theorem migrationStart_kept {s0 : State} (s : State) (d : DomeId) (hk : Kept s0 s) : Kept s0 (State.migrationStart s d) := by
  unfold State.migrationStart
  repeat (first | with_reducible assumption | intro _ | with_reducible apply setFld_kept | with_reducible apply raise_kept | with_reducible apply toSetState_kept | with_reducible apply setEvent_kept | with_reducible apply kept_ite | split | dsimp only | with_reducible apply kept_ite | split | dsimp only)

theorem migrationAsked_kept {s0 : State} (s : State) (d : DomeId) (hk : Kept s0 s) : Kept s0 (State.migrationAsked s d) := by
  unfold State.migrationAsked
  repeat (first | with_reducible assumption | intro _ | with_reducible apply migrationStart_kept | with_reducible apply kept_ite | split | dsimp only | with_reducible apply kept_ite | split | dsimp only)

theorem spareRetrained_kept {s0 : State} (s : State) (d : DomeId) (ok : Bool) (hk : Kept s0 s) : Kept s0 (State.spareRetrained s d ok) := by
  unfold State.spareRetrained
  repeat (first | with_reducible assumption | intro _ | with_reducible apply setFld_kept | with_reducible apply raise_kept | with_reducible apply logLedger_kept | with_reducible refine updMoor_kept ?_ rfl | with_reducible apply setRole_kept | with_reducible apply toSetState_kept | with_reducible apply portEvent_kept | with_reducible apply markRetired_kept | with_reducible apply retireGone_kept | with_reducible apply migrationStart_kept | with_reducible apply kept_ite | split | dsimp only | with_reducible apply kept_mk | with_reducible apply kept_ite | split | dsimp only)

theorem stripeMigrated_kept {s0 : State} (s : State) (d : DomeId) (hk : Kept s0 s) : Kept s0 (State.stripeMigrated s d) := by
  unfold State.stripeMigrated
  repeat (first | with_reducible assumption | intro _ | with_reducible apply setFld_kept | with_reducible apply raise_kept | with_reducible refine updMoor_kept ?_ rfl | with_reducible apply setRole_kept | with_reducible apply toSetState_kept | with_reducible apply setEvent_kept | with_reducible apply retireGone_kept | with_reducible apply kept_ite | split | dsimp only | with_reducible apply kept_mk | with_reducible apply kept_ite | split | dsimp only)

theorem idleEntry_kept {s0 : State} (s : State) (d : DomeId) (hk : Kept s0 s) : Kept s0 (State.idleEntry s d) := by
  unfold State.idleEntry
  repeat (first | with_reducible assumption | intro _ | with_reducible apply setFld_kept | with_reducible refine updMoor_kept ?_ rfl | with_reducible apply idle_kept | with_reducible apply kept_ite | split | dsimp only | with_reducible apply kept_mk | with_reducible apply kept_ite | split | dsimp only)

theorem selfRefreshExit_kept {s0 : State} (s : State) (d : DomeId) (hk : Kept s0 s) : Kept s0 (State.selfRefreshExit s d) := by
  unfold State.selfRefreshExit
  repeat (first | with_reducible assumption | intro _ | with_reducible apply srLeave_kept | with_reducible apply kept_ite | split | dsimp only | with_reducible apply kept_ite | split | dsimp only)

theorem freqStart_kept {s0 : State} (s : State) (d : DomeId) (div : Nat) (hk : Kept s0 s) : Kept s0 (State.freqStart s d div) := by
  unfold State.freqStart
  repeat (first | with_reducible assumption | intro _ | with_reducible apply setFld_kept | with_reducible apply raise_kept | with_reducible refine updMoor_kept ?_ rfl | with_reducible apply srEnter_kept | with_reducible apply kept_ite | split | dsimp only | with_reducible apply kept_mk | with_reducible apply kept_ite | split | dsimp only)

theorem setDivider_kept {s0 : State} (s : State) (k : Fin 12) (div : Nat) (hk : Kept s0 s) : Kept s0 (State.setDivider s k div) := by
  unfold State.setDivider
  repeat (first | with_reducible assumption | intro _ | with_reducible apply setFld_kept | with_reducible apply updMer_kept | with_reducible apply kept_foldl | with_reducible apply kept_foldl_snd | with_reducible apply kept_foldl_fst | with_reducible apply kept_ite | split | dsimp only | with_reducible apply kept_mk | with_reducible apply kept_ite | split | dsimp only)

theorem freqDone_kept {s0 : State} (s : State) (d : DomeId) (hk : Kept s0 s) : Kept s0 (State.freqDone s d) := by
  unfold State.freqDone
  repeat (first | with_reducible assumption | intro _ | with_reducible apply setFld_kept | with_reducible apply setEvent_kept | with_reducible apply srLeave_kept | with_reducible apply setDivider_kept | with_reducible apply kept_ite | split | dsimp only | with_reducible apply kept_ite | split | dsimp only)

theorem rowTimeout_kept {s0 : State} (s : State) (d : DomeId) (p : PortId) (sc : Fin 4) (b : Fin 16) (hk : Kept s0 s) : Kept s0 (State.rowTimeout s d p sc b) := by
  unfold State.rowTimeout
  repeat (first | with_reducible assumption | intro _ | with_reducible apply updSub_kept | with_reducible apply issueCmd_kept | with_reducible apply kept_ite | split | dsimp only | with_reducible apply kept_mk | with_reducible apply kept_ite | split | dsimp only)

end Sys2Proof.Laws
end

