-- ==== Sys2Proof/Laws/KeptStreams.lean ====
section
/-! SUPPORT. What the operations of Machine/Streams.lean keep (see Kept.lean). -/
namespace Sys2Proof.Laws
open Sys2Proof Sys2Proof.Machine

theorem streamEvent_kept {s0 : State} (s : State) (st : StreamId) (e : StreamEvent) (detail : Nat) (hk : Kept s0 s) : Kept s0 (State.streamEvent s st e detail) := by
  unfold State.streamEvent
  repeat (first | with_reducible assumption | intro _ | with_reducible apply publish_kept | with_reducible apply kept_ite | split | dsimp only | with_reducible apply kept_ite | split | dsimp only)

theorem streamMarks_kept {s0 : State} (s : State) (st : StreamId) (fill low high : Nat) (hk : Kept s0 s) : Kept s0 (State.streamMarks s st fill low high) := by
  unfold State.streamMarks
  repeat (first | with_reducible assumption | intro _ | with_reducible apply raise_kept | with_reducible apply updStream_kept | with_reducible apply streamEvent_kept | with_reducible apply kept_ite | split | dsimp only | with_reducible apply kept_mk | with_reducible apply kept_ite | split | dsimp only)

theorem fillChanged_kept {s0 : State} (s : State) (st : StreamId) (before : Nat) (hk : Kept s0 s) : Kept s0 (State.fillChanged s st before) := by
  unfold State.fillChanged
  repeat (first | with_reducible assumption | intro _ | with_reducible apply streamMarks_kept | with_reducible apply kept_ite | split | dsimp only | with_reducible apply kept_ite | split | dsimp only)

theorem attachStream_kept {s0 : State} (s : State) (st : StreamId) (f : Func) (hk : Kept s0 s) : Kept s0 (State.attachStream s st f) := by
  unfold State.attachStream
  repeat (first | with_reducible assumption | intro _ | with_reducible apply raise_kept | with_reducible apply updStream_kept | with_reducible apply kept_ite | split | dsimp only | with_reducible apply kept_mk | with_reducible apply kept_ite | split | dsimp only)

theorem detachStream_kept {s0 : State} (s : State) (st : StreamId) (hk : Kept s0 s) : Kept s0 (s.detachStream st) :=
  updStream_kept _ _ _ (setFld_kept _ _ _ _ (updMoor_wf hk (fun hd => Memory_wf_filter _ _ hd)))

theorem writeAttach_kept {s0 : State} (s : State) (st : StreamId) (on : Bool) (f : Func) (hk : Kept s0 s) : Kept s0 (State.writeAttach s st on f) := by
  unfold State.writeAttach
  repeat (first | with_reducible assumption | intro _ | with_reducible apply setFld_kept | with_reducible apply raise_kept | with_reducible apply attachStream_kept | with_reducible apply detachStream_kept | with_reducible apply kept_ite | split | dsimp only | with_reducible apply kept_mk | with_reducible apply kept_ite | split | dsimp only)

theorem writeLimit_kept {s0 : State} (s : State) (st : StreamId) (v : Word) (hk : Kept s0 s) : Kept s0 (State.writeLimit s st v) := by
  unfold State.writeLimit
  repeat (first | with_reducible assumption | intro _ | with_reducible apply wr_kept | with_reducible apply setFld_kept | with_reducible apply raise_kept | with_reducible apply kept_ite | split | dsimp only | with_reducible apply kept_ite | split | dsimp only)

theorem writeMarks_kept {s0 : State} (s : State) (st : StreamId) (second : Bool) (v : Word) (hk : Kept s0 s) : Kept s0 (State.writeMarks s st second v) := by
  unfold State.writeMarks
  repeat (first | with_reducible assumption | intro _ | with_reducible apply wr_kept | with_reducible apply raise_kept | with_reducible apply streamMarks_kept | with_reducible apply kept_ite | split | dsimp only | with_reducible apply kept_ite | split | dsimp only)

theorem pullBlocks_kept {s0 : State} (st : StreamId) (n : Nat) (s : State) (hk : Kept s0 s) : Kept s0 (State.pullBlocks st n s) := by
  induction n generalizing s with
  | zero => exact hk
  | succ n ih =>
    unfold State.pullBlocks
    split
    · exact ih _ (updStream_kept _ _ _ hk)
    · exact hk

theorem writeConsumer_kept {s0 : State} (s : State) (st : StreamId) (hk : Kept s0 s) : Kept s0 (State.writeConsumer s st) := by
  unfold State.writeConsumer
  repeat (first | with_reducible assumption | intro _ | with_reducible apply hostWrite_kept | with_reducible apply kept_ite | split | dsimp only | with_reducible apply kept_ite | split | dsimp only)

theorem consumeNext_kept {s0 : State} {s t : State} {st : StreamId} (hk : Kept s0 s) (e : s.consumeNext st = some t) : Kept s0 t := by
  unfold State.consumeNext at e
  dsimp only at e
  split at e
  · simp only [Option.some.injEq] at e
    subst e
    refine writeConsumer_kept _ _ (fillChanged_kept _ _ _ (updStream_kept _ _ _ ?_))
    split
    · exact bump_kept _ _ _ hk
    · exact hk
  · cases e

theorem consumeAll_kept {s0 : State} (st : StreamId) (n : Nat) (s : State) (hk : Kept s0 s) : Kept s0 (State.consumeAll st n s) := by
  induction n generalizing s with
  | zero => exact hk
  | succ n ih =>
    unfold State.consumeAll
    split
    · rename_i t e; exact ih _ (consumeNext_kept hk e)
    · exact hk

theorem blockConsumed_kept {s0 : State} (s : State) (st : StreamId) (hk : Kept s0 s) : Kept s0 (State.blockConsumed s st) := by
  unfold State.blockConsumed
  repeat (first | with_reducible assumption | intro _ | with_reducible apply pullBlocks_kept | exact consumeNext_kept (by with_reducible assumption) (by assumption) | with_reducible apply kept_ite | split | dsimp only | with_reducible apply kept_mk | with_reducible apply kept_ite | split | dsimp only)

theorem blockLanded_kept {s0 : State} (s : State) (st : StreamId) (i : Nat) (hk : Kept s0 s) : Kept s0 (State.blockLanded s st i) := by
  unfold State.blockLanded
  repeat (first | with_reducible assumption | intro _ | with_reducible apply updStream_kept | with_reducible apply dataWrite_kept | with_reducible apply streamEvent_kept | with_reducible apply fillChanged_kept | with_reducible apply pullBlocks_kept | with_reducible apply consumeAll_kept | with_reducible apply kept_ite | split | dsimp only | with_reducible apply kept_mk | with_reducible apply kept_ite | split | dsimp only)

theorem underrun_kept {s0 : State} (s : State) (st : StreamId) (hk : Kept s0 s) : Kept s0 (State.underrun s st) := by
  unfold State.underrun
  repeat (first | with_reducible assumption | intro _ | with_reducible apply wr_kept | with_reducible apply raise_kept | with_reducible apply bump_kept | with_reducible apply updStream_kept | with_reducible apply pauseBegins_kept | with_reducible apply streamSync_kept | with_reducible apply streamEvent_kept | with_reducible apply kept_ite | split | dsimp only | with_reducible apply kept_mk | with_reducible apply kept_ite | split | dsimp only)

theorem resumeTest_kept {s0 : State} (s : State) (st : StreamId) (hk : Kept s0 s) : Kept s0 (State.resumeTest s st) := by
  unfold State.resumeTest
  repeat (first | with_reducible assumption | intro _ | with_reducible apply updStream_kept | with_reducible apply resumeAt_kept | with_reducible apply underrun_kept | with_reducible apply kept_ite | split | dsimp only | with_reducible apply kept_mk | with_reducible apply kept_ite | split | dsimp only)

theorem keepTest_kept {s0 : State} (s : State) (st : StreamId) (hk : Kept s0 s) : Kept s0 (State.keepTest s st) := by
  unfold State.keepTest
  repeat (first | with_reducible assumption | intro _ | with_reducible apply updStream_kept | with_reducible apply resumeAt_kept | with_reducible apply underrun_kept | with_reducible apply kept_ite | split | dsimp only | with_reducible apply kept_mk | with_reducible apply kept_ite | split | dsimp only)

theorem reentry_kept {s0 : State} (s : State) (st : StreamId) (hk : Kept s0 s) : Kept s0 (State.reentry s st) := by
  unfold State.reentry
  repeat (first | with_reducible assumption | intro _ | with_reducible apply raise_kept | with_reducible apply bumpBy_kept | with_reducible apply updChan_kept | with_reducible apply updStream_kept | with_reducible apply reachPos_kept | with_reducible apply pauseEnds_kept | with_reducible apply pipeTo_kept | with_reducible apply dropHeld_kept | with_reducible apply streamSync_kept | with_reducible apply resumeAt_kept | with_reducible apply streamEvent_kept | with_reducible apply underrun_kept | with_reducible apply kept_ite | split | dsimp only | with_reducible apply kept_mk | with_reducible apply kept_ite | split | dsimp only)

theorem streamStops_kept {s0 : State} (s : State) (st : StreamId) (last : StreamState) (m : Nat) (hk : Kept s0 s) : Kept s0 (State.streamStops s st last m) := by
  unfold State.streamStops
  repeat (first | with_reducible assumption | intro _ | with_reducible apply wr_kept | with_reducible apply updChan_kept | with_reducible apply updStream_kept | with_reducible apply pauseEnds_kept | with_reducible apply dropHeld_kept | with_reducible apply kept_ite | split | dsimp only | with_reducible apply kept_mk | with_reducible apply kept_ite | split | dsimp only)

theorem drained_kept {s0 : State} (s : State) (st : StreamId) (hk : Kept s0 s) : Kept s0 (State.drained s st) := by
  unfold State.drained
  repeat (first | with_reducible assumption | intro _ | with_reducible apply raise_kept | with_reducible apply reachPos_kept | with_reducible apply pipeTo_kept | with_reducible apply streamSync_kept | with_reducible apply streamEvent_kept | with_reducible apply underrun_kept | with_reducible apply streamStops_kept | with_reducible apply kept_ite | split | dsimp only | with_reducible apply kept_mk | with_reducible apply kept_ite | split | dsimp only)

theorem streamLost_kept {s0 : State} (s : State) (st : StreamId) (hk : Kept s0 s) : Kept s0 (State.streamLost s st) := by
  unfold State.streamLost
  repeat (first | with_reducible assumption | intro _ | with_reducible apply raise_kept | with_reducible apply pipeNow_kept | with_reducible apply streamSync_kept | with_reducible apply streamEvent_kept | with_reducible apply streamStops_kept | with_reducible apply kept_ite | split | dsimp only | with_reducible apply kept_ite | split | dsimp only)

end Sys2Proof.Laws
end

