-- ==== Sys2Proof/Laws/KeptChannels.lean ====
section
/-! SUPPORT. What the operations of Machine/Channels.lean keep (see Kept.lean). -/
namespace Sys2Proof.Laws
open Sys2Proof Sys2Proof.Machine

theorem changeHome_kept {s0 : State} (s : State) (c : ChanId) (h : Nat) (hk : Kept s0 s) : Kept s0 (State.changeHome s c h) := by
  unfold State.changeHome
  repeat (first | with_reducible assumption | intro _ | with_reducible apply setFld_kept | with_reducible apply raise_kept | with_reducible apply updChan_kept | with_reducible apply kept_ite | split | dsimp only | with_reducible apply kept_mk | with_reducible apply kept_ite | split | dsimp only)

theorem moveDone_kept {s0 : State} (s : State) (c : ChanId) (hk : Kept s0 s) : Kept s0 (State.moveDone s c) := by
  unfold State.moveDone
  repeat (first | with_reducible assumption | intro _ | with_reducible apply updChan_kept | with_reducible apply kept_ite | split | dsimp only | with_reducible apply kept_mk | with_reducible apply kept_ite | split | dsimp only)

theorem tableWordError_kept {s0 : State} (s : State) (d : DomeId) (ecc : Ecc) (hk : Kept s0 s) : Kept s0 (State.tableWordError s d ecc) := by
  unfold State.tableWordError
  repeat (first | with_reducible assumption | intro _ | with_reducible apply fresh_kept | with_reducible apply plateCorrected_kept | with_reducible apply plateUncorrectable_kept | with_reducible apply kept_ite | split | dsimp only | with_reducible apply kept_mk | with_reducible apply kept_ite | split | dsimp only | with_reducible apply kept_free)

theorem entryRead_kept {s0 : State} (s : State) (c : ChanId) (i : Nat) (ecc mirror : Ecc) (hk : Kept s0 s) : Kept s0 (State.entryRead s c i ecc mirror) := by
  unfold State.entryRead
  repeat (first | with_reducible assumption | intro _ | with_reducible apply walkFault_kept | with_reducible apply tableWordError_kept | with_reducible apply kept_ite | split | dsimp only | with_reducible apply kept_ite | split | dsimp only)

theorem requestAhead_kept {s0 : State} (s : State) (c : ChanId) (n : Nat) (hk : Kept s0 s) : Kept s0 (State.requestAhead s c n) := by
  unfold State.requestAhead
  repeat (first | with_reducible assumption | intro _ | with_reducible apply updChan_kept | with_reducible apply noteLead_kept | with_reducible apply kept_ite | split | dsimp only | with_reducible apply kept_mk | with_reducible apply kept_ite | split | dsimp only)

theorem granulesArrive_kept {s0 : State} (s : State) (c : ChanId) (n : Nat) (hk : Kept s0 s) : Kept s0 (State.granulesArrive s c n) := by
  unfold State.granulesArrive
  repeat (first | with_reducible assumption | intro _ | with_reducible apply updChan_kept | with_reducible apply kept_ite | split | dsimp only | with_reducible apply kept_mk | with_reducible apply kept_ite | split | dsimp only)

theorem granuleIsLate_kept {s0 : State} (s : State) (c : ChanId) (hk : Kept s0 s) : Kept s0 (State.granuleIsLate s c) := by
  unfold State.granuleIsLate
  repeat (first | with_reducible assumption | intro _ | with_reducible apply raise_kept | with_reducible apply bump_kept | with_reducible apply updChan_kept | with_reducible apply noteLead_kept | with_reducible apply pipeNow_kept | with_reducible apply kept_ite | split | dsimp only | with_reducible apply kept_mk | with_reducible apply kept_ite | split | dsimp only)

theorem primed_kept {s0 : State} (s : State) (c : ChanId) (hk : Kept s0 s) : Kept s0 (State.primed s c) := by
  unfold State.primed
  repeat (first | with_reducible assumption | intro _ | with_reducible apply updChan_kept | with_reducible apply kept_foldl | with_reducible apply kept_foldl_snd | with_reducible apply kept_foldl_fst | with_reducible apply kept_ite | split | dsimp only | with_reducible apply kept_mk | with_reducible apply kept_ite | split | dsimp only)

theorem startNow_kept {s0 : State} (s : State) (c : ChanId) (dark : Nat) (hk : Kept s0 s) : Kept s0 (State.startNow s c dark) := by
  unfold State.startNow
  repeat (first | with_reducible assumption | intro _ | with_reducible apply reachGranC_kept | with_reducible apply startInstantAt_kept | with_reducible apply takeUpWalk_kept | with_reducible apply kept_ite | split | dsimp only | with_reducible apply kept_mk | with_reducible apply kept_ite | split | dsimp only)

theorem endIteration_kept {s0 : State} (s : State) (c : ChanId) (hk : Kept s0 s) : Kept s0 (State.endIteration s c) := by
  unfold State.endIteration
  repeat (first | with_reducible assumption | intro _ | with_reducible apply iterationEnds_kept | with_reducible apply kept_ite | split | dsimp only | with_reducible apply kept_ite | split | dsimp only)

theorem swapReached_kept {s0 : State} (s : State) (c : ChanId) (hk : Kept s0 s) : Kept s0 (State.swapReached s c) := by
  unfold State.swapReached
  repeat (first | with_reducible assumption | intro _ | with_reducible apply iterationEnds_kept | with_reducible apply kept_ite | split | dsimp only | with_reducible apply kept_ite | split | dsimp only)

theorem updMarkers_kept {s0 : State} (s : State) (c : ChanId) (mk : Fin 2) (p : Nat) (f : Marker → Marker) (hk : Kept s0 s) : Kept s0 (State.updMarkers s c mk p f) := by
  unfold State.updMarkers
  repeat (first | with_reducible assumption | intro _ | with_reducible apply updChan_kept | with_reducible apply markersMove_kept | with_reducible apply kept_foldl | with_reducible apply kept_foldl_snd | with_reducible apply kept_foldl_fst | with_reducible apply kept_ite | split | dsimp only | with_reducible apply kept_mk | with_reducible apply kept_ite | split | dsimp only)

theorem pulseStart_kept {s0 : State} (s : State) (c : ChanId) (mk : Fin 2) (hk : Kept s0 s) : Kept s0 (State.pulseStart s c mk) := by
  unfold State.pulseStart
  repeat (first | with_reducible assumption | intro _ | with_reducible apply reachPos_kept | with_reducible apply updMarkers_kept | with_reducible apply kept_ite | split | dsimp only | with_reducible apply kept_mk | with_reducible apply kept_ite | split | dsimp only)

theorem pulseStop_kept {s0 : State} (s : State) (c : ChanId) (mk : Fin 2) (hk : Kept s0 s) : Kept s0 (State.pulseStop s c mk) := by
  unfold State.pulseStop
  repeat (first | with_reducible assumption | intro _ | with_reducible apply reachPos_kept | with_reducible apply updMarkers_kept | with_reducible apply kept_ite | split | dsimp only | with_reducible apply kept_mk | with_reducible apply kept_ite | split | dsimp only)

theorem chirpStep_kept {s0 : State} (s : State) (c : ChanId) (hk : Kept s0 s) : Kept s0 (State.chirpStep s c) := by
  unfold State.chirpStep
  repeat (first | with_reducible assumption | intro _ | with_reducible apply reachGranC_kept | with_reducible apply updNco_kept | with_reducible apply pipeNow_kept | with_reducible apply kept_ite | split | dsimp only | with_reducible apply kept_mk | with_reducible apply kept_ite | split | dsimp only)

end Sys2Proof.Laws
end

