-- ==== Sys2Proof/Laws/KeptImages.lean ====
section
/-! SUPPORT. What the operations of Machine/Images.lean keep (see Kept.lean). -/
namespace Sys2Proof.Laws
open Sys2Proof Sys2Proof.Machine

theorem updEngine_kept {s0 : State} (s : State) (c : ChanId) (f : ChanEngine → ChanEngine) (hk : Kept s0 s) : Kept s0 (State.updEngine s c f) := by
  unfold State.updEngine
  repeat (first | with_reducible assumption | intro _ | with_reducible apply kept_ite | split | dsimp only | with_reducible apply kept_mk | with_reducible apply kept_ite | split | dsimp only | with_reducible apply kept_engines)

theorem freshWord_kept {s0 : State} (s : State) (hk : Kept s0 s) : Kept s0 (State.freshWord s).2 := by
  unfold State.freshWord
  repeat (first | with_reducible assumption | intro _ | with_reducible apply fresh_kept | with_reducible apply kept_ite | split | dsimp only | with_reducible apply kept_mk | with_reducible apply kept_ite | split | dsimp only | with_reducible apply kept_free)

theorem keeperWord_kept {s0 : State} (s : State) (k : KeeperId) (w : Nat) (hk : Kept s0 s) : Kept s0 (State.keeperWord s k w).2 := by
  unfold State.keeperWord
  repeat (first | with_reducible assumption | intro _ | with_reducible apply freshWord_kept | with_reducible apply kept_ite | split | dsimp only | with_reducible apply kept_mk | with_reducible apply kept_ite | split | dsimp only)

theorem channelWord_kept {s0 : State} (s : State) (c : ChanId) (w : Nat) (hk : Kept s0 s) : Kept s0 (State.channelWord s c w).2 := by
  unfold State.channelWord
  repeat (first | with_reducible assumption | intro _ | with_reducible apply freshWord_kept | with_reducible apply kept_ite | split | dsimp only | with_reducible apply kept_mk | with_reducible apply kept_ite | split | dsimp only)

theorem storePb3_kept {s0 : State} (s : State) (f : Images → Images) (hk : Kept s0 s) : Kept s0 (State.storePb3 s f) := by
  unfold State.storePb3
  repeat (first | with_reducible assumption | intro _ | with_reducible apply kept_foldl | with_reducible apply kept_foldl_snd | with_reducible apply kept_foldl_fst | with_reducible apply kept_ite | split | dsimp only | with_reducible apply kept_mk | with_reducible apply kept_ite | split | dsimp only | with_reducible apply kept_pb3)

theorem storeState_kept {s0 : State} (s : State) (c : ChanId) (v : Nat) (hk : Kept s0 s) : Kept s0 (State.storeState s c v) := by
  unfold State.storeState
  repeat (first | with_reducible assumption | intro _ | with_reducible apply setFld_kept | with_reducible apply kept_ite | split | dsimp only | with_reducible apply kept_ite | split | dsimp only)

theorem storeShows_kept {s0 : State} (s : State) (c : ChanId) (x : StoreImage) (hk : Kept s0 s) : Kept s0 (State.storeShows s c x) := by
  unfold State.storeShows
  repeat (first | with_reducible assumption | intro _ | with_reducible apply setFld_kept | with_reducible apply storeState_kept | with_reducible apply kept_ite | split | dsimp only | with_reducible apply kept_ite | split | dsimp only)

theorem installChannel_kept {s0 : State} (s : State) (x : StoreImage) (hk : Kept s0 s) : Kept s0 (State.installChannel s x) := by
  unfold State.installChannel
  repeat (first | with_reducible assumption | intro _ | with_reducible apply updEngine_kept | with_reducible apply storePb3_kept | with_reducible apply storeShows_kept | with_reducible apply kept_foldl | with_reducible apply kept_foldl_snd | with_reducible apply kept_foldl_fst | with_reducible apply kept_ite | split | dsimp only | with_reducible apply kept_mk | with_reducible apply kept_ite | split | dsimp only)

theorem installKeeper_kept {s0 : State} (s : State) (x : StoreImage) (hk : Kept s0 s) : Kept s0 (State.installKeeper s x) := by
  unfold State.installKeeper
  repeat (first | with_reducible assumption | intro _ | with_reducible apply setFld_kept | with_reducible apply raise_kept | with_reducible apply updKeeper_kept | with_reducible apply storePb3_kept | with_reducible apply kept_foldl | with_reducible apply kept_foldl_snd | with_reducible apply kept_foldl_fst | with_reducible apply kept_ite | split | dsimp only | with_reducible apply kept_mk | with_reducible apply kept_ite | split | dsimp only)

theorem installOwner_kept {s0 : State} (s : State) (x : StoreImage) (hk : Kept s0 s) : Kept s0 (State.installOwner s x) := by
  unfold State.installOwner
  repeat (first | with_reducible assumption | intro _ | with_reducible apply setFld_kept | with_reducible apply raise_kept | with_reducible apply updKeeper_kept | with_reducible apply storePb3_kept | with_reducible apply kept_foldl | with_reducible apply kept_foldl_snd | with_reducible apply kept_foldl_fst | with_reducible apply kept_ite | split | dsimp only | with_reducible apply kept_mk | with_reducible apply kept_ite | split | dsimp only | with_reducible apply kept_ownerNew | with_reducible apply kept_sec)

theorem emptyOwner_kept {s0 : State} (s : State) (hk : Kept s0 s) : Kept s0 (State.emptyOwner s) := by
  unfold State.emptyOwner
  repeat (first | with_reducible assumption | intro _ | with_reducible apply setFld_kept | with_reducible apply updKeeper_kept | with_reducible apply kept_foldl | with_reducible apply kept_foldl_snd | with_reducible apply kept_foldl_fst | with_reducible apply kept_ite | split | dsimp only | with_reducible apply kept_mk | with_reducible apply kept_ite | split | dsimp only | with_reducible apply kept_pb3 | with_reducible apply kept_ownerNew)

theorem loadFailed_kept {s0 : State} (s : State) (hk : Kept s0 s) : Kept s0 (State.loadFailed s) := by
  unfold State.loadFailed
  repeat (first | with_reducible assumption | intro _ | with_reducible apply raise_kept | with_reducible apply kept_foldl | with_reducible apply kept_foldl_snd | with_reducible apply kept_foldl_fst | with_reducible apply kept_ite | split | dsimp only | with_reducible apply kept_ite | split | dsimp only)

end Sys2Proof.Laws
end

