-- ==== Sys2Proof/Laws/KeptLinks.lean ====
section
/-! SUPPORT. What the operations of Machine/Links.lean keep (see Kept.lean). -/
namespace Sys2Proof.Laws
open Sys2Proof Sys2Proof.Machine

theorem updLink_kept {s0 : State} (s : State) (l : LinkId) (f : Link → Link) (hk : Kept s0 s) : Kept s0 (State.updLink s l f) := by
  unfold State.updLink
  repeat (first | with_reducible assumption | intro _ | with_reducible apply kept_ite | split | dsimp only | with_reducible apply kept_mk | with_reducible apply kept_ite | split | dsimp only | with_reducible apply kept_links)

theorem updDir_kept {s0 : State} (s : State) (l : LinkId) (ret : Bool) (f : LinkDir → LinkDir) (hk : Kept s0 s) : Kept s0 (State.updDir s l ret f) := by
  unfold State.updDir
  repeat (first | with_reducible assumption | intro _ | with_reducible apply updLink_kept | with_reducible apply kept_ite | split | dsimp only | with_reducible apply kept_mk | with_reducible apply kept_ite | split | dsimp only)

theorem linkEvent_kept {s0 : State} (s : State) (l : LinkId) (hk : Kept s0 s) : Kept s0 (State.linkEvent s l) := by
  unfold State.linkEvent
  repeat (first | with_reducible assumption | intro _ | with_reducible apply publishFree_kept | with_reducible apply kept_ite | split | dsimp only | with_reducible apply kept_mk | with_reducible apply kept_ite | split | dsimp only)

theorem relayCheck_kept {s0 : State} (s : State) (hk : Kept s0 s) : Kept s0 (State.relayCheck s) := by
  unfold State.relayCheck
  repeat (first | with_reducible assumption | intro _ | with_reducible apply raise_kept | with_reducible apply updChan_kept | with_reducible apply publish_kept | with_reducible apply pipeNow_kept | with_reducible apply kept_foldl | with_reducible apply kept_foldl_snd | with_reducible apply kept_foldl_fst | with_reducible apply kept_ite | split | dsimp only | with_reducible apply kept_mk | with_reducible apply kept_ite | split | dsimp only)

theorem loseLink_kept {s0 : State} (s : State) (l : LinkId) (hk : Kept s0 s) : Kept s0 (State.loseLink s l) := by
  unfold State.loseLink
  repeat (first | with_reducible assumption | intro _ | with_reducible apply enterForm_kept | with_reducible apply updLink_kept | with_reducible apply linkEvent_kept | with_reducible apply relayCheck_kept | with_reducible apply kept_ite | split | dsimp only | with_reducible apply kept_mk | with_reducible apply kept_ite | split | dsimp only)

theorem narrowLink_kept {s0 : State} (s : State) (l : LinkId) (ret : Bool) (hk : Kept s0 s) : Kept s0 (State.narrowLink s l ret) := by
  unfold State.narrowLink
  repeat (first | with_reducible assumption | intro _ | with_reducible apply enterForm_kept | with_reducible apply updLink_kept | with_reducible apply updDir_kept | with_reducible apply linkEvent_kept | with_reducible apply relayCheck_kept | with_reducible apply loseLink_kept | with_reducible apply kept_ite | split | dsimp only | with_reducible apply kept_mk | with_reducible apply kept_ite | split | dsimp only)

theorem laneBad_kept {s0 : State} (s : State) (l : LinkId) (ret : Bool) (lane : Nat) (hk : Kept s0 s) : Kept s0 (State.laneBad s l ret lane) := by
  unfold State.laneBad
  repeat (first | with_reducible assumption | intro _ | with_reducible apply updLink_kept | with_reducible apply updDir_kept | with_reducible apply narrowLink_kept | with_reducible apply kept_ite | split | dsimp only | with_reducible apply kept_mk | with_reducible apply kept_ite | split | dsimp only)

theorem crcError_kept {s0 : State} (s : State) (l : LinkId) (ret : Bool) (lane : Nat) (hk : Kept s0 s) : Kept s0 (State.crcError s l ret lane) := by
  unfold State.crcError
  repeat (first | with_reducible assumption | intro _ | with_reducible apply updDir_kept | with_reducible apply laneBad_kept | with_reducible apply kept_ite | split | dsimp only | with_reducible apply kept_mk | with_reducible apply kept_ite | split | dsimp only)

theorem nextSwap_kept {s0 : State} (s : State) (l : LinkId) (hk : Kept s0 s) : Kept s0 (State.nextSwap s l) := by
  unfold State.nextSwap
  repeat (first | with_reducible assumption | intro _ | with_reducible apply updLink_kept | with_reducible apply narrowLink_kept | with_reducible apply kept_foldl | with_reducible apply kept_foldl_snd | with_reducible apply kept_foldl_fst | with_reducible apply kept_ite | split | dsimp only | with_reducible apply kept_mk | with_reducible apply kept_ite | split | dsimp only)

theorem swapDone_kept {s0 : State} (s : State) (l : LinkId) (ret : Bool) (trained : Bool) (hk : Kept s0 s) : Kept s0 (State.swapDone s l ret trained) := by
  unfold State.swapDone
  repeat (first | with_reducible assumption | intro _ | with_reducible apply enterForm_kept | with_reducible apply logLedger_kept | with_reducible apply updLink_kept | with_reducible apply updDir_kept | with_reducible apply linkEvent_kept | with_reducible apply narrowLink_kept | with_reducible apply nextSwap_kept | with_reducible apply kept_ite | split | dsimp only | with_reducible apply kept_mk | with_reducible apply kept_ite | split | dsimp only)

end Sys2Proof.Laws
end

