-- ==== Sys2Proof/Laws/KeptOutputs.lean ====
section
/-! SUPPORT. What the operations of Machine/Outputs.lean keep (see Kept.lean). -/
namespace Sys2Proof.Laws
open Sys2Proof Sys2Proof.Machine

theorem dacValid_kept {s0 : State} (s : State) (n : LampId) (hk : Kept s0 s) : Kept s0 (State.dacValid s n) := by
  unfold State.dacValid
  repeat (first | with_reducible assumption | intro _ | with_reducible apply wr_kept | with_reducible apply kept_foldl | with_reducible apply kept_foldl_snd | with_reducible apply kept_foldl_fst | with_reducible apply kept_ite | split | dsimp only | with_reducible apply kept_mk | with_reducible apply kept_ite | split | dsimp only | with_reducible apply kept_power)

theorem darkCount_kept {s0 : State} (s : State) (n : LampId) (hk : Kept s0 s) : Kept s0 (State.darkCount s n) := by
  unfold State.darkCount
  repeat (first | with_reducible assumption | intro _ | with_reducible apply bumpBy_kept | with_reducible apply kept_foldl | with_reducible apply kept_foldl_snd | with_reducible apply kept_foldl_fst | with_reducible apply kept_ite | split | dsimp only | with_reducible apply kept_mk | with_reducible apply kept_ite | split | dsimp only | with_reducible apply kept_power)

theorem darkFall_kept {s0 : State} (s : State) (hk : Kept s0 s) : Kept s0 (State.darkFall s) := by
  unfold State.darkFall
  repeat (first | with_reducible assumption | intro _ | with_reducible apply raise_kept | with_reducible apply publish_kept | with_reducible apply darkCount_kept | with_reducible apply kept_foldl | with_reducible apply kept_foldl_snd | with_reducible apply kept_foldl_fst | with_reducible apply kept_ite | split | dsimp only | with_reducible apply kept_mk | with_reducible apply kept_ite | split | dsimp only | with_reducible apply kept_power)

theorem darkRise_kept {s0 : State} (s : State) (hk : Kept s0 s) : Kept s0 (State.darkRise s) := by
  unfold State.darkRise
  repeat (first | with_reducible assumption | intro _ | with_reducible apply fresh_kept | with_reducible apply kept_foldl | with_reducible apply kept_foldl_snd | with_reducible apply kept_foldl_fst | with_reducible apply kept_ite | split | dsimp only | with_reducible apply kept_mk | with_reducible apply kept_ite | split | dsimp only | with_reducible apply kept_free | with_reducible apply kept_power)

theorem gainSwitch_kept {s0 : State} (s : State) (c : ChanId) (hk : Kept s0 s) : Kept s0 (State.gainSwitch s c) := by
  unfold State.gainSwitch
  repeat (first | with_reducible assumption | intro _ | with_reducible apply updChan_kept | with_reducible apply reachGranC_kept | with_reducible apply kept_ite | split | dsimp only | with_reducible apply kept_mk | with_reducible apply kept_ite | split | dsimp only)

theorem rangeDone_kept {s0 : State} (s : State) (c : ChanId) (hk : Kept s0 s) : Kept s0 (State.rangeDone s c) := by
  unfold State.rangeDone
  repeat (first | with_reducible assumption | intro _ | with_reducible apply raise_kept | with_reducible apply bumpBy_kept | with_reducible apply updChan_kept | with_reducible apply reachGranC_kept | with_reducible apply publish_kept | with_reducible apply pipeNow_kept | with_reducible apply kept_ite | split | dsimp only | with_reducible apply kept_mk | with_reducible apply kept_ite | split | dsimp only)

theorem retap_kept {s0 : State} (s : State) (c : ChanId) (mk : Fin 2) (hk : Kept s0 s) : Kept s0 (State.retap s c mk) := by
  unfold State.retap
  repeat (first | with_reducible assumption | intro _ | with_reducible apply tapEdge_kept | with_reducible apply kept_foldl | with_reducible apply kept_foldl_snd | with_reducible apply kept_foldl_fst | with_reducible apply kept_ite | split | dsimp only | with_reducible apply kept_mk | with_reducible apply kept_ite | split | dsimp only | with_reducible apply kept_taps)

theorem markerSettle_kept {s0 : State} (s : State) (c : ChanId) (mk : Fin 2) (hk : Kept s0 s) : Kept s0 (State.markerSettle s c mk) := by
  unfold State.markerSettle
  repeat (first | with_reducible assumption | intro _ | with_reducible apply updChan_kept | with_reducible apply tapEdge_kept | with_reducible apply retap_kept | with_reducible apply kept_ite | split | dsimp only | with_reducible apply kept_mk | with_reducible apply kept_ite | split | dsimp only)

theorem markersWritten_kept {s0 : State} (s : State) (c : ChanId) (hk : Kept s0 s) : Kept s0 (State.markersWritten s c) := by
  unfold State.markersWritten
  repeat (first | with_reducible assumption | intro _ | with_reducible apply updChan_kept | with_reducible apply markerSettle_kept | with_reducible apply kept_foldl | with_reducible apply kept_foldl_snd | with_reducible apply kept_foldl_fst | with_reducible apply kept_ite | split | dsimp only | with_reducible apply kept_mk | with_reducible apply kept_ite | split | dsimp only)

theorem biasEvent_kept {s0 : State} (s : State) (b : BiasId) (hk : Kept s0 s) : Kept s0 (State.biasEvent s b) := by
  unfold State.biasEvent
  repeat (first | with_reducible assumption | intro _ | with_reducible apply publish_kept | with_reducible apply kept_ite | split | dsimp only | with_reducible apply kept_ite | split | dsimp only)

theorem biasFill_kept {s0 : State} (s : State) (b : BiasId) (hk : Kept s0 s) : Kept s0 (State.biasFill s b) := by
  unfold State.biasFill
  repeat (first | with_reducible assumption | intro _ | with_reducible apply setFld_kept | with_reducible apply kept_ite | split | dsimp only | with_reducible apply kept_ite | split | dsimp only)

theorem biasSample_kept {s0 : State} (s : State) (b : BiasId) (v : Nat) (hk : Kept s0 s) : Kept s0 (State.biasSample s b v) := by
  unfold State.biasSample
  repeat (first | with_reducible assumption | intro _ | with_reducible apply raise_kept | with_reducible apply updBias_kept | with_reducible apply kept_ite | split | dsimp only | with_reducible apply kept_mk | with_reducible apply kept_ite | split | dsimp only)

theorem biasQueue_kept {s0 : State} (s : State) (b : BiasId) (index : Nat) (hk : Kept s0 s) : Kept s0 (State.biasQueue s b index) := by
  unfold State.biasQueue
  repeat (first | with_reducible assumption | intro _ | with_reducible apply raise_kept | with_reducible apply updBias_kept | with_reducible apply biasEvent_kept | with_reducible apply biasFill_kept | with_reducible apply biasSample_kept | with_reducible apply kept_ite | split | dsimp only | with_reducible apply kept_mk | with_reducible apply kept_ite | split | dsimp only)

theorem biasCycle_kept {s0 : State} (s : State) (b : BiasId) (index : Nat) (hk : Kept s0 s) : Kept s0 (State.biasCycle s b index) := by
  unfold State.biasCycle
  repeat (first | with_reducible assumption | intro _ | with_reducible apply updBias_kept | with_reducible apply biasSample_kept | with_reducible apply kept_ite | split | dsimp only | with_reducible apply kept_mk | with_reducible apply kept_ite | split | dsimp only)

theorem biasTarget_kept {s0 : State} (s : State) (b : BiasId) (index : Nat) (hk : Kept s0 s) : Kept s0 (State.biasTarget s b index) := by
  unfold State.biasTarget
  repeat (first | with_reducible assumption | intro _ | with_reducible apply updBias_kept | with_reducible apply biasQueue_kept | with_reducible apply biasCycle_kept | with_reducible apply kept_ite | split | dsimp only | with_reducible apply kept_mk | with_reducible apply kept_ite | split | dsimp only)

theorem biasMove_kept {s0 : State} (s : State) (b : BiasId) (hk : Kept s0 s) : Kept s0 (State.biasMove s b) := by
  unfold State.biasMove
  repeat (first | with_reducible assumption | intro _ | with_reducible apply setFld_kept | with_reducible apply setFlag_kept | with_reducible apply raise_kept | with_reducible apply bump_kept | with_reducible apply updBias_kept | with_reducible apply kept_ite | split | dsimp only | with_reducible apply kept_ite | split | dsimp only)

theorem biasLineTick_kept {s0 : State} (s : State) (b : BiasId) (index : Nat) (hk : Kept s0 s) : Kept s0 (State.biasLineTick s b index) := by
  unfold State.biasLineTick
  repeat (first | with_reducible assumption | intro _ | with_reducible apply setFld_kept | with_reducible apply updBias_kept | with_reducible apply biasTarget_kept | with_reducible apply biasMove_kept | with_reducible apply kept_ite | split | dsimp only | with_reducible apply kept_mk | with_reducible apply kept_ite | split | dsimp only)

theorem biasTickNow_kept {s0 : State} (s : State) (n : LampId) (hk : Kept s0 s) : Kept s0 (State.biasTickNow s n) := by
  unfold State.biasTickNow
  repeat (first | with_reducible assumption | intro _ | with_reducible apply reachGran_kept | with_reducible apply biasLineTick_kept | with_reducible apply kept_foldl | with_reducible apply kept_foldl_snd | with_reducible apply kept_foldl_fst | with_reducible apply kept_ite | split | dsimp only | with_reducible apply kept_mk | with_reducible apply kept_ite | split | dsimp only | with_reducible apply kept_biasBlk)

theorem biasRestart_kept {s0 : State} (s : State) (n : LampId) (g : Nat) (hk : Kept s0 s) : Kept s0 (State.biasRestart s n g) := by
  unfold State.biasRestart
  repeat (first | with_reducible assumption | intro _ | with_reducible apply kept_ite | split | dsimp only | with_reducible apply kept_mk | with_reducible apply kept_ite | split | dsimp only | with_reducible apply kept_biasBlk)

theorem deglitch_kept {s0 : State} (s : State) (b : BiasId) (hk : Kept s0 s) : Kept s0 (State.deglitch s b) := by
  unfold State.deglitch
  repeat (first | with_reducible assumption | intro _ | with_reducible apply updBias_kept | with_reducible apply reachTime_kept | with_reducible apply kept_ite | split | dsimp only | with_reducible apply kept_mk | with_reducible apply kept_ite | split | dsimp only)

theorem pdataWrite_kept {s0 : State} (s : State) (b : BiasId) (v : Nat) (hk : Kept s0 s) : Kept s0 (State.pdataWrite s b v) := by
  unfold State.pdataWrite
  repeat (first | with_reducible assumption | intro _ | with_reducible apply setFld_kept | with_reducible apply raise_kept | with_reducible apply updBias_kept | with_reducible apply biasFill_kept | with_reducible apply kept_ite | split | dsimp only | with_reducible apply kept_mk | with_reducible apply kept_ite | split | dsimp only)

theorem biasClassWritten_kept {s0 : State} (s : State) (b : BiasId) (old : Nat) (hk : Kept s0 s) : Kept s0 (State.biasClassWritten s b old) := by
  unfold State.biasClassWritten
  repeat (first | with_reducible assumption | intro _ | with_reducible apply updBias_kept | with_reducible apply biasFill_kept | with_reducible apply kept_ite | split | dsimp only | with_reducible apply kept_mk | with_reducible apply kept_ite | split | dsimp only)

theorem lookSkip_kept {s0 : State} (s : State) (n : LampId) (hk : Kept s0 s) : Kept s0 (State.lookSkip s n) := by
  unfold State.lookSkip
  repeat (first | with_reducible assumption | intro _ | with_reducible apply bump_kept | with_reducible apply kept_ite | split | dsimp only | with_reducible apply kept_ite | split | dsimp only)

theorem lookSelf_kept {s0 : State} (s : State) (n : LampId) (measured : Int) (hk : Kept s0 s) : Kept s0 (State.lookSelf s n measured) := by
  unfold State.lookSelf
  repeat (first | with_reducible assumption | intro _ | with_reducible apply raise_kept | with_reducible apply updLook_kept | with_reducible apply publish_kept | with_reducible apply kept_ite | split | dsimp only | with_reducible apply kept_mk | with_reducible apply kept_ite | split | dsimp only)

theorem lookChan_kept {s0 : State} (s : State) (c : ChanId) (place : Nat) (measured : Int) (hk : Kept s0 s) : Kept s0 (State.lookChan s c place measured) := by
  unfold State.lookChan
  repeat (first | with_reducible assumption | intro _ | with_reducible apply updLook_kept | with_reducible apply lookSkip_kept | with_reducible apply kept_ite | split | dsimp only | with_reducible apply kept_mk | with_reducible apply kept_ite | split | dsimp only)

theorem lookBiasLine_kept {s0 : State} (s : State) (b : BiasId) (measured : Int) (hk : Kept s0 s) : Kept s0 (State.lookBiasLine s b measured) := by
  unfold State.lookBiasLine
  repeat (first | with_reducible assumption | intro _ | with_reducible apply wr_kept | with_reducible apply setFld_kept | with_reducible apply updBias_kept | with_reducible apply publish_kept | with_reducible apply lookSkip_kept | with_reducible apply kept_ite | split | dsimp only | with_reducible apply kept_mk | with_reducible apply kept_ite | split | dsimp only)

theorem lookMeasure_kept {s0 : State} (s : State) (n : LampId) (measured : Int) (hk : Kept s0 s) : Kept s0 (State.lookMeasure s n measured) := by
  unfold State.lookMeasure
  repeat (first | with_reducible assumption | intro _ | with_reducible apply updLook_kept | with_reducible apply reachGran_kept | with_reducible apply lookSelf_kept | with_reducible apply lookChan_kept | with_reducible apply lookBiasLine_kept | with_reducible apply kept_ite | split | dsimp only | with_reducible apply kept_ite | split | dsimp only)

theorem blockTest_kept {s0 : State} (s : State) (c : ChanId) (hk : Kept s0 s) : Kept s0 (State.blockTest s c) := by
  unfold State.blockTest
  repeat (first | with_reducible assumption | intro _ | with_reducible apply wr_kept | with_reducible apply setFld_kept | with_reducible apply raise_kept | with_reducible apply publish_kept | with_reducible apply kept_ite | split | dsimp only | with_reducible apply kept_ite | split | dsimp only)

theorem cellEstimates_kept {s0 : State} (s : State) (c : ChanId) (hk : Kept s0 s) : Kept s0 (State.cellEstimates s c) := by
  unfold State.cellEstimates
  repeat (first | with_reducible assumption | intro _ | with_reducible apply setFld_kept | with_reducible apply updLook_kept | with_reducible apply kept_ite | split | dsimp only | with_reducible apply kept_mk | with_reducible apply kept_ite | split | dsimp only)

theorem cellExhausted_kept {s0 : State} (s : State) (c : ChanId) (cell : Nat) (hk : Kept s0 s) : Kept s0 (State.cellExhausted s c cell) := by
  unfold State.cellExhausted
  repeat (first | with_reducible assumption | intro _ | with_reducible apply raise_kept | with_reducible apply publish_kept | with_reducible apply kept_ite | split | dsimp only | with_reducible apply kept_ite | split | dsimp only)

theorem cellCheck_kept {s0 : State} (s : State) (c : ChanId) (failed : Bool) (hk : Kept s0 s) : Kept s0 (State.cellCheck s c failed) := by
  unfold State.cellCheck
  repeat (first | with_reducible assumption | intro _ | with_reducible apply updChan_kept | with_reducible apply fresh_kept | with_reducible apply publish_kept | with_reducible apply cellExhausted_kept | with_reducible apply kept_ite | split | dsimp only | with_reducible apply kept_mk | with_reducible apply kept_ite | split | dsimp only | with_reducible apply kept_free)

theorem lookBlock_kept {s0 : State} (s : State) (n : LampId) (hk : Kept s0 s) : Kept s0 (State.lookBlock s n) := by
  unfold State.lookBlock
  repeat (first | with_reducible assumption | intro _ | with_reducible apply updLook_kept | with_reducible apply blockTest_kept | with_reducible apply cellEstimates_kept | with_reducible apply cellCheck_kept | with_reducible apply kept_foldl | with_reducible apply kept_foldl_snd | with_reducible apply kept_foldl_fst | with_reducible apply kept_ite | split | dsimp only | with_reducible apply kept_mk | with_reducible apply kept_ite | split | dsimp only)

theorem cellSwapped_kept {s0 : State} (s : State) (c : ChanId) (cell : Nat) (hk : Kept s0 s) : Kept s0 (State.cellSwapped s c cell) := by
  unfold State.cellSwapped
  repeat (first | with_reducible assumption | intro _ | with_reducible apply setFld_kept | with_reducible apply raise_kept | with_reducible apply bump_kept | with_reducible apply updChan_kept | with_reducible apply updLook_kept | with_reducible apply publish_kept | with_reducible apply logLedger_kept | with_reducible apply kept_ite | split | dsimp only | with_reducible apply kept_mk | with_reducible apply kept_ite | split | dsimp only)

theorem cellSwapEdge_kept {s0 : State} (s : State) (c : ChanId) (hk : Kept s0 s) : Kept s0 (State.cellSwapEdge s c) := by
  unfold State.cellSwapEdge
  repeat (first | with_reducible assumption | intro _ | with_reducible apply reachGranC_kept | with_reducible apply cellSwapped_kept | with_reducible apply kept_ite | split | dsimp only | with_reducible apply kept_mk | with_reducible apply kept_ite | split | dsimp only)

theorem swapAsked_kept {s0 : State} (s : State) (c : ChanId) (hk : Kept s0 s) : Kept s0 (State.swapAsked s c) := by
  unfold State.swapAsked
  repeat (first | with_reducible assumption | intro _ | with_reducible apply updChan_kept | with_reducible apply kept_ite | split | dsimp only | with_reducible apply kept_mk | with_reducible apply kept_ite | split | dsimp only)

end Sys2Proof.Laws
end

