-- ==== Sys2Proof/Laws/KeptMeridian.lean ====
section
/-! SUPPORT. What the operations of Machine/Meridian.lean keep (see Kept.lean). -/
namespace Sys2Proof.Laws
open Sys2Proof Sys2Proof.Machine

theorem setLoop_kept {s0 : State} (s : State) (m : MerId) (loop : Fin 2) (v : Nat) (hk : Kept s0 s) : Kept s0 (State.setLoop s m loop v) := by
  unfold State.setLoop
  repeat (first | with_reducible assumption | intro _ | with_reducible apply setFld_kept | with_reducible apply kept_ite | split | dsimp only | with_reducible apply kept_ite | split | dsimp only)

theorem updClock_kept {s0 : State} (s : State) (f : Clock → Clock) (hk : Kept s0 s) : Kept s0 (State.updClock s f) := by
  unfold State.updClock
  repeat (first | with_reducible assumption | intro _ | with_reducible apply kept_ite | split | dsimp only | with_reducible apply kept_mk | with_reducible apply kept_ite | split | dsimp only | with_reducible apply kept_clock)

theorem merEvent_kept {s0 : State} (s : State) (m : MerId) (k : MerSource) (info : Nat) (hk : Kept s0 s) : Kept s0 (State.merEvent s m k info) := by
  unfold State.merEvent
  repeat (first | with_reducible assumption | intro _ | with_reducible apply publish_kept | with_reducible apply kept_ite | split | dsimp only | with_reducible apply kept_ite | split | dsimp only)

theorem wrBoth_kept {s0 : State} (s : State) (r : MerId → Reg) (w : Word) (hk : Kept s0 s) : Kept s0 (State.wrBoth s r w) := by
  unfold State.wrBoth
  repeat (first | with_reducible assumption | intro _ | with_reducible apply wr_kept | with_reducible apply kept_ite | split | dsimp only | with_reducible apply kept_ite | split | dsimp only)

theorem setBoth_kept {s0 : State} (s : State) (r : MerId → Reg) (f : FieldSpec) (v : Nat) (hk : Kept s0 s) : Kept s0 (State.setBoth s r f v) := by
  unfold State.setBoth
  repeat (first | with_reducible assumption | intro _ | with_reducible apply setFld_kept | with_reducible apply kept_ite | split | dsimp only | with_reducible apply kept_ite | split | dsimp only)

theorem clockCheck_kept {s0 : State} (s : State) (hk : Kept s0 s) : Kept s0 (State.clockCheck s) := by
  unfold State.clockCheck
  repeat (first | with_reducible assumption | intro _ | with_reducible apply updClock_kept | with_reducible apply kept_ite | split | dsimp only | with_reducible apply kept_mk | with_reducible apply kept_ite | split | dsimp only)

theorem gridRestart_kept {s0 : State} (s : State) (t : Nat) (hk : Kept s0 s) : Kept s0 (s.gridRestart t) := by
  unfold State.gridRestart
  extract_lets olds oldSingles base s1 s2 s3 s4 host s5
  have h2 : Kept s0 s2 := kept_foldl (updClock_kept _ _ hk) (fun t n ht => biasRestart_kept _ _ _ ht)
  have h4 : Kept s0 s4 := wrBoth_kept _ _ _ (wrBoth_kept _ _ _ h2)
  have h5 : Kept s0 s5 := kept_host h4 rfl rfl
  clear_value s5
  refine kept_foldl h5 (fun t i ht => ?_)
  split
  · split
    · exact rollBack_kept _ _ _ ht
    · exact ht
  · exact ht

theorem internalAlign_kept {s0 : State} (s : State) (hk : Kept s0 s) : Kept s0 (State.internalAlign s) := by
  unfold State.internalAlign
  repeat (first | with_reducible assumption | intro _ | with_reducible apply updMer_kept | with_reducible apply fresh_kept | with_reducible apply setBoth_kept | with_reducible apply clockCheck_kept | with_reducible apply gridRestart_kept | with_reducible apply kept_ite | split | dsimp only | with_reducible apply kept_mk | with_reducible apply kept_ite | split | dsimp only | with_reducible apply kept_free)

theorem syncDarken_kept {s0 : State} (s : State) (lamps : List LampId) (hk : Kept s0 s) : Kept s0 (State.syncDarken s lamps) := by
  unfold State.syncDarken
  repeat (first | with_reducible assumption | intro _ | with_reducible apply updClock_kept | with_reducible apply kept_ite | split | dsimp only | with_reducible apply kept_mk | with_reducible apply kept_ite | split | dsimp only)

theorem applyDelays_kept {s0 : State} (s : State) (m : MerId) (hk : Kept s0 s) : Kept s0 (State.applyDelays s m) := by
  unfold State.applyDelays
  repeat (first | with_reducible assumption | intro _ | with_reducible apply setFld_kept | with_reducible apply updMer_kept | with_reducible apply kept_foldl | with_reducible apply kept_foldl_snd | with_reducible apply kept_foldl_fst | with_reducible apply kept_ite | split | dsimp only | with_reducible apply kept_mk | with_reducible apply kept_ite | split | dsimp only)

theorem applyShared_kept {s0 : State} (s : State) (x : MerStaged) (hk : Kept s0 s) : Kept s0 (State.applyShared s x) := by
  unfold State.applyShared
  repeat (first | with_reducible assumption | intro _ | with_reducible apply setFld_kept | with_reducible apply updMer_kept | with_reducible apply setBoth_kept | with_reducible apply kept_foldl | with_reducible apply kept_foldl_snd | with_reducible apply kept_foldl_fst | with_reducible apply kept_ite | split | dsimp only | with_reducible apply kept_mk | with_reducible apply kept_ite | split | dsimp only)

theorem restartSample_kept {s0 : State} (s : State) (hk : Kept s0 s) : Kept s0 (State.restartSample s) := by
  unfold State.restartSample
  repeat (first | with_reducible assumption | intro _ | with_reducible apply updMer_kept | with_reducible apply setLoop_kept | with_reducible apply clockCheck_kept | with_reducible apply kept_foldl | with_reducible apply kept_foldl_snd | with_reducible apply kept_foldl_fst | with_reducible apply kept_ite | split | dsimp only | with_reducible apply kept_mk | with_reducible apply kept_ite | split | dsimp only)

theorem takeStaged_kept {s0 : State} (s : State) (m : MerId) (hk : Kept s0 s) : Kept s0 (State.takeStaged s m).1 := by
  unfold State.takeStaged
  repeat (first | with_reducible assumption | intro _ | with_reducible apply setFld_kept | with_reducible apply raise_kept | with_reducible apply clockCheck_kept | with_reducible apply applyDelays_kept | with_reducible apply applyShared_kept | with_reducible apply kept_ite | split | dsimp only | with_reducible apply kept_ite | split | dsimp only)

theorem clockChanged_kept {s0 : State} (s : State) (x : ClockChange) (hk : Kept s0 s) : Kept s0 (s.clockChanged x) := by
  cases x with
  | none => exact hk
  | lampDiv => exact internalAlign_kept _ hk
  | freq => exact restartSample_kept _ hk

theorem applyStaged_kept {s0 : State} (s : State) (m : MerId) (hk : Kept s0 s) : Kept s0 (s.applyStaged m) := by
  have h := takeStaged_kept s m hk
  unfold State.applyStaged
  generalize s.takeStaged m = r at h ⊢
  exact clockChanged_kept _ _ h

theorem delayStep_kept {s0 : State} (s : State) (m : MerId) (k : Fin 12) (hk : Kept s0 s) : Kept s0 (State.delayStep s m k) := by
  unfold State.delayStep
  repeat (first | with_reducible assumption | intro _ | with_reducible apply updMer_kept | with_reducible apply kept_ite | split | dsimp only | with_reducible apply kept_mk | with_reducible apply kept_ite | split | dsimp only)

theorem bandFound_kept {s0 : State} (s : State) (m : MerId) (loop : Fin 2) (band : Nat) (hk : Kept s0 s) : Kept s0 (State.bandFound s m loop band) := by
  unfold State.bandFound
  repeat (first | with_reducible assumption | intro _ | with_reducible apply setFld_kept | with_reducible apply setLoop_kept | with_reducible apply kept_ite | split | dsimp only | with_reducible apply kept_ite | split | dsimp only)

theorem locked_kept {s0 : State} (s : State) (m : MerId) (loop : Fin 2) (hk : Kept s0 s) : Kept s0 (State.locked s m loop) := by
  unfold State.locked
  repeat (first | with_reducible assumption | intro _ | with_reducible apply updMer_kept | with_reducible apply setLoop_kept | with_reducible apply clockCheck_kept | with_reducible apply internalAlign_kept | with_reducible apply kept_ite | split | dsimp only | with_reducible apply kept_mk | with_reducible apply kept_ite | split | dsimp only)

theorem failover_kept {s0 : State} (s : State) (m : MerId) (ks : List (Fin 10)) (hk : Kept s0 s) : Kept s0 (State.failover s m ks) := by
  unfold State.failover
  repeat (first | with_reducible assumption | intro _ | with_reducible apply updClock_kept | with_reducible apply merEvent_kept | with_reducible apply wrBoth_kept | with_reducible apply setBoth_kept | with_reducible apply clockCheck_kept | with_reducible apply kept_foldl | with_reducible apply kept_foldl_snd | with_reducible apply kept_foldl_fst | with_reducible apply kept_ite | split | dsimp only | with_reducible apply kept_mk | with_reducible apply kept_ite | split | dsimp only)

theorem lockLost_kept {s0 : State} (s : State) (m : MerId) (loop : Fin 2) (hk : Kept s0 s) : Kept s0 (s.lockLost m loop) := by
  unfold State.lockLost
  split
  · exact hk
  · refine failover_kept _ _ _ (merEvent_kept _ _ _ _ (raise_kept _ _ _ ?_))
    split
    · exact setLoop_kept _ _ _ _ (setLoop_kept _ _ _ _ hk)
    · exact setLoop_kept _ _ _ _ hk

theorem switchDone_kept {s0 : State} (s : State) (k : Fin 10) (hk : Kept s0 s) : Kept s0 (s.switchDone k) := by
  unfold State.switchDone
  split
  · extract_lets s1
    have h1 : Kept s0 s1 := updClock_kept _ _ hk
    clear_value s1
    split
    · exact publishFree_kept _ _ (updClock_kept _ _ h1)
    · exact kept_ite (clockReplay_kept _ _ h1) (kept_ite (clockReplay_kept _ _ h1) h1)
  · exact hk

theorem connectSpare_kept {s0 : State} (s : State) (m : MerId) (k : Fin 10) (hk : Kept s0 s) : Kept s0 (State.connectSpare s m k) := by
  unfold State.connectSpare
  repeat (first | with_reducible assumption | intro _ | with_reducible apply raise_kept | with_reducible apply updMer_kept | with_reducible apply logLedger_kept | with_reducible apply merEvent_kept | with_reducible apply kept_ite | split | dsimp only | with_reducible apply kept_mk | with_reducible apply kept_ite | split | dsimp only)

theorem presenceLost_kept {s0 : State} (s : State) (k : Fin 10) (hk : Kept s0 s) : Kept s0 (State.presenceLost s k) := by
  unfold State.presenceLost
  repeat (first | with_reducible assumption | intro _ | with_reducible apply updMer_kept | with_reducible apply clockCheck_kept | with_reducible apply failover_kept | with_reducible apply connectSpare_kept | with_reducible apply kept_ite | split | dsimp only | with_reducible apply kept_mk | with_reducible apply kept_ite | split | dsimp only)

theorem setDpll_kept {s0 : State} (s : State) (m : MerId) (v : Nat) (hk : Kept s0 s) : Kept s0 (State.setDpll s m v) := by
  unfold State.setDpll
  repeat (first | with_reducible assumption | intro _ | with_reducible apply setFld_kept | with_reducible apply kept_ite | split | dsimp only | with_reducible apply kept_ite | split | dsimp only)

theorem setReturn_kept {s0 : State} (s : State) (m : MerId) (r : ReturnMode) (hk : Kept s0 s) : Kept s0 (State.setReturn s m r) := by
  unfold State.setReturn
  repeat (first | with_reducible assumption | intro _ | with_reducible apply updMer_kept | with_reducible apply kept_ite | split | dsimp only | with_reducible apply kept_mk | with_reducible apply kept_ite | split | dsimp only)

theorem refIsValid_kept {s0 : State} (s : State) (m : MerId) (hk : Kept s0 s) : Kept s0 (State.refIsValid s m) := by
  unfold State.refIsValid
  repeat (first | with_reducible assumption | intro _ | with_reducible apply updMer_kept | with_reducible apply setDpll_kept | with_reducible apply setReturn_kept | with_reducible apply kept_ite | split | dsimp only | with_reducible apply kept_mk | with_reducible apply kept_ite | split | dsimp only)

theorem refIsLost_kept {s0 : State} (s : State) (m : MerId) (hk : Kept s0 s) : Kept s0 (State.refIsLost s m) := by
  unfold State.refIsLost
  repeat (first | with_reducible assumption | intro _ | with_reducible apply raise_kept | with_reducible apply updMer_kept | with_reducible apply merEvent_kept | with_reducible apply setDpll_kept | with_reducible apply kept_ite | split | dsimp only | with_reducible apply kept_mk | with_reducible apply kept_ite | split | dsimp only)

theorem bwStep_kept {s0 : State} (s : State) (m : MerId) (hk : Kept s0 s) : Kept s0 (State.bwStep s m) := by
  unfold State.bwStep
  repeat (first | with_reducible assumption | intro _ | with_reducible apply updMer_kept | with_reducible apply kept_ite | split | dsimp only | with_reducible apply kept_mk | with_reducible apply kept_ite | split | dsimp only)

theorem dpllLocked_kept {s0 : State} (s : State) (m : MerId) (hk : Kept s0 s) : Kept s0 (State.dpllLocked s m) := by
  unfold State.dpllLocked
  repeat (first | with_reducible assumption | intro _ | with_reducible apply setDpll_kept | with_reducible apply kept_ite | split | dsimp only | with_reducible apply kept_ite | split | dsimp only)

theorem offsetMeasured_kept {s0 : State} (s : State) (m : MerId) (offset : Int) (hk : Kept s0 s) : Kept s0 (State.offsetMeasured s m offset) := by
  unfold State.offsetMeasured
  repeat (first | with_reducible assumption | intro _ | with_reducible apply wr_kept | with_reducible apply raise_kept | with_reducible apply fresh_kept | with_reducible apply merEvent_kept | with_reducible apply setReturn_kept | with_reducible apply stepAtSync_kept | with_reducible apply kept_ite | split | dsimp only | with_reducible apply kept_mk | with_reducible apply kept_ite | split | dsimp only | with_reducible apply kept_free)

theorem slewEnds_kept {s0 : State} (s : State) (m : MerId) (hk : Kept s0 s) : Kept s0 (State.slewEnds s m) := by
  unfold State.slewEnds
  repeat (first | with_reducible assumption | intro _ | with_reducible apply setDpll_kept | with_reducible apply setReturn_kept | with_reducible apply kept_ite | split | dsimp only | with_reducible apply kept_ite | split | dsimp only)

theorem slewAsked_kept {s0 : State} (s : State) (m : MerId) (hk : Kept s0 s) : Kept s0 (State.slewAsked s m) := by
  unfold State.slewAsked
  repeat (first | with_reducible assumption | intro _ | with_reducible apply setReturn_kept | with_reducible apply kept_ite | split | dsimp only | with_reducible apply kept_ite | split | dsimp only)

theorem stepAsked_kept {s0 : State} (s : State) (m : MerId) (hk : Kept s0 s) : Kept s0 (State.stepAsked s m) := by
  unfold State.stepAsked
  repeat (first | with_reducible assumption | intro _ | with_reducible apply setReturn_kept | with_reducible apply stepAtSync_kept | with_reducible apply kept_ite | split | dsimp only | with_reducible apply kept_ite | split | dsimp only)

theorem monitorSync_kept {s0 : State} (s : State) (t125 : Int) (hk : Kept s0 s) : Kept s0 (State.monitorSync s t125) := by
  unfold State.monitorSync
  repeat (first | with_reducible assumption | intro _ | with_reducible apply wrBoth_kept | with_reducible apply kept_ite | split | dsimp only | with_reducible apply kept_ite | split | dsimp only)

theorem echo_kept {s0 : State} (s : State) (stamp : Nat) (hk : Kept s0 s) : Kept s0 (State.echo s stamp) := by
  unfold State.echo
  repeat (first | with_reducible assumption | intro _ | with_reducible apply updMer_kept | with_reducible apply kept_ite | split | dsimp only | with_reducible apply kept_mk | with_reducible apply kept_ite | split | dsimp only)

theorem syncArrives_kept {s0 : State} (s : State) (stamp : Nat) (hk : Kept s0 s) : Kept s0 (State.syncArrives s stamp) := by
  unfold State.syncArrives
  repeat (first | with_reducible assumption | intro _ | with_reducible apply raise_kept | with_reducible apply updMer_kept | with_reducible apply reachTime_kept | with_reducible apply merEvent_kept | with_reducible apply monitorSync_kept | with_reducible apply echo_kept | with_reducible apply kept_ite | split | dsimp only | with_reducible apply kept_mk | with_reducible apply kept_ite | split | dsimp only)

theorem stepAtSync_kept {s0 : State} (s : State) (m : MerId) (hk : Kept s0 s) : Kept s0 (State.stepAtSync s m) := by
  unfold State.stepAtSync
  repeat (first | with_reducible assumption | intro _ | with_reducible apply raise_kept | with_reducible apply merEvent_kept | with_reducible apply syncDarken_kept | with_reducible apply setDpll_kept | with_reducible apply setReturn_kept | with_reducible apply kept_ite | split | dsimp only | with_reducible apply kept_ite | split | dsimp only)

theorem returnAtSync_kept {s0 : State} (s : State) (hk : Kept s0 s) : Kept s0 (State.returnAtSync s) := by
  unfold State.returnAtSync
  repeat (first | with_reducible assumption | intro _ | with_reducible apply updClock_kept | with_reducible apply setBoth_kept | with_reducible apply clockCheck_kept | with_reducible apply kept_foldl | with_reducible apply kept_foldl_snd | with_reducible apply kept_foldl_fst | with_reducible apply kept_ite | split | dsimp only | with_reducible apply kept_mk | with_reducible apply kept_ite | split | dsimp only)

theorem takeBoth_kept {s0 : State} (l : List MerId) (a : State × ClockChange) (hk : Kept s0 a.1) :
    Kept s0 (l.foldl (fun (a : State × ClockChange) (i : MerId) =>
      if a.1.isSet (.merApply i) MER_APPLY.AT_SYNC ∧ ¬ a.1.dieLost[Die.ofMerid i] then
        let r := a.1.takeStaged i
        (r.1, if r.2 = .none then a.2 else r.2)
      else a) a).1 := by
  refine kept_foldl_fst hk (fun b i hb => ?_)
  split
  · exact takeStaged_kept _ _ hb
  · exact hb

theorem applySync_kept {s0 : State} (s : State) (hk : Kept s0 s) : Kept s0 s.applySync := by
  unfold State.applySync
  extract_lets m
  split
  · exact hk
  · extract_lets s1
    have h1 : Kept s0 s1 := updMer_kept _ _ _ (reachTime_kept _ _ hk)
    clear_value s1
    split
    · exact monitorSync_kept _ _ h1
    · have h := takeBoth_kept (List.finRange 2) (s1, ClockChange.none) h1
      split
      rename_i t change e
      have h2 : Kept s0 t := by rw [e] at h; exact h
      clear h e h1
      extract_lets moved s2 s3 s4
      have h2 : Kept s0 s2 := syncDarken_kept _ _ (gridRestart_kept _ _ (setBoth_kept _ _ _ _ h2))
      clear_value s2
      have h4 : Kept s0 s4 := returnAtSync_kept _ (stepAtSync_kept _ _ (stepAtSync_kept _ _ (setFld_kept _ _ _ _ (setBoth_kept _ _ _ _ h2))))
      clear_value s4
      exact clockChanged_kept _ _ (merEvent_kept _ _ _ _ h4)

theorem syncFires_kept {s0 : State} (s : State) (m : MerId) (hk : Kept s0 s) : Kept s0 (State.syncFires s m) := by
  unfold State.syncFires
  repeat (first | with_reducible assumption | intro _ | with_reducible apply updMer_kept | with_reducible apply fresh_kept | with_reducible apply kept_ite | split | dsimp only | with_reducible apply kept_mk | with_reducible apply kept_ite | split | dsimp only | with_reducible apply kept_free)

theorem echoMeasured_kept {s0 : State} (s : State) (m : MerId) (drift : Int) (hk : Kept s0 s) : Kept s0 (State.echoMeasured s m drift) := by
  unfold State.echoMeasured
  repeat (first | with_reducible assumption | intro _ | with_reducible apply wr_kept | with_reducible apply kept_ite | split | dsimp only | with_reducible apply kept_ite | split | dsimp only)

theorem echoTaken_kept {s0 : State} (s : State) (m : MerId) (hk : Kept s0 s) : Kept s0 (State.echoTaken s m) := by
  unfold State.echoTaken
  exact echoMeasured_kept _ m _ (fresh_kept s hk)

theorem twinCalibrated_kept {s0 : State} (s : State) (n : LampId) (hk : Kept s0 s) : Kept s0 (State.twinCalibrated s n) := by
  unfold State.twinCalibrated
  repeat (first | with_reducible assumption | intro _ | with_reducible apply fresh_kept | with_reducible apply setBoth_kept | with_reducible apply kept_ite | split | dsimp only | with_reducible apply kept_mk | with_reducible apply kept_ite | split | dsimp only | with_reducible apply kept_free)

theorem trimTwin_kept {s0 : State} (s : State) (k : Fin 10) (residual : Int) (hk : Kept s0 s) : Kept s0 (State.trimTwin s k residual) := by
  unfold State.trimTwin
  repeat (first | with_reducible assumption | intro _ | with_reducible apply setFld_kept | with_reducible apply raise_kept | with_reducible apply updMer_kept | with_reducible apply merEvent_kept | with_reducible apply setBoth_kept | with_reducible apply kept_ite | split | dsimp only | with_reducible apply kept_mk | with_reducible apply kept_ite | split | dsimp only)

end Sys2Proof.Laws
end

