-- ==== Sys2Proof/Laws/KeptTransit.lean ====
section
/-! SUPPORT. What the operations of Machine/Transit.lean keep (see Kept.lean). -/
namespace Sys2Proof.Laws
open Sys2Proof Sys2Proof.Machine

theorem updTrn_kept {s0 : State} (s : State) (m : MerId) (f : Transit → Transit) (hk : Kept s0 s) : Kept s0 (State.updTrn s m f) := by
  unfold State.updTrn
  repeat (first | with_reducible assumption | intro _ | with_reducible apply kept_ite | split | dsimp only | with_reducible apply kept_mk | with_reducible apply kept_ite | split | dsimp only | with_reducible apply kept_transit)

theorem updInput_kept {s0 : State} (s : State) (m : MerId) (i : TrnIn) (f : TrnInput → TrnInput) (hk : Kept s0 s) : Kept s0 (State.updInput s m i f) := by
  unfold State.updInput
  repeat (first | with_reducible assumption | intro _ | with_reducible apply updTrn_kept | with_reducible apply kept_ite | split | dsimp only | with_reducible apply kept_mk | with_reducible apply kept_ite | split | dsimp only)

theorem updEng_kept {s0 : State} (s : State) (m : MerId) (e : EngId) (f : Machine.Engine → Machine.Engine) (hk : Kept s0 s) : Kept s0 (State.updEng s m e f) := by
  unfold State.updEng
  repeat (first | with_reducible assumption | intro _ | with_reducible apply updTrn_kept | with_reducible apply kept_ite | split | dsimp only | with_reducible apply kept_mk | with_reducible apply kept_ite | split | dsimp only | with_reducible apply kept_engines)

theorem engClear_kept {s0 : State} (s : State) (m : MerId) (e : EngId) (hk : Kept s0 s) : Kept s0 (State.engClear s m e) := by
  unfold State.engClear
  repeat (first | with_reducible assumption | intro _ | with_reducible apply wr_kept | with_reducible apply updEng_kept | with_reducible apply kept_ite | split | dsimp only | with_reducible apply kept_mk | with_reducible apply kept_ite | split | dsimp only)

theorem engStart_kept {s0 : State} (s : State) (m : MerId) (e : EngId) (hk : Kept s0 s) : Kept s0 (State.engStart s m e) := by
  unfold State.engStart
  repeat (first | with_reducible assumption | intro _ | with_reducible apply raise_kept | with_reducible apply updEng_kept | with_reducible apply engClear_kept | with_reducible apply kept_ite | split | dsimp only | with_reducible apply kept_mk | with_reducible apply kept_ite | split | dsimp only)

theorem engAbort_kept {s0 : State} (s : State) (m : MerId) (e : EngId) (hk : Kept s0 s) : Kept s0 (State.engAbort s m e) := by
  unfold State.engAbort
  repeat (first | with_reducible assumption | intro _ | with_reducible apply setFld_kept | with_reducible apply updEng_kept | with_reducible apply kept_ite | split | dsimp only | with_reducible apply kept_mk | with_reducible apply kept_ite | split | dsimp only)

theorem engEnd_kept {s0 : State} (s : State) (m : MerId) (e : EngId) (hk : Kept s0 s) : Kept s0 (State.engEnd s m e) := by
  unfold State.engEnd
  repeat (first | with_reducible assumption | intro _ | with_reducible apply wr_kept | with_reducible apply setFld_kept | with_reducible apply raise_kept | with_reducible apply wr64_kept | with_reducible apply publish_kept | with_reducible apply updEng_kept | with_reducible apply kept_ite | split | dsimp only | with_reducible apply kept_mk | with_reducible apply kept_ite | split | dsimp only)

theorem engEnter_kept {s0 : State} (s : State) (m : MerId) (e : EngId) (x : Int) (hk : Kept s0 s) : Kept s0 (State.engEnter s m e x) := by
  unfold State.engEnter
  repeat (first | with_reducible assumption | intro _ | with_reducible apply bump_kept | with_reducible apply updEng_kept | with_reducible apply engEnd_kept | with_reducible apply kept_ite | split | dsimp only | with_reducible apply kept_mk | with_reducible apply kept_ite | split | dsimp only)

theorem engResult_kept {s0 : State} (s : State) (m : MerId) (e : EngId) (k : EngKind) (x : Int) (marked : Bool) (hk : Kept s0 s) : Kept s0 (State.engResult s m e k x marked) := by
  unfold State.engResult
  repeat (first | with_reducible assumption | intro _ | with_reducible apply raise_kept | with_reducible apply bump_kept | with_reducible apply engClear_kept | with_reducible apply engEnter_kept | with_reducible apply kept_ite | split | dsimp only | with_reducible apply kept_mk | with_reducible apply kept_ite | split | dsimp only)

theorem engIncomplete_kept {s0 : State} (s : State) (m : MerId) (e : EngId) (hk : Kept s0 s) : Kept s0 (State.engIncomplete s m e) := by
  unfold State.engIncomplete
  repeat (first | with_reducible assumption | intro _ | with_reducible apply updEng_kept | with_reducible apply engResult_kept | with_reducible apply kept_ite | split | dsimp only | with_reducible apply kept_mk | with_reducible apply kept_ite | split | dsimp only)

theorem engPair_kept {s0 : State} (s : State) (m : MerId) (e : EngId) (t0 t1 : Int) (marked unresolved : Bool) (hk : Kept s0 s) : Kept s0 (State.engPair s m e t0 t1 marked unresolved) := by
  unfold State.engPair
  repeat (first | with_reducible assumption | intro _ | with_reducible apply engResult_kept | with_reducible apply kept_ite | split | dsimp only | with_reducible apply kept_ite | split | dsimp only)

theorem engInterval_kept {s0 : State} (s : State) (m : MerId) (e : EngId) (role same : Bool) (t : Int) (marked missed : Bool) (hk : Kept s0 s) :
    Kept s0 (s.engInterval m e role same t marked missed) := by
  unfold State.engInterval
  extract_lets late s1
  have h1 : Kept s0 s1 := by
    dsimp only [s1]
    cases late
    · exact hk
    · exact engIncomplete_kept _ _ _ hk
  split
  · exact updEng_kept _ _ _ _ h1
  · split
    · exact engPair_kept _ _ _ _ _ _ _ (updEng_kept _ _ _ _ h1)
    · split
      · exact h1
      · split <;> exact engPair_kept _ _ _ _ _ _ _ (updEng_kept _ _ _ _ h1)

theorem engEdge_kept {s0 : State} (s : State) (m : MerId) (e : EngId) (i : TrnIn) (stamp : Nat) (marked missed : Bool) (hk : Kept s0 s) : Kept s0 (State.engEdge s m e i stamp marked missed) := by
  unfold State.engEdge
  repeat (first | with_reducible assumption | intro _ | with_reducible apply fresh_kept | with_reducible apply updEng_kept | with_reducible apply engResult_kept | with_reducible apply engInterval_kept | with_reducible apply kept_ite | split | dsimp only | with_reducible apply kept_mk | with_reducible apply kept_ite | split | dsimp only | with_reducible apply kept_free)

theorem engPairLate_kept {s0 : State} (s : State) (m : MerId) (e : EngId) (hk : Kept s0 s) : Kept s0 (State.engPairLate s m e) := by
  unfold State.engPairLate
  repeat (first | with_reducible assumption | intro _ | with_reducible apply engIncomplete_kept | with_reducible apply kept_ite | split | dsimp only | with_reducible apply kept_ite | split | dsimp only)

theorem logDrop_kept {s0 : State} (s : State) (hk : Kept s0 s) : Kept s0 (State.logDrop s) := by
  unfold State.logDrop
  repeat (first | with_reducible assumption | intro _ | with_reducible apply raise_kept | with_reducible apply bump_kept | with_reducible apply publish_kept | with_reducible apply kept_ite | split | dsimp only | with_reducible apply kept_ite | split | dsimp only)

theorem logRecord_kept {s0 : State} (s : State) (r : StampRec) (hk : Kept s0 s) : Kept s0 (s.logRecord r) := by
  unfold State.logRecord
  extract_lets queue s1 n wr rd next full a s2 s3 leaves
  have h1 : Kept s0 s1 := kept_trnLogQ hk
  have h2 : Kept s0 s2 := updBank_wf h1 (fun hd => Memory_wf_write _ _ _ hd)
  have h3 : Kept s0 s3 := by
    dsimp only [s3]
    split
    · exact setFld_kept _ _ _ _ h2
    · exact h2
  split
  · exact logDrop_kept _ h1
  · split
    · exact logDrop_kept _ h1
    · exact kept_trnLogQ (setFld_kept _ _ _ _ h3)

theorem edgeSelected_kept {s0 : State} (s : State) (i : TrnIn) (fall : Bool) (hk : Kept s0 s) : Kept s0 (State.edgeSelected s i fall).2 := by
  unfold State.edgeSelected
  repeat (first | with_reducible assumption | intro _ | with_reducible apply fresh_kept | with_reducible apply kept_ite | split | dsimp only | with_reducible apply kept_mk | with_reducible apply kept_ite | split | dsimp only | with_reducible apply kept_free)

theorem edgeMissed_kept {s0 : State} (s : State) (m : MerId) (i : TrnIn) (t step : Nat) (hk : Kept s0 s) : Kept s0 (s.edgeMissed m i t step).2 := by
  unfold State.edgeMissed
  split
  · exact hk
  · dsimp only
    split
    · exact hk
    · split
      · exact fresh_kept _ hk
      · exact hk

theorem missEdge_kept {s0 : State} (s : State) (m : MerId) (i : TrnIn) (hk : Kept s0 s) : Kept s0 (State.missEdge s m i) := by
  unfold State.missEdge
  repeat (first | with_reducible assumption | intro _ | with_reducible apply raise_kept | with_reducible apply bump_kept | with_reducible apply updInput_kept | with_reducible apply kept_ite | split | dsimp only | with_reducible apply kept_mk | with_reducible apply kept_ite | split | dsimp only)

theorem stampEdge_kept {s0 : State} (s : State) (m : MerId) (i : TrnIn) (fall : Bool) (t : Nat) (hk : Kept s0 s) : Kept s0 (State.stampEdge s m i fall t).2 := by
  unfold State.stampEdge
  repeat (first | with_reducible assumption | intro _ | with_reducible apply wr_kept | with_reducible apply raise_kept | with_reducible apply updTrn_kept | with_reducible apply kept_foldl | with_reducible apply kept_foldl_snd | with_reducible apply kept_foldl_fst | with_reducible apply kept_ite | split | dsimp only | with_reducible apply kept_mk | with_reducible apply kept_ite | split | dsimp only)

theorem portPublish_kept {s0 : State} (s : State) (i : TrnIn) (r : Option StampRec) (hk : Kept s0 s) : Kept s0 (State.portPublish s i r) := by
  unfold State.portPublish
  repeat (first | with_reducible assumption | intro _ | with_reducible apply raise_kept | with_reducible apply publishOn_kept | with_reducible apply kept_ite | split | dsimp only | with_reducible apply kept_mk | with_reducible apply kept_ite | split | dsimp only)

theorem unitEdge_kept {s0 : State} (s : State) (m : MerId) (i : TrnIn) (fall : Bool) (t : Nat) (hk : Kept s0 s) : Kept s0 (State.unitEdge s m i fall t) := by
  unfold State.unitEdge
  repeat (first | with_reducible assumption | intro _ | with_reducible apply engEdge_kept | with_reducible apply logRecord_kept | with_reducible apply edgeMissed_kept | with_reducible apply missEdge_kept | with_reducible apply stampEdge_kept | with_reducible apply portPublish_kept | with_reducible apply kept_foldl | with_reducible apply kept_foldl_snd | with_reducible apply kept_foldl_fst | with_reducible apply kept_ite | split | dsimp only | with_reducible apply kept_ite | split | dsimp only)

theorem laidEdge_kept {s0 : State} (s : State) (i : TrnIn) (at_ : Nat) (hk : Kept s0 s) : Kept s0 (State.laidEdge s i at_) := by
  unfold State.laidEdge
  repeat (first | with_reducible assumption | intro _ | with_reducible apply updInput_kept | with_reducible apply edgeMissed_kept | with_reducible apply missEdge_kept | with_reducible apply portPublish_kept | with_reducible apply kept_ite | split | dsimp only | with_reducible apply kept_mk | with_reducible apply kept_ite | split | dsimp only)

theorem edgeStamped_kept {s0 : State} (s : State) (i : TrnIn) (fall : Bool) (tA tB : Nat) (hk : Kept s0 s) : Kept s0 (State.edgeStamped s i fall tA tB) := by
  unfold State.edgeStamped
  repeat (first | with_reducible assumption | intro _ | with_reducible apply reachTime_kept | with_reducible apply edgeSelected_kept | with_reducible apply unitEdge_kept | with_reducible apply laidEdge_kept | with_reducible apply kept_foldl | with_reducible apply kept_foldl_snd | with_reducible apply kept_foldl_fst | with_reducible apply kept_ite | split | dsimp only | with_reducible apply kept_ite | split | dsimp only)

theorem tapStamp_kept {s0 : State} (s : State) (m : MerId) (e : TapEdge) (hk : Kept s0 s) : Kept s0 (State.tapStamp s m e).2 := by
  unfold State.tapStamp
  repeat (first | with_reducible assumption | intro _ | with_reducible apply fresh_kept | with_reducible apply kept_ite | split | dsimp only | with_reducible apply kept_mk | with_reducible apply kept_ite | split | dsimp only | with_reducible apply kept_free)

theorem tapArrives_kept {s0 : State} (s : State) (i : TrnIn) (hk : Kept s0 s) : Kept s0 (State.tapArrives s i) := by
  unfold State.tapArrives
  repeat (first | with_reducible assumption | intro _ | with_reducible apply reachTime_kept | with_reducible apply edgeStamped_kept | with_reducible apply tapStamp_kept | with_reducible apply kept_ite | split | dsimp only | with_reducible apply kept_mk | with_reducible apply kept_ite | split | dsimp only | with_reducible apply kept_taps)

theorem edgeArrives_kept {s0 : State} (s : State) (i : TrnIn) (fall : Bool) (tA tB : Nat) (hk : Kept s0 s) : Kept s0 (State.edgeArrives s i fall tA tB) := by
  unfold State.edgeArrives
  repeat (first | with_reducible assumption | intro _ | with_reducible apply edgeStamped_kept | with_reducible apply tapArrives_kept | with_reducible apply kept_ite | split | dsimp only | with_reducible apply kept_ite | split | dsimp only)

theorem setStuck_kept {s0 : State} (s : State) (m : MerId) (i : TrnIn) (b : Bool) (hk : Kept s0 s) : Kept s0 (State.setStuck s m i b) := by
  unfold State.setStuck
  repeat (first | with_reducible assumption | intro _ | with_reducible apply setFlag_kept | with_reducible apply updInput_kept | with_reducible apply kept_ite | split | dsimp only | with_reducible apply kept_mk | with_reducible apply kept_ite | split | dsimp only)

theorem inputIsStuck_kept {s0 : State} (s : State) (i : TrnIn) (hk : Kept s0 s) : Kept s0 (State.inputIsStuck s i) := by
  unfold State.inputIsStuck
  repeat (first | with_reducible assumption | intro _ | with_reducible apply raise_kept | with_reducible apply publish_kept | with_reducible apply setStuck_kept | with_reducible apply kept_foldl | with_reducible apply kept_foldl_snd | with_reducible apply kept_foldl_fst | with_reducible apply kept_ite | split | dsimp only | with_reducible apply kept_ite | split | dsimp only)

theorem inputIsReleased_kept {s0 : State} (s : State) (i : TrnIn) (hk : Kept s0 s) : Kept s0 (State.inputIsReleased s i) := by
  unfold State.inputIsReleased
  repeat (first | with_reducible assumption | intro _ | with_reducible apply setFld_kept | with_reducible apply raise_kept | with_reducible apply setStuck_kept | with_reducible apply kept_foldl | with_reducible apply kept_foldl_snd | with_reducible apply kept_foldl_fst | with_reducible apply kept_ite | split | dsimp only | with_reducible apply kept_ite | split | dsimp only)

theorem calDone_kept {s0 : State} (s : State) (m : MerId) (i : TrnIn) (hk : Kept s0 s) : Kept s0 (State.calDone s m i) := by
  unfold State.calDone
  repeat (first | with_reducible assumption | intro _ | with_reducible apply raise_kept | with_reducible apply updTrn_kept | with_reducible apply kept_ite | split | dsimp only | with_reducible apply kept_mk | with_reducible apply kept_ite | split | dsimp only)

theorem tclkStops_kept {s0 : State} (s : State) (hk : Kept s0 s) : Kept s0 (State.tclkStops s) := by
  unfold State.tclkStops
  repeat (first | with_reducible assumption | intro _ | with_reducible apply setFld_kept | with_reducible apply updTrn_kept | with_reducible apply engAbort_kept | with_reducible apply kept_foldl | with_reducible apply kept_foldl_snd | with_reducible apply kept_foldl_fst | with_reducible apply kept_ite | split | dsimp only | with_reducible apply kept_mk | with_reducible apply kept_ite | split | dsimp only | with_reducible apply kept_taps)

end Sys2Proof.Laws
end

