-- ==== Sys2Proof/Laws/KeptPower.lean ====
section
/-! SUPPORT. What the operations of Machine/Power.lean keep (see Kept.lean). -/
namespace Sys2Proof.Laws
open Sys2Proof Sys2Proof.Machine

theorem updPower_kept {s0 : State} (s : State) (f : Power → Power) (hk : Kept s0 s) : Kept s0 (State.updPower s f) := by
  unfold State.updPower
  repeat (first | with_reducible assumption | intro _ | with_reducible apply kept_ite | split | dsimp only | with_reducible apply kept_mk | with_reducible apply kept_ite | split | dsimp only | with_reducible apply kept_power)

theorem toPwr_kept {s0 : State} (s : State) (v : Nat) (hk : Kept s0 s) : Kept s0 (State.toPwr s v) := by
  unfold State.toPwr
  repeat (first | with_reducible assumption | intro _ | with_reducible apply setFld_kept | with_reducible apply setFlag_kept | with_reducible apply publish_kept | with_reducible apply kept_ite | split | dsimp only | with_reducible apply kept_ite | split | dsimp only)

theorem refuse_kept {s0 : State} (s : State) (cause : Nat) (hk : Kept s0 s) : Kept s0 (State.refuse s cause) := by
  unfold State.refuse
  repeat (first | with_reducible assumption | intro _ | with_reducible apply setFld_kept | with_reducible apply raise_kept | with_reducible apply kept_ite | split | dsimp only | with_reducible apply kept_ite | split | dsimp only)

theorem toLit_kept {s0 : State} (s : State) (hk : Kept s0 s) : Kept s0 (State.toLit s) := by
  unfold State.toLit
  repeat (first | with_reducible assumption | intro _ | with_reducible apply updPower_kept | with_reducible apply toPwr_kept | with_reducible apply kept_ite | split | dsimp only | with_reducible apply kept_mk | with_reducible apply kept_ite | split | dsimp only)

theorem toShuttered_kept {s0 : State} (s : State) (hk : Kept s0 s) : Kept s0 (State.toShuttered s) := by
  unfold State.toShuttered
  repeat (first | with_reducible assumption | intro _ | with_reducible apply toIdle_kept | with_reducible apply cutMarkers_kept | with_reducible apply toPwr_kept | with_reducible apply kept_foldl | with_reducible apply kept_foldl_snd | with_reducible apply kept_foldl_fst | with_reducible apply kept_ite | split | dsimp only | with_reducible apply kept_ite | split | dsimp only)

theorem logAge_kept {s0 : State} (s : State) (die : Die) (index value : Nat) (hk : Kept s0 s) : Kept s0 (State.logAge s die index value) := by
  unfold State.logAge
  repeat (first | with_reducible assumption | intro _ | with_reducible apply logLedger_kept | with_reducible apply kept_ite | split | dsimp only | with_reducible apply kept_ite | split | dsimp only)

theorem ageingEntries_kept {s0 : State} (s : State) (hk : Kept s0 s) : Kept s0 (State.ageingEntries s) := by
  unfold State.ageingEntries
  repeat (first | with_reducible assumption | intro _ | with_reducible apply logAge_kept | with_reducible apply kept_foldl | with_reducible apply kept_foldl_snd | with_reducible apply kept_foldl_fst | with_reducible apply kept_ite | split | dsimp only | with_reducible apply kept_ite | split | dsimp only)

theorem ageing_kept {s0 : State} (s : State) (hk : Kept s0 s) : Kept s0 (State.ageing s) := by
  unfold State.ageing
  repeat (first | with_reducible assumption | intro _ | with_reducible apply ageingEntries_kept | with_reducible apply kept_ite | split | dsimp only | with_reducible apply kept_ite | split | dsimp only)

theorem clearAlt_kept {s0 : State} (s : State) (v : Nat) (hk : Kept s0 s) : Kept s0 (State.clearAlt s v) := by
  unfold State.clearAlt
  repeat (first | with_reducible assumption | intro _ | with_reducible apply updLedger_kept | with_reducible apply logLedger_kept | with_reducible apply kept_foldl | with_reducible apply kept_foldl_snd | with_reducible apply kept_foldl_fst | with_reducible apply kept_ite | split | dsimp only | with_reducible apply kept_mk | with_reducible apply kept_ite | split | dsimp only)

theorem compactAsked_kept {s0 : State} (s : State) (hk : Kept s0 s) : Kept s0 (State.compactAsked s) := by
  unfold State.compactAsked
  repeat (first | with_reducible assumption | intro _ | with_reducible apply updLedger_kept | with_reducible apply kept_ite | split | dsimp only | with_reducible apply kept_mk | with_reducible apply kept_ite | split | dsimp only)

theorem compacted_kept {s0 : State} (s : State) (ok0 ok1 : Bool) (hk : Kept s0 s) : Kept s0 (State.compacted s ok0 ok1) := by
  unfold State.compacted
  repeat (first | with_reducible assumption | intro _ | with_reducible apply raise_kept | with_reducible apply updLedger_kept | with_reducible apply kept_ite | split | dsimp only | with_reducible apply kept_ite | split | dsimp only)

theorem toMaster_kept {s0 : State} (s : State) (r : Reg) (w : Word) (hk : Kept s0 s) : Kept s0 (State.toMaster s r w) := by
  unfold State.toMaster
  repeat (first | with_reducible assumption | intro _ | with_reducible apply updPower_kept | with_reducible apply kept_ite | split | dsimp only | with_reducible apply kept_mk | with_reducible apply kept_ite | split | dsimp only)

theorem reloadReg_kept {s0 : State} (s : State) (p : Reg × Word) (hk : Kept s0 s) : Kept s0 (State.reloadReg s p) := by
  unfold State.reloadReg
  repeat (first | with_reducible assumption | intro _ | with_reducible apply wr_kept | with_reducible apply updNco_kept | with_reducible apply kept_ite | split | dsimp only | with_reducible apply kept_mk | with_reducible apply kept_ite | split | dsimp only)

theorem reloadDies_kept {s0 : State} (s : State) (ds : List Die) (hk : Kept s0 s) : Kept s0 (s.reloadDies ds) := by
  unfold State.reloadDies
  extract_lets mine s1 s2 lamps
  have h1 : Kept s0 s1 := kept_change hk rfl (fun h => RegTab_wf_sublist List.filter_sublist h) id id id id
  have h2 : Kept s0 s2 := kept_foldl h1 (fun t p ht => reloadReg_kept _ _ ht)
  refine kept_foldl h2 (fun t n ht => kept_biasBlk (kept_foldl ht (fun u c hu => updChan_kept _ _ _ ?_)))
  split
  · exact wr_kept hu _ _
  · exact hu

theorem dropLamp_kept {s0 : State} (s : State) (n : LampId) (hk : Kept s0 s) : Kept s0 (State.dropLamp s n) := by
  unfold State.dropLamp
  repeat (first | with_reducible assumption | intro _ | with_reducible apply updChan_kept | with_reducible apply updBias_kept | with_reducible apply updLook_kept | with_reducible apply updEngine_kept | with_reducible apply reloadDies_kept | with_reducible apply kept_foldl | with_reducible apply kept_foldl_snd | with_reducible apply kept_foldl_fst | with_reducible apply kept_ite | split | dsimp only | with_reducible apply kept_ite | split | dsimp only)

theorem dropOffConsumers_kept {s0 : State} (s : State) (hk : Kept s0 s) : Kept s0 (State.dropOffConsumers s) := by
  unfold State.dropOffConsumers
  repeat (first | with_reducible assumption | intro _ | with_reducible apply setFld_kept | with_reducible apply dropOff_kept | with_reducible apply kept_foldl | with_reducible apply kept_foldl_snd | with_reducible apply kept_foldl_fst | with_reducible apply kept_ite | split | dsimp only | with_reducible apply kept_mk | with_reducible apply kept_ite | split | dsimp only | with_reducible apply kept_fabric)

theorem dropDie_kept {s0 : State} (s : State) (x : Die) (hk : Kept s0 s) : Kept s0 (State.dropDie s x) := by
  unfold State.dropDie
  repeat (first | with_reducible assumption | intro _ | with_reducible apply setFld_kept | with_reducible apply setDoms_kept | with_reducible apply updPower_kept | with_reducible apply dropOffConsumers_kept | with_reducible apply kept_ite | split | dsimp only | with_reducible apply kept_mk | with_reducible apply kept_ite | split | dsimp only | with_reducible apply kept_dieLost)

theorem admitAll_kept {s0 : State} (s : State) (hk : Kept s0 s) : Kept s0 (State.admitAll s) := by
  unfold State.admitAll
  repeat (first | with_reducible assumption | intro _ | with_reducible apply updPower_kept | with_reducible apply kept_ite | split | dsimp only | with_reducible apply kept_mk | with_reducible apply kept_ite | split | dsimp only)

theorem lampReturns_kept {s0 : State} (s : State) (n : LampId) (hk : Kept s0 s) : Kept s0 (State.lampReturns s n) := by
  unfold State.lampReturns
  repeat (first | with_reducible assumption | intro _ | with_reducible apply raise_kept | with_reducible apply deliver_kept | with_reducible apply updPower_kept | with_reducible apply dropLamp_kept | with_reducible apply kept_ite | split | dsimp only | with_reducible apply kept_mk | with_reducible apply kept_ite | split | dsimp only)

theorem reloadStore_kept {s0 : State} (s : State) (c : ChanId) (hk : Kept s0 s) : Kept s0 (State.reloadStore s c) := by
  unfold State.reloadStore
  repeat (first | with_reducible assumption | intro _ | with_reducible apply updEngine_kept | with_reducible apply storeState_kept | with_reducible apply storeShows_kept | with_reducible apply kept_ite | split | dsimp only | with_reducible apply kept_mk | with_reducible apply kept_ite | split | dsimp only)

theorem lampReadmitted_kept {s0 : State} (s : State) (n : LampId) (hk : Kept s0 s) : Kept s0 (State.lampReadmitted s n) := by
  unfold State.lampReadmitted
  repeat (first | with_reducible assumption | intro _ | with_reducible apply setFld_kept | with_reducible apply raise_kept | with_reducible apply setDoms_kept | with_reducible apply relayCheck_kept | with_reducible apply clockCheck_kept | with_reducible apply updPower_kept | with_reducible apply reloadDies_kept | with_reducible apply reloadStore_kept | with_reducible apply kept_foldl | with_reducible apply kept_foldl_snd | with_reducible apply kept_foldl_fst | with_reducible apply kept_ite | split | dsimp only | with_reducible apply kept_mk | with_reducible apply kept_ite | split | dsimp only | with_reducible apply kept_dieLost)

theorem fullReset_kept {s0 : State} (s : State) (dacFalls : Bool) (hk : Kept s0 s) : Kept s0 (s.fullReset dacFalls) := by
  unfold State.fullReset
  extract_lets a b c d e t
  have h1 : Kept s0 t := by
    refine kept_change hk rfl (fun _ => ?_) (fun h => h) (fun _ f => ?_) (fun _ d => ?_) (fun _ d b => ?_)
    · exact ⟨List.Pairwise.nil, by intro p hp; cases hp⟩
    · show Memory.wf HostIf.reset.bar2[f] = true
      revert f; decide
    · show Memory.wf State.reset.moor[d].data = true
      revert d; decide
    · show Memory.wf State.reset.plate[d][b].cells = true
      revert d b; decide
  split
  · exact h1
  · refine kept_foldl h1 (fun u n hu => ?_)
    split
    · exact dacValid_kept _ _ hu
    · exact hu

theorem epochStart_kept {s0 : State} (s : State) (hk : Kept s0 s) : Kept s0 (State.epochStart s) := by
  unfold State.epochStart
  repeat (first | with_reducible assumption | intro _ | with_reducible apply updClock_kept | with_reducible apply kept_ite | split | dsimp only | with_reducible apply kept_mk | with_reducible apply kept_ite | split | dsimp only | with_reducible apply kept_transit)

theorem enterLaidUp_kept {s0 : State} (s : State) (hk : Kept s0 s) : Kept s0 s.enterLaidUp := by
  unfold State.enterLaidUp
  extract_lets s1 e s2 saved s3 s4 s5 s6 admitted s7 s8 s9 s10 s11 s12
  have h1 : Kept s0 s1 := by dsimp only [s1]; with_reducible exact updHost_kept (postAll_kept _ hk) rfl rfl
  have h3 : Kept s0 s3 := updPower_kept _ _ (publish_kept _ _ _ (setFld_kept _ _ _ _ h1))
  have h4 : Kept s0 s4 := kept_foldl (ageingEntries_kept _ h3) (fun t d ht => srEnter_kept _ _ _ ht)
  have h6 : Kept s0 s6 := kept_foldl (toPwr_kept _ _ h4) (fun t f ht => wr_kept ht _ _)
  have h7 : Kept s0 s7 := dropOffConsumers_kept _ (updPower_kept _ _ (mapDoms_kept _ _ (tclkStops_kept _ h6)))
  have h8 : Kept s0 s8 := kept_foldl h7 (fun t m ht => updMer_kept _ _ _ (setFld_kept _ _ _ _ (setLoop_kept _ _ _ _ (setLoop_kept _ _ _ _ ht))))
  have h10 : Kept s0 s10 := kept_foldl (clockCheck_kept _ h8) (fun t c ht => updChan_kept _ _ _ ht)
  clear_value s1 e s2 saved s3 s4 s5 s6 admitted s7 s8 s9 s10
  have h11 : Kept s0 s11 := by
    refine kept_change h10 rfl (fun h => h) (fun h => h) (fun h => h) (fun h => h) (fun _ d b => ?_)
    show Memory.wf (Vector.replicate 2 (Vector.replicate 6 Bank.reset))[d][b].cells = true
    revert d b; decide
  exact reloadDies_kept _ _ (wr_kept (wr_kept (wr_kept h11 _ _) _ _) _ _)

theorem requestPower_kept {s0 : State} (s : State) (v : Nat) (direct : Bool) (hk : Kept s0 s) : Kept s0 (State.requestPower s v direct) := by
  unfold State.requestPower
  repeat (first | with_reducible assumption | intro _ | with_reducible apply reachGran_kept | with_reducible apply refuse_kept | with_reducible apply toLit_kept | with_reducible apply toShuttered_kept | with_reducible apply enterLaidUp_kept | with_reducible apply kept_ite | split | dsimp only | with_reducible apply kept_mk | with_reducible apply kept_ite | split | dsimp only)

end Sys2Proof.Laws
end

