-- ==== Sys2Proof/Laws/KeptStart.lean ====
section
/-! SUPPORT. What the operations of Machine/Start.lean keep (see Kept.lean). -/
namespace Sys2Proof.Laws
open Sys2Proof Sys2Proof.Machine

theorem updRecord_kept {s0 : State} (s : State) (f : StartRec → StartRec) (hk : Kept s0 s) : Kept s0 (State.updRecord s f) := by
  unfold State.updRecord
  repeat (first | with_reducible assumption | intro _ | with_reducible apply updLedger_kept | with_reducible apply kept_ite | split | dsimp only | with_reducible apply kept_mk | with_reducible apply kept_ite | split | dsimp only)

theorem outcome_kept {s0 : State} (s : State) (k v : Nat) (hk : Kept s0 s) : Kept s0 (State.outcome s k v) := by
  unfold State.outcome
  repeat (first | with_reducible assumption | intro _ | with_reducible apply wr64_kept | with_reducible apply updRecord_kept | with_reducible apply kept_ite | split | dsimp only | with_reducible apply kept_mk | with_reducible apply kept_ite | split | dsimp only)

theorem closeRecord_kept {s0 : State} (s : State) (hk : Kept s0 s) : Kept s0 (State.closeRecord s) := by
  unfold State.closeRecord
  repeat (first | with_reducible assumption | intro _ | with_reducible apply updRecord_kept | with_reducible apply kept_ite | split | dsimp only | with_reducible apply kept_mk | with_reducible apply kept_ite | split | dsimp only | with_reducible apply kept_links)

theorem recordClosed_kept {s0 : State} (s : State) (hk : Kept s0 s) : Kept s0 (State.recordClosed s) := by
  unfold State.recordClosed
  repeat (first | with_reducible assumption | intro _ | with_reducible apply publish_kept | with_reducible apply closeRecord_kept | with_reducible apply kept_ite | split | dsimp only | with_reducible apply kept_ite | split | dsimp only)

theorem halt_kept {s0 : State} (s : State) (reason : Nat) (hk : Kept s0 s) : Kept s0 (State.halt s reason) := by
  unfold State.halt
  repeat (first | with_reducible assumption | intro _ | with_reducible apply setFld_kept | with_reducible apply raise_kept | with_reducible apply updPower_kept | with_reducible apply toPwr_kept | with_reducible apply recordClosed_kept | with_reducible apply kept_ite | split | dsimp only | with_reducible apply kept_mk | with_reducible apply kept_ite | split | dsimp only)

theorem plateRepaired_kept {s0 : State} (s : State) (d : DomeId) (b : BankId) (row spare : Nat) (hk : Kept s0 s) : Kept s0 (State.plateRepaired s d b row spare) := by
  unfold State.plateRepaired
  repeat (first | with_reducible assumption | intro _ | with_reducible apply setFld_kept | with_reducible refine updBank_kept ?_ rfl | with_reducible apply kept_ite | split | dsimp only | with_reducible apply kept_mk | with_reducible apply kept_ite | split | dsimp only)

theorem storeRepaired_kept {s0 : State} (s : State) (engine word spare : Nat) (hk : Kept s0 s) : Kept s0 (State.storeRepaired s engine word spare) := by
  unfold State.storeRepaired
  repeat (first | with_reducible assumption | intro _ | with_reducible apply setFld_kept | with_reducible apply updKeeper_kept | with_reducible apply updEngine_kept | with_reducible apply kept_ite | split | dsimp only | with_reducible apply kept_mk | with_reducible apply kept_ite | split | dsimp only)

theorem ageRestored_kept {s0 : State} (s : State) (index v : Nat) (hk : Kept s0 s) : Kept s0 (State.ageRestored s index v) := by
  unfold State.ageRestored
  repeat (first | with_reducible assumption | intro _ | with_reducible apply setFld_kept | with_reducible apply updLink_kept | with_reducible apply kept_ite | split | dsimp only | with_reducible apply kept_mk | with_reducible apply kept_ite | split | dsimp only)

theorem replay_kept {s0 : State} (s : State) (e : LogEntry) (hk : Kept s0 s) : Kept s0 (State.replay s e) := by
  unfold State.replay
  repeat (first | with_reducible assumption | intro _ | with_reducible apply setFld_kept | with_reducible apply raise_kept | with_reducible apply updMer_kept | with_reducible apply setRole_kept | with_reducible apply updDir_kept | with_reducible apply plateRepaired_kept | with_reducible apply storeRepaired_kept | with_reducible apply ageRestored_kept | with_reducible apply kept_ite | split | dsimp only | with_reducible apply kept_mk | with_reducible apply kept_ite | split | dsimp only | with_reducible apply kept_domains)

theorem stFuses_kept {s0 : State} (s : State) (obs : StartObs) (alt : Bool) (hk : Kept s0 s) : Kept s0 (State.stFuses s obs alt) := by
  unfold State.stFuses
  repeat (first | with_reducible assumption | intro _ | with_reducible apply wr_kept | with_reducible apply setFld_kept | with_reducible apply setFlag_kept | with_reducible apply raise_kept | with_reducible apply publish_kept | with_reducible apply updLedger_kept | with_reducible apply updPower_kept | with_reducible apply replay_kept | with_reducible apply kept_foldl | with_reducible apply kept_foldl_snd | with_reducible apply kept_foldl_fst | with_reducible apply kept_ite | split | dsimp only | with_reducible apply kept_mk | with_reducible apply kept_ite | split | dsimp only | with_reducible apply kept_sec)

theorem stBoot_kept {s0 : State} (s : State) (obs : StartObs) (hk : Kept s0 s) : Kept s0 (State.stBoot s obs) := by
  unfold State.stBoot
  repeat (first | with_reducible assumption | intro _ | with_reducible apply setFld_kept | with_reducible apply kept_ite | split | dsimp only | with_reducible apply kept_mk | with_reducible apply kept_ite | split | dsimp only | with_reducible apply kept_sec)

theorem stClocks_kept {s0 : State} (s : State) (obs : StartObs) (hk : Kept s0 s) : Kept s0 (State.stClocks s obs) := by
  unfold State.stClocks
  repeat (first | with_reducible assumption | intro _ | with_reducible apply setFld_kept | with_reducible apply updMer_kept | with_reducible apply fresh_kept | with_reducible apply mapDoms_kept | with_reducible apply setLoop_kept | with_reducible apply setBoth_kept | with_reducible apply clockCheck_kept | with_reducible apply internalAlign_kept | with_reducible apply echoTaken_kept | with_reducible apply dropDie_kept | with_reducible apply epochStart_kept | with_reducible apply kept_foldl | with_reducible apply kept_foldl_snd | with_reducible apply kept_foldl_fst | with_reducible apply kept_ite | split | dsimp only | with_reducible apply kept_mk | with_reducible apply kept_ite | split | dsimp only | with_reducible apply kept_free)

theorem stDies_kept {s0 : State} (s : State) (obs : StartObs) (hk : Kept s0 s) : Kept s0 (State.stDies s obs) := by
  unfold State.stDies
  repeat (first | with_reducible assumption | intro _ | with_reducible apply mapDoms_kept | with_reducible apply dropDie_kept | with_reducible apply kept_foldl | with_reducible apply kept_foldl_snd | with_reducible apply kept_foldl_fst | with_reducible apply kept_ite | split | dsimp only | with_reducible apply kept_ite | split | dsimp only)

theorem stLinks_kept {s0 : State} (s : State) (obs : StartObs) (slow : List LinkId) (hk : Kept s0 s) : Kept s0 (State.stLinks s obs slow) := by
  unfold State.stLinks
  repeat (first | with_reducible assumption | intro _ | with_reducible apply mapDoms_kept | with_reducible apply updLink_kept | with_reducible apply dropDie_kept | with_reducible apply kept_foldl | with_reducible apply kept_foldl_snd | with_reducible apply kept_foldl_fst | with_reducible apply kept_ite | split | dsimp only | with_reducible apply kept_mk | with_reducible apply kept_ite | split | dsimp only)

theorem stPlate_kept {s0 : State} (s : State) (obs : StartObs) (hk : Kept s0 s) : Kept s0 (State.stPlate s obs) := by
  unfold State.stPlate
  repeat (first | with_reducible assumption | intro _ | with_reducible apply setDoms_kept | with_reducible apply dropDie_kept | with_reducible apply kept_foldl | with_reducible apply kept_foldl_snd | with_reducible apply kept_foldl_fst | with_reducible apply kept_ite | split | dsimp only | with_reducible apply kept_ite | split | dsimp only)

theorem trainTiming_kept {s0 : State} (s : State) (d : DomeId) (p : PortId) (hk : Kept s0 s) : Kept s0 (State.trainTiming s d p) := by
  unfold State.trainTiming
  repeat (first | with_reducible assumption | intro _ | with_reducible apply setFld_kept | with_reducible apply fresh_kept | with_reducible apply kept_foldl | with_reducible apply kept_foldl_snd | with_reducible apply kept_foldl_fst | with_reducible apply kept_ite | split | dsimp only | with_reducible apply kept_mk | with_reducible apply kept_ite | split | dsimp only | with_reducible apply kept_free)

theorem trainFails_kept {s0 : State} (s : State) (past : List StartRec) (d : DomeId) (p : PortId) (alt : Bool) (hk : Kept s0 s) : Kept s0 (State.trainFails s past d p alt) := by
  unfold State.trainFails
  repeat (first | with_reducible assumption | intro _ | with_reducible apply raise_kept | with_reducible apply setDoms_kept | with_reducible apply logLedger_kept | with_reducible apply retireDom_kept | with_reducible apply setRole_kept | with_reducible apply portEvent_kept | with_reducible apply kept_ite | split | dsimp only | with_reducible apply kept_ite | split | dsimp only)

theorem stPortsOf_kept {s0 : State} (s : State) (past : List StartRec) (d : DomeId) (obs : StartObs) (alt : Bool) (hk : Kept s0 s) : Kept s0 (State.stPortsOf s past d obs alt) := by
  unfold State.stPortsOf
  repeat (first | with_reducible assumption | intro _ | with_reducible apply setFld_kept | with_reducible apply setFlag_kept | with_reducible apply setDoms_kept | with_reducible refine updMoor_kept ?_ rfl | with_reducible apply setRole_kept | with_reducible apply setDivider_kept | with_reducible apply trainTiming_kept | with_reducible apply trainFails_kept | with_reducible apply kept_foldl | with_reducible apply kept_foldl_snd | with_reducible apply kept_foldl_fst | with_reducible apply kept_ite | split | dsimp only | with_reducible apply kept_mk | with_reducible apply kept_ite | split | dsimp only)

theorem stPorts_kept {s0 : State} (s : State) (past : List StartRec) (obs : StartObs) (slow : List DomeId) (hk : Kept s0 s) : Kept s0 (State.stPorts s past obs slow) := by
  unfold State.stPorts
  repeat (first | with_reducible assumption | intro _ | with_reducible apply stPortsOf_kept | with_reducible apply kept_foldl | with_reducible apply kept_foldl_snd | with_reducible apply kept_foldl_fst | with_reducible apply kept_ite | split | dsimp only | with_reducible apply kept_ite | split | dsimp only)

theorem assemble_kept {s0 : State} (s : State) (d : DomeId) (hk : Kept s0 s) : Kept s0 (State.assemble s d).1 := by
  unfold State.assemble
  repeat (first | with_reducible assumption | intro _ | with_reducible apply setFld_kept | with_reducible apply raise_kept | with_reducible apply logLedger_kept | with_reducible apply setRole_kept | with_reducible apply toSetState_kept | with_reducible apply step_kept | with_reducible apply kept_foldl | with_reducible apply kept_foldl_snd | with_reducible apply kept_foldl_fst | with_reducible apply kept_ite | split | dsimp only | with_reducible apply kept_ite | split | dsimp only)

theorem stAssembly_kept {s0 : State} (s : State) (hk : Kept s0 s) : Kept s0 (State.stAssembly s).1 := by
  unfold State.stAssembly
  repeat (first | with_reducible assumption | intro _ | with_reducible apply assemble_kept | with_reducible apply kept_foldl | with_reducible apply kept_foldl_snd | with_reducible apply kept_foldl_fst | with_reducible apply kept_ite | split | dsimp only | with_reducible apply kept_ite | split | dsimp only)

theorem vendorBindings_kept {s0 : State} (s : State) (hk : Kept s0 s) : Kept s0 (State.vendorBindings s) := by
  unfold State.vendorBindings
  repeat (first | with_reducible assumption | intro _ | with_reducible apply setFld_kept | with_reducible apply raise_kept | with_reducible apply toMaster_kept | with_reducible apply kept_foldl | with_reducible apply kept_foldl_snd | with_reducible apply kept_foldl_fst | with_reducible apply kept_ite | split | dsimp only | with_reducible apply kept_ite | split | dsimp only)

theorem stStores_kept {s0 : State} (s : State) (alt : Bool) (hk : Kept s0 s) : Kept s0 (State.stStores s alt) := by
  unfold State.stStores
  repeat (first | with_reducible assumption | intro _ | with_reducible apply mapDoms_kept | with_reducible apply installChannel_kept | with_reducible apply installKeeper_kept | with_reducible apply installOwner_kept | with_reducible apply loadFailed_kept | with_reducible apply vendorBindings_kept | with_reducible apply kept_ite | split | dsimp only | with_reducible apply kept_mk | with_reducible apply kept_ite | split | dsimp only)

theorem stTrims_kept {s0 : State} (s : State) (obs : StartObs) (alt : Bool) (hk : Kept s0 s) : Kept s0 (State.stTrims s obs alt) := by
  unfold State.stTrims
  repeat (first | with_reducible assumption | intro _ | with_reducible apply wr_kept | with_reducible apply setFld_kept | with_reducible apply updMer_kept | with_reducible apply fresh_kept | with_reducible apply mapDoms_kept | with_reducible apply retireDom_kept | with_reducible apply twinCalibrated_kept | with_reducible apply kept_foldl | with_reducible apply kept_foldl_snd | with_reducible apply kept_foldl_fst | with_reducible apply kept_ite | split | dsimp only | with_reducible apply kept_mk | with_reducible apply kept_ite | split | dsimp only | with_reducible apply kept_free)

theorem modelFound_kept {s0 : State} (s : State) (n : LampId) (k : Fin 4) (hk : Kept s0 s) : Kept s0 (s.modelFound n k) := by
  unfold State.modelFound
  have h1 := fresh_kept s hk
  generalize s.fresh = p1 at h1 ⊢
  obtain ⟨a1, s1⟩ := p1
  dsimp only at h1 ⊢
  have h2 := fresh_kept s1 h1
  generalize s1.fresh = p2 at h2 ⊢
  obtain ⟨a2, s2⟩ := p2
  dsimp only at h2 ⊢
  have h3 := fresh_kept s2 h2
  generalize s2.fresh = p3 at h3 ⊢
  obtain ⟨a3, s3⟩ := p3
  dsimp only at h3 ⊢
  have h4 := fresh_kept s3 h3
  generalize s3.fresh = p4 at h4 ⊢
  obtain ⟨a4, s4⟩ := p4
  dsimp only at h4 ⊢
  have h5 := fresh_kept s4 h4
  generalize s4.fresh = p5 at h5 ⊢
  obtain ⟨a5, s5⟩ := p5
  dsimp only at h5 ⊢
  have h6 := fresh_kept s5 h5
  generalize s5.fresh = p6 at h6 ⊢
  obtain ⟨a6, s6⟩ := p6
  dsimp only at h6 ⊢
  have h7 := fresh_kept s6 h6
  generalize s6.fresh = p7 at h7 ⊢
  obtain ⟨a7, s7⟩ := p7
  dsimp only at h7 ⊢
  exact kept_looks h7

theorem lookBegins_kept {s0 : State} (s : State) (n : LampId) (hk : Kept s0 s) : Kept s0 (State.lookBegins s n) := by
  unfold State.lookBegins
  repeat (first | with_reducible assumption | intro _ | with_reducible apply fresh_kept | with_reducible apply modelFound_kept | with_reducible apply kept_foldl | with_reducible apply kept_foldl_snd | with_reducible apply kept_foldl_fst | with_reducible apply kept_ite | split | dsimp only | with_reducible apply kept_mk | with_reducible apply kept_ite | split | dsimp only | with_reducible apply kept_free | with_reducible apply kept_looks)

theorem stLooks_kept {s0 : State} (s : State) (obs : StartObs) (hk : Kept s0 s) : Kept s0 (State.stLooks s obs) := by
  unfold State.stLooks
  repeat (first | with_reducible assumption | intro _ | with_reducible apply setFld_kept | with_reducible apply mapDoms_kept | with_reducible apply toMaster_kept | with_reducible apply lookBegins_kept | with_reducible apply kept_foldl | with_reducible apply kept_foldl_snd | with_reducible apply kept_foldl_fst | with_reducible apply kept_ite | split | dsimp only | with_reducible apply kept_ite | split | dsimp only)

theorem stHost_kept {s0 : State} (s : State) (obs : StartObs) (hk : Kept s0 s) : Kept s0 (State.stHost s obs) := by
  unfold State.stHost
  repeat (first | with_reducible assumption | intro _ | with_reducible apply setFld_kept | with_reducible apply setFlag_kept | with_reducible apply setDoms_kept | with_reducible apply kept_foldl | with_reducible apply kept_foldl_snd | with_reducible apply kept_foldl_fst | with_reducible apply kept_ite | split | dsimp only | with_reducible apply kept_ite | split | dsimp only)

theorem stepWork_kept {s0 : State} (s : State) (past : List StartRec) (k : Nat) (alt : Bool) (obs : StartObs) (hk : Kept s0 s) : Kept s0 (State.stepWork s past k alt obs).1 := by
  unfold State.stepWork
  repeat (first | with_reducible assumption | intro _ | with_reducible apply dropDie_kept | with_reducible apply stFuses_kept | with_reducible apply stBoot_kept | with_reducible apply stClocks_kept | with_reducible apply stDies_kept | with_reducible apply stLinks_kept | with_reducible apply stPlate_kept | with_reducible apply stPorts_kept | with_reducible apply stAssembly_kept | with_reducible apply stStores_kept | with_reducible apply stTrims_kept | with_reducible apply stLooks_kept | with_reducible apply stHost_kept | with_reducible apply kept_foldl | with_reducible apply kept_foldl_snd | with_reducible apply kept_foldl_fst | with_reducible apply kept_ite | split | dsimp only | with_reducible apply kept_mk | with_reducible apply kept_ite | split | dsimp only)

theorem startStep_kept {s0 : State} (obs : StartObs) (s : State) (k : Nat) (hk : Kept s0 s) : Kept s0 (State.startStep obs s k) := by
  unfold State.startStep
  repeat (first | with_reducible assumption | intro _ | with_reducible apply setFld_kept | with_reducible apply raise_kept | with_reducible apply updLedger_kept | with_reducible apply outcome_kept | with_reducible apply halt_kept | with_reducible apply stepWork_kept | with_reducible apply kept_ite | split | dsimp only | with_reducible apply kept_mk | with_reducible apply kept_ite | split | dsimp only)

theorem startNowWith_kept {s0 : State} (s : State) (obs : StartObs) (hk : Kept s0 s) : Kept s0 (State.startNowWith s obs) := by
  unfold State.startNowWith
  repeat (first | with_reducible assumption | intro _ | with_reducible apply updPower_kept | with_reducible apply startStep_kept | with_reducible apply kept_foldl | with_reducible apply kept_foldl_snd | with_reducible apply kept_foldl_fst | with_reducible apply kept_ite | split | dsimp only | with_reducible apply kept_mk | with_reducible apply kept_ite | split | dsimp only)

theorem completeStart_kept {s0 : State} (s : State) (hk : Kept s0 s) : Kept s0 (State.completeStart s) := by
  unfold State.completeStart
  repeat (first | with_reducible assumption | intro _ | with_reducible apply setFld_kept | with_reducible apply raise_kept | with_reducible apply asyncReport_kept | with_reducible apply updPower_kept | with_reducible apply toPwr_kept | with_reducible apply admitAll_kept | with_reducible apply outcome_kept | with_reducible apply recordClosed_kept | with_reducible apply halt_kept | with_reducible apply kept_foldl | with_reducible apply kept_foldl_snd | with_reducible apply kept_foldl_fst | with_reducible apply kept_ite | split | dsimp only | with_reducible apply kept_mk | with_reducible apply kept_ite | split | dsimp only | with_reducible apply kept_sec)

theorem tablesBack_kept {s0 : State} (s : State) (hk : Kept s0 s) : Kept s0 (State.tablesBack s) := by
  unfold State.tablesBack
  repeat (first | with_reducible assumption | intro _ | with_reducible apply updChan_kept | with_reducible apply updPower_kept | with_reducible apply kept_foldl | with_reducible apply kept_foldl_snd | with_reducible apply kept_foldl_fst | with_reducible apply kept_ite | split | dsimp only | with_reducible apply kept_mk | with_reducible apply kept_ite | split | dsimp only)

theorem laidExit_kept {s0 : State} (s : State) (obs : StartObs) (hk : Kept s0 s) : Kept s0 (State.laidExit s obs) := by
  unfold State.laidExit
  repeat (first | with_reducible assumption | intro _ | with_reducible apply setFld_kept | with_reducible apply raise_kept | with_reducible apply publish_kept | with_reducible apply mapDoms_kept | with_reducible apply srLeave_kept | with_reducible apply clockCheck_kept | with_reducible apply toPwr_kept | with_reducible apply reloadDies_kept | with_reducible apply admitAll_kept | with_reducible apply fullReset_kept | with_reducible apply replay_kept | with_reducible apply stClocks_kept | with_reducible apply stDies_kept | with_reducible apply stLinks_kept | with_reducible apply stPlate_kept | with_reducible apply stStores_kept | with_reducible apply stTrims_kept | with_reducible apply stLooks_kept | with_reducible apply stHost_kept | with_reducible apply tablesBack_kept | with_reducible apply kept_foldl | with_reducible apply kept_foldl_snd | with_reducible apply kept_foldl_fst | with_reducible apply kept_ite | split | dsimp only | with_reducible apply kept_ite | split | dsimp only)

end Sys2Proof.Laws
end

