-- ==== Sys2Proof/Laws/KeptViews.lean ====
section
/-! SUPPORT. What the operations of Machine/Views.lean keep (see Kept.lean). -/
namespace Sys2Proof.Laws
open Sys2Proof Sys2Proof.Machine

theorem noteAvail_kept {s0 : State} (s : State) (hk : Kept s0 s) : Kept s0 (State.noteAvail s) := by
  unfold State.noteAvail
  repeat (first | with_reducible assumption | intro _ | with_reducible apply wr_kept | with_reducible apply bump_kept | with_reducible apply kept_ite | split | dsimp only | with_reducible apply kept_ite | split | dsimp only)

end Sys2Proof.Laws
end

