-- ==== Sys2Proof/Laws/KeptRegs.lean ====
section
/-! SUPPORT. What the operations of Machine/Regs.lean keep (see Kept.lean). -/
namespace Sys2Proof.Laws
open Sys2Proof Sys2Proof.Machine

theorem regEvent_kept {s0 : State} (s : State) (r : Reg) (cause : FieldSpec) (hk : Kept s0 s) : Kept s0 (State.regEvent s r cause) := by
  unfold State.regEvent
  repeat (first | with_reducible assumption | intro _ | with_reducible apply publish_kept | with_reducible apply kept_ite | split | dsimp only | with_reducible apply kept_mk | with_reducible apply kept_ite | split | dsimp only)

theorem voteField_kept {s0 : State} (s : State) (r : Reg) (f : FieldSpec) (hk : Kept s0 s) : Kept s0 (State.voteField s r f) := by
  unfold State.voteField
  repeat (first | with_reducible assumption | intro _ | with_reducible apply setFld_kept | with_reducible apply raise_kept | with_reducible apply bump_kept | with_reducible apply regEvent_kept | with_reducible apply kept_ite | split | dsimp only | with_reducible apply kept_mk | with_reducible apply kept_ite | split | dsimp only | with_reducible apply kept_copies)

theorem parityCheck_kept {s0 : State} (s : State) (r : Reg) (hk : Kept s0 s) : Kept s0 (State.parityCheck s r) := by
  unfold State.parityCheck
  repeat (first | with_reducible assumption | intro _ | with_reducible apply setFld_kept | with_reducible apply raise_kept | with_reducible apply bump_kept | with_reducible apply regEvent_kept | with_reducible apply kept_ite | split | dsimp only | with_reducible apply kept_ite | split | dsimp only)

theorem checkReg_kept {s0 : State} (s : State) (r : Reg) (hk : Kept s0 s) : Kept s0 (State.checkReg s r) := by
  unfold State.checkReg
  repeat (first | with_reducible assumption | intro _ | with_reducible apply voteField_kept | with_reducible apply parityCheck_kept | with_reducible apply kept_foldl | with_reducible apply kept_foldl_snd | with_reducible apply kept_foldl_fst | with_reducible apply kept_ite | split | dsimp only | with_reducible apply kept_ite | split | dsimp only)

theorem sound_kept {s0 : State} (s : State) (r : Reg) (mask : Word) (hk : Kept s0 s) : Kept s0 (State.sound s r mask) := by
  unfold State.sound
  repeat (first | with_reducible assumption | intro _ | with_reducible apply kept_ite | split | dsimp only | with_reducible apply kept_mk | with_reducible apply kept_ite | split | dsimp only | with_reducible apply kept_copies | with_reducible apply kept_badPar)

theorem ringCfgRefused_kept {s0 : State} (s : State) (hk : Kept s0 s) : Kept s0 (State.ringCfgRefused s) := by
  unfold State.ringCfgRefused
  repeat (first | with_reducible assumption | intro _ | with_reducible apply raise_kept | with_reducible apply kept_ite | split | dsimp only | with_reducible apply kept_ite | split | dsimp only)

theorem dring0En_kept {s0 : State} (s : State) (on : Bool) (hk : Kept s0 s) : Kept s0 (State.dring0En s on) := by
  unfold State.dring0En
  repeat (first | with_reducible assumption | intro _ | with_reducible apply setFld_kept | with_reducible apply updDring_kept | with_reducible apply ringCfgRefused_kept | with_reducible apply kept_ite | split | dsimp only | with_reducible apply kept_ite | split | dsimp only)

theorem rring0En_kept {s0 : State} (s : State) (on : Bool) (hk : Kept s0 s) : Kept s0 (State.rring0En s on) := by
  unfold State.rring0En
  repeat (first | with_reducible assumption | intro _ | with_reducible apply setFld_kept | with_reducible apply updRring_kept | with_reducible apply ringCfgRefused_kept | with_reducible apply kept_ite | split | dsimp only | with_reducible apply kept_ite | split | dsimp only)

theorem rebindDring_kept {s0 : State} (s : State) (r : RingId) (f : Func) (hk : Kept s0 s) : Kept s0 (State.rebindDring s r f) := by
  unfold State.rebindDring
  repeat (first | with_reducible assumption | intro _ | with_reducible apply updDring_kept | with_reducible apply queueReport_kept | with_reducible apply kept_foldl | with_reducible apply kept_foldl_snd | with_reducible apply kept_foldl_fst | with_reducible apply kept_ite | split | dsimp only | with_reducible apply kept_mk | with_reducible apply kept_ite | split | dsimp only)

theorem rebindRring_kept {s0 : State} (s : State) (r : RingId) (f : Func) (hk : Kept s0 s) : Kept s0 (State.rebindRring s r f) := by
  unfold State.rebindRring
  repeat (first | with_reducible assumption | intro _ | with_reducible apply updRring_kept | with_reducible apply kept_ite | split | dsimp only | with_reducible apply kept_mk | with_reducible apply kept_ite | split | dsimp only)

theorem featWrite_kept {s0 : State} (s : State) (k : Fin 8) (mask v : Word) (hk : Kept s0 s) : Kept s0 (State.featWrite s k mask v) := by
  unfold State.featWrite
  repeat (first | with_reducible assumption | intro _ | with_reducible apply wr_kept | with_reducible apply setFld_kept | with_reducible apply raise_kept | with_reducible apply updPower_kept | with_reducible apply completeStart_kept | with_reducible apply kept_ite | split | dsimp only | with_reducible apply kept_mk | with_reducible apply kept_ite | split | dsimp only)

theorem freqEdge_kept {s0 : State} (s : State) (w : Writer) (c : ChanId) (hk : Kept s0 s) : Kept s0 (State.freqEdge s w c).2 := by
  unfold State.freqEdge
  repeat (first | with_reducible assumption | intro _ | with_reducible apply fresh_kept | with_reducible apply kept_ite | split | dsimp only | with_reducible apply kept_mk | with_reducible apply kept_ite | split | dsimp only | with_reducible apply kept_free)

theorem stageOut_kept {s0 : State} (s : State) (m : MerId) (k : Fin 12) (taken : List FieldSpec) (new : Word) (hk : Kept s0 s) : Kept s0 (State.stageOut s m k taken new) := by
  unfold State.stageOut
  repeat (first | with_reducible assumption | intro _ | with_reducible apply updMer_kept | with_reducible apply kept_foldl | with_reducible apply kept_foldl_snd | with_reducible apply kept_foldl_fst | with_reducible apply kept_ite | split | dsimp only | with_reducible apply kept_mk | with_reducible apply kept_ite | split | dsimp only)

theorem stageFreq_kept {s0 : State} (s : State) (m : MerId) (taken : List FieldSpec) (new : Word) (hk : Kept s0 s) : Kept s0 (State.stageFreq s m taken new) := by
  unfold State.stageFreq
  repeat (first | with_reducible assumption | intro _ | with_reducible apply updMer_kept | with_reducible apply kept_foldl | with_reducible apply kept_foldl_snd | with_reducible apply kept_foldl_fst | with_reducible apply kept_ite | split | dsimp only | with_reducible apply kept_mk | with_reducible apply kept_ite | split | dsimp only)

theorem afterWrite_kept {s0 : State} (s : State) (w : Writer) (r : Reg) (taken : List FieldSpec) (new old : Word) (hk : Kept s0 s) : Kept s0 (State.afterWrite s w r taken new old) := by
  unfold State.afterWrite
  repeat (first | with_reducible assumption | intro _ | with_reducible apply setFld_kept | with_reducible apply publish_kept | with_reducible apply timerStart_kept | with_reducible apply timerStop_kept | with_reducible apply freqWrite_kept | with_reducible apply freqHold_kept | with_reducible apply pairChanged_kept | with_reducible apply lantWritten_kept | with_reducible apply cancelSwap_kept | with_reducible apply migrationAsked_kept | with_reducible apply freqStart_kept | with_reducible apply writeAttach_kept | with_reducible apply writeLimit_kept | with_reducible apply writeMarks_kept | with_reducible apply changeHome_kept | with_reducible apply markersWritten_kept | with_reducible apply pdataWrite_kept | with_reducible apply biasClassWritten_kept | with_reducible apply swapAsked_kept | with_reducible apply applyStaged_kept | with_reducible apply slewAsked_kept | with_reducible apply stepAsked_kept | with_reducible apply syncFires_kept | with_reducible apply echoTaken_kept | with_reducible apply engStart_kept | with_reducible apply engAbort_kept | with_reducible apply clearAlt_kept | with_reducible apply compactAsked_kept | with_reducible apply fullReset_kept | with_reducible apply requestPower_kept | with_reducible apply dring0En_kept | with_reducible apply rring0En_kept | with_reducible apply rebindDring_kept | with_reducible apply rebindRring_kept | with_reducible apply freqEdge_kept | with_reducible apply stageOut_kept | with_reducible apply stageFreq_kept | with_reducible apply kept_ite | split | dsimp only | with_reducible apply kept_mk | with_reducible apply kept_ite | split | dsimp only)

theorem putReg_kept {s0 : State} (s : State) (w : Writer) (r : Reg) (mask v : Word) (hk : Kept s0 s) : Kept s0 (State.putReg s w r mask v) := by
  unfold State.putReg
  repeat (first | with_reducible assumption | intro _ | with_reducible apply wr_kept | with_reducible apply bump_kept | with_reducible apply toMaster_kept | with_reducible apply sound_kept | with_reducible apply afterWrite_kept | with_reducible apply kept_foldl | with_reducible apply kept_foldl_snd | with_reducible apply kept_foldl_fst | with_reducible apply kept_ite | split | dsimp only | with_reducible apply kept_mk | with_reducible apply kept_ite | split | dsimp only)

theorem writeReg_kept {s0 : State} (s : State) (w : Writer) (r : Reg) (mask v : Word) (hk : Kept s0 s) : Kept s0 (State.writeReg s w r mask v) := by
  unfold State.writeReg
  repeat (first | with_reducible assumption | intro _ | with_reducible apply bump_kept | with_reducible apply featWrite_kept | with_reducible apply putReg_kept | with_reducible apply kept_ite | split | dsimp only | with_reducible apply kept_mk | with_reducible apply kept_ite | split | dsimp only)

theorem latch_kept {s0 : State} (s : State) (q : Requester) (r : Reg) (v : Word) (hk : Kept s0 s) : Kept s0 (State.latch s q r v) := by
  unfold State.latch
  repeat (first | with_reducible assumption | intro _ | with_reducible apply kept_ite | split | dsimp only | with_reducible apply kept_mk | with_reducible apply kept_ite | split | dsimp only | with_reducible apply kept_latches)

theorem clearRc_kept {s0 : State} (s : State) (r : Reg) (hk : Kept s0 s) : Kept s0 (State.clearRc s r) := by
  unfold State.clearRc
  repeat (first | with_reducible assumption | intro _ | with_reducible apply wr_kept | with_reducible apply kept_ite | split | dsimp only | with_reducible apply kept_ite | split | dsimp only)

theorem gapNow_kept {s0 : State} (s : State) (st : StreamId) (hk : Kept s0 s) : Kept s0 (State.gapNow s st) := by
  unfold State.gapNow
  repeat (first | with_reducible assumption | intro _ | with_reducible apply streamSync_kept | with_reducible apply kept_ite | split | dsimp only | with_reducible apply kept_ite | split | dsimp only)

theorem upToNow_kept {s0 : State} (s : State) (r : Reg) (hk : Kept s0 s) : Kept s0 (State.upToNow s r) := by
  unfold State.upToNow
  repeat (first | with_reducible assumption | intro _ | with_reducible apply noteLead_kept | with_reducible apply pipeNow_kept | with_reducible apply darkCount_kept | with_reducible apply noteAvail_kept | with_reducible apply gapNow_kept | with_reducible apply kept_ite | split | dsimp only | with_reducible apply kept_mk | with_reducible apply kept_ite | split | dsimp only)

theorem readReg_kept {s0 : State} (s : State) (q : Requester) (r : Reg) (hk : Kept s0 s) : Kept s0 (State.readReg s q r).2 := by
  unfold State.readReg
  repeat (first | with_reducible assumption | intro _ | with_reducible apply checkReg_kept | with_reducible apply latch_kept | with_reducible apply clearRc_kept | with_reducible apply upToNow_kept | with_reducible apply kept_foldl | with_reducible apply kept_foldl_snd | with_reducible apply kept_foldl_fst | with_reducible apply kept_ite | split | dsimp only | with_reducible apply kept_ite | split | dsimp only)

theorem windowWrite_kept {s0 : State} (s : State) (w : Writer) (x : Nat) (r : Reg) (mask v : Word) (hk : Kept s0 s) : Kept s0 (State.windowWrite s w x r mask v) := by
  unfold State.windowWrite
  repeat (first | with_reducible assumption | intro _ | with_reducible apply writeReg_kept | with_reducible apply kept_ite | split | dsimp only | with_reducible apply kept_ite | split | dsimp only)

theorem bar0Write_kept {s0 : State} (s : State) (f : Func) (off : Nat) (v : Word) (be : BitVec 4) (hk : Kept s0 s) : Kept s0 (State.bar0Write s f off v be) := by
  unfold State.bar0Write
  repeat (first | with_reducible assumption | intro _ | with_reducible apply raise_kept | with_reducible apply windowWrite_kept | with_reducible apply kept_ite | split | dsimp only | with_reducible apply kept_mk | with_reducible apply kept_ite | split | dsimp only | with_reducible apply kept_resp)

theorem mapRead_kept {s0 : State} (s : State) (q : Requester) (off : Nat) (hk : Kept s0 s) : Kept s0 (State.mapRead s q off).2 := by
  unfold State.mapRead
  repeat (first | with_reducible assumption | intro _ | with_reducible apply fresh_kept | with_reducible apply readReg_kept | with_reducible apply kept_ite | split | dsimp only | with_reducible apply kept_mk | with_reducible apply kept_ite | split | dsimp only | with_reducible apply kept_free)

theorem bar0Read_kept {s0 : State} (s : State) (q : Requester) (off : Nat) (hk : Kept s0 s) : Kept s0 (s.bar0Read q off) := by
  unfold State.bar0Read
  split
  · have h := mapRead_kept s q off hk
    generalize s.mapRead q off = p at h ⊢
    obtain ⟨o, t⟩ := p
    cases o <;> exact kept_resp h
  · exact kept_resp hk

end Sys2Proof.Laws
end

