-- ==== Sys2Proof/Laws/KeptCommit.lean ====
section
/-! SUPPORT. What the operations of Machine/Commit.lean keep (see Kept.lean). -/
namespace Sys2Proof.Laws
open Sys2Proof Sys2Proof.Machine

theorem cfgSet_kept {s0 : State} (s : State) (i : SetItem) (hk : Kept s0 s) : Kept s0 (State.cfgSet s i) := by
  unfold State.cfgSet
  repeat (first | with_reducible assumption | intro _ | with_reducible apply wr_kept | with_reducible apply updStream_kept | with_reducible apply attachStream_kept | with_reducible apply kept_foldl | with_reducible apply kept_foldl_snd | with_reducible apply kept_foldl_fst | with_reducible apply kept_ite | split | dsimp only | with_reducible apply kept_mk | with_reducible apply kept_ite | split | dsimp only)

theorem cfgStops_kept {s0 : State} (s : State) (x : Txn) (hk : Kept s0 s) : Kept s0 (State.cfgStops s x) := by
  unfold State.cfgStops
  repeat (first | with_reducible assumption | intro _ | with_reducible apply updChan_kept | with_reducible apply idle_kept | with_reducible apply kept_foldl | with_reducible apply kept_foldl_snd | with_reducible apply kept_foldl_fst | with_reducible apply kept_ite | split | dsimp only | with_reducible apply kept_mk | with_reducible apply kept_ite | split | dsimp only)

theorem configured_kept {s0 : State} (s : State) (x : Txn) (hk : Kept s0 s) : Kept s0 (State.configured s x) := by
  unfold State.configured
  repeat (first | with_reducible assumption | intro _ | with_reducible apply cfgSet_kept | with_reducible apply cfgStops_kept | with_reducible apply kept_foldl | with_reducible apply kept_foldl_snd | with_reducible apply kept_foldl_fst | with_reducible apply kept_ite | split | dsimp only | with_reducible apply kept_ite | split | dsimp only)

end Sys2Proof.Laws
end

