-- ==== Sys2Proof/Laws/KeptTxn.lean ====
section
/-! SUPPORT. What the operations of Machine/Txn.lean keep (see Kept.lean). -/
namespace Sys2Proof.Laws
open Sys2Proof Sys2Proof.Machine

theorem checksEnd_kept {s0 : State} (s : State) (hk : Kept s0 s) : Kept s0 (State.checksEnd s) := by
  unfold State.checksEnd
  repeat (first | with_reducible assumption | intro _ | with_reducible apply fresh_kept | with_reducible apply reachTime_kept | with_reducible apply kept_ite | split | dsimp only | with_reducible apply kept_mk | with_reducible apply kept_ite | split | dsimp only | with_reducible apply kept_free)

theorem showLoop_kept {s0 : State} (s : State) (r : Refused) (hk : Kept s0 s) : Kept s0 (State.showLoop s r) := by
  unfold State.showLoop
  repeat (first | with_reducible assumption | intro _ | with_reducible apply setFld_kept | with_reducible apply raise_kept | with_reducible apply kept_ite | split | dsimp only | with_reducible apply kept_mk | with_reducible apply kept_ite | split | dsimp only)

theorem commitWaits_kept {s0 : State} (s : State) (t : TxnId) (ref : DescRef) (g : Nat) (atUgc : Bool) (hk : Kept s0 s) : Kept s0 (State.commitWaits s t ref g atUgc) := by
  unfold State.commitWaits
  repeat (first | with_reducible assumption | intro _ | with_reducible apply setFld_kept | with_reducible apply updTxn_kept | with_reducible apply kept_ite | split | dsimp only | with_reducible apply kept_mk | with_reducible apply kept_ite | split | dsimp only)

theorem commitSlot_kept {s0 : State} (s : State) (ref : DescRef) (w : When) (hk : Kept s0 s) : Kept s0 (State.commitSlot s ref w) := by
  unfold State.commitSlot
  repeat (first | with_reducible assumption | intro _ | with_reducible apply setFld_kept | with_reducible apply updTxn_kept | with_reducible apply complete_kept | with_reducible apply checksEnd_kept | with_reducible apply showLoop_kept | with_reducible apply commitWaits_kept | with_reducible apply kept_ite | split | dsimp only | with_reducible apply kept_mk | with_reducible apply kept_ite | split | dsimp only)

theorem itemDescriptor_kept {s0 : State} (s : State) (ref : DescRef) (i : TxnItem) (hk : Kept s0 s) : Kept s0 (State.itemDescriptor s ref i) := by
  unfold State.itemDescriptor
  repeat (first | with_reducible assumption | intro _ | with_reducible refine updHost_kept ?_ rfl rfl | with_reducible apply updTxn_kept | with_reducible apply complete_kept | with_reducible apply checksEnd_kept | with_reducible apply showLoop_kept | with_reducible apply kept_ite | split | dsimp only | with_reducible apply kept_mk | with_reducible apply kept_ite | split | dsimp only)

theorem applySwap_kept {s0 : State} (s : State) (f : Func) (c : ChanId) (entry : Nat) (hk : Kept s0 s) : Kept s0 (State.applySwap s f c entry) := by
  unfold State.applySwap
  repeat (first | with_reducible assumption | intro _ | with_reducible apply raise_kept | with_reducible apply updChan_kept | with_reducible apply writeReg_kept | with_reducible apply kept_ite | split | dsimp only | with_reducible apply kept_mk | with_reducible apply kept_ite | split | dsimp only)

theorem applyStart_kept {s0 : State} (s : State) (f : Func) (i : StartItem) (hk : Kept s0 s) : Kept s0 (State.applyStart s f i) := by
  unfold State.applyStart
  repeat (first | with_reducible assumption | intro _ | with_reducible apply beginPriming_kept | with_reducible apply kept_foldl | with_reducible apply kept_foldl_snd | with_reducible apply kept_foldl_fst | with_reducible apply kept_ite | split | dsimp only | with_reducible apply kept_mk | with_reducible apply kept_ite | split | dsimp only)

theorem applySet_kept {s0 : State} (s : State) (f : Func) (i : SetItem) (hk : Kept s0 s) : Kept s0 (State.applySet s f i) := by
  unfold State.applySet
  repeat (first | with_reducible assumption | intro _ | with_reducible apply windowWrite_kept | with_reducible apply kept_ite | split | dsimp only | with_reducible apply kept_mk | with_reducible apply kept_ite | split | dsimp only)

theorem applyTxn_kept {s0 : State} (s : State) (x : Txn) (g : Nat) (hk : Kept s0 s) : Kept s0 (State.applyTxn s x g) := by
  unfold State.applyTxn
  repeat (first | with_reducible assumption | intro _ | with_reducible apply toIdle_kept | with_reducible apply complete_kept | with_reducible apply relayCheck_kept | with_reducible apply toLit_kept | with_reducible apply applySwap_kept | with_reducible apply applyStart_kept | with_reducible apply applySet_kept | with_reducible apply kept_foldl | with_reducible apply kept_foldl_snd | with_reducible apply kept_foldl_fst | with_reducible apply kept_ite | split | dsimp only | with_reducible apply kept_mk | with_reducible apply kept_ite | split | dsimp only)

theorem takeEffect_kept {s0 : State} (s : State) (t : TxnId) (hk : Kept s0 s) : Kept s0 (State.takeEffect s t) := by
  unfold State.takeEffect
  repeat (first | with_reducible assumption | intro _ | with_reducible apply reachGran_kept | with_reducible refine updHost_kept ?_ rfl rfl | with_reducible apply updTxn_kept | with_reducible apply slotFreed_kept | with_reducible apply applyTxn_kept | with_reducible apply kept_ite | split | dsimp only | with_reducible apply kept_mk | with_reducible apply kept_ite | split | dsimp only)

theorem slotTriggered_kept {s0 : State} (s : State) (t : TxnId) (hk : Kept s0 s) : Kept s0 (State.slotTriggered s t) := by
  unfold State.slotTriggered
  repeat (first | with_reducible assumption | intro _ | with_reducible apply updTxn_kept | with_reducible apply kept_ite | split | dsimp only | with_reducible apply kept_mk | with_reducible apply kept_ite | split | dsimp only)

theorem rollSingles_kept {s0 : State} (s : State) (p : Txn → Bool) (reason : Nat) (hk : Kept s0 s) : Kept s0 (State.rollSingles s p reason) := by
  unfold State.rollSingles
  repeat (first | with_reducible assumption | intro _ | with_reducible refine updHost_kept ?_ rfl rfl | with_reducible apply complete_kept | with_reducible apply kept_foldl | with_reducible apply kept_foldl_snd | with_reducible apply kept_foldl_fst | with_reducible apply kept_ite | split | dsimp only | with_reducible apply kept_mk | with_reducible apply kept_ite | split | dsimp only)

theorem rollAll_kept {s0 : State} (s : State) (p : Txn → Bool) (reason : Nat) (hk : Kept s0 s) : Kept s0 (State.rollAll s p reason) := by
  unfold State.rollAll
  repeat (first | with_reducible assumption | intro _ | with_reducible apply rollBack_kept | with_reducible apply rollSingles_kept | with_reducible apply kept_foldl | with_reducible apply kept_foldl_snd | with_reducible apply kept_foldl_fst | with_reducible apply kept_ite | split | dsimp only | with_reducible apply kept_ite | split | dsimp only)

theorem rollbackSlot_kept {s0 : State} (s : State) (ref : DescRef) (hk : Kept s0 s) : Kept s0 (State.rollbackSlot s ref) := by
  unfold State.rollbackSlot
  repeat (first | with_reducible assumption | intro _ | with_reducible apply queueReport_kept | with_reducible apply complete_kept | with_reducible apply rollBack_kept | with_reducible apply kept_foldl | with_reducible apply kept_foldl_snd | with_reducible apply kept_foldl_fst | with_reducible apply kept_ite | split | dsimp only | with_reducible apply kept_ite | split | dsimp only)

end Sys2Proof.Laws
end

