-- ==== Sys2Proof/Laws/KeptSnapshot.lean ====
section
/-! SUPPORT. What the operations of Machine/Snapshot.lean keep (see Kept.lean). -/
namespace Sys2Proof.Laws
open Sys2Proof Sys2Proof.Machine

theorem updSnap_kept {s0 : State} (s : State) (f : Snap → Snap) (hk : Kept s0 s) : Kept s0 (State.updSnap s f) := by
  unfold State.updSnap
  repeat (first | with_reducible assumption | intro _ | with_reducible apply kept_ite | split | dsimp only | with_reducible apply kept_mk | with_reducible apply kept_ite | split | dsimp only | with_reducible apply kept_snap)

theorem snapBegin_kept {s0 : State} (s : State) (w : SnapWait) (hk : Kept s0 s) : Kept s0 (State.snapBegin s w) := by
  unfold State.snapBegin
  repeat (first | with_reducible assumption | intro _ | with_reducible apply raise_kept | with_reducible apply updSnap_kept | with_reducible apply kept_ite | split | dsimp only | with_reducible apply kept_mk | with_reducible apply kept_ite | split | dsimp only)

theorem snapNext_kept {s0 : State} (s : State) (hk : Kept s0 s) : Kept s0 (State.snapNext s) := by
  unfold State.snapNext
  repeat (first | with_reducible assumption | intro _ | with_reducible apply updSnap_kept | with_reducible apply snapBegin_kept | with_reducible apply kept_ite | split | dsimp only | with_reducible apply kept_mk | with_reducible apply kept_ite | split | dsimp only)

theorem snapAsked_kept {s0 : State} (s : State) (w : SnapWait) (hk : Kept s0 s) : Kept s0 (State.snapAsked s w) := by
  unfold State.snapAsked
  repeat (first | with_reducible assumption | intro _ | with_reducible apply updSnap_kept | with_reducible apply snapNext_kept | with_reducible apply kept_ite | split | dsimp only | with_reducible apply kept_mk | with_reducible apply kept_ite | split | dsimp only)

theorem snapLatch_kept {s0 : State} (s : State) (d : Die) (hk : Kept s0 s) : Kept s0 (State.snapLatch s d) := by
  unfold State.snapLatch
  repeat (first | with_reducible assumption | intro _ | with_reducible apply setFld_kept | with_reducible apply reachTime_kept | with_reducible apply upToNow_kept | with_reducible apply updSnap_kept | with_reducible apply kept_ite | split | dsimp only | with_reducible apply kept_mk | with_reducible apply kept_ite | split | dsimp only)

theorem snapDone_kept {s0 : State} (s : State) (hk : Kept s0 s) : Kept s0 (State.snapDone s) := by
  unfold State.snapDone
  repeat (first | with_reducible assumption | intro _ | with_reducible apply setFld_kept | with_reducible apply raise_kept | with_reducible apply wr64_kept | with_reducible apply hostWrite_kept | with_reducible apply complete_kept | with_reducible apply updSnap_kept | with_reducible apply snapNext_kept | with_reducible apply kept_ite | split | dsimp only | with_reducible apply kept_mk | with_reducible apply kept_ite | split | dsimp only)

end Sys2Proof.Laws
end

