-- ==== Sys2Proof/Laws/KeptHost.lean ====
section
/-! SUPPORT. What the operations of Machine/Host.lean keep (see Kept.lean). -/
namespace Sys2Proof.Laws
open Sys2Proof Sys2Proof.Machine

theorem invalidEnds_kept {s0 : State} (s : State) (r : RingId) (w : Vector QWord 8) (hk : Kept s0 s) : Kept s0 (State.invalidEnds s r w) := by
  unfold State.invalidEnds
  repeat (first | with_reducible assumption | intro _ | with_reducible apply complete_kept | with_reducible apply descriptor_kept | with_reducible apply kept_ite | split | dsimp only | with_reducible apply kept_mk | with_reducible apply kept_ite | split | dsimp only)

theorem fetchAhead_kept {s0 : State} (r : RingId) (n : Nat) (s : State) (hk : Kept s0 s) : Kept s0 (State.fetchAhead r n s) := by
  induction n generalizing s with
  | zero => exact hk
  | succ n ih =>
    unfold State.fetchAhead
    extract_lets x i w0 s1
    have h1 : Kept s0 s1 := updDring_kept _ _ _ hk
    clear_value s1
    split
    · exact hk
    · refine ih _ ?_
      with_reducible exact updHost_kept h1 rfl rfl

theorem pollRing_kept {s0 : State} (s : State) (r : RingId) (hk : Kept s0 s) : Kept s0 (State.pollRing s r) := by
  unfold State.pollRing
  repeat (first | with_reducible assumption | intro _ | with_reducible apply updDring_kept | with_reducible apply fetchAhead_kept | with_reducible apply kept_ite | split | dsimp only | with_reducible apply kept_mk | with_reducible apply kept_ite | split | dsimp only)

theorem pollStream_kept {s0 : State} (s : State) (st : StreamId) (hk : Kept s0 s) : Kept s0 (State.pollStream s st) := by
  unfold State.pollStream
  repeat (first | with_reducible assumption | intro _ | with_reducible apply updStream_kept | with_reducible apply pullBlocks_kept | with_reducible apply kept_ite | split | dsimp only | with_reducible apply kept_mk | with_reducible apply kept_ite | split | dsimp only)

theorem watchAgain_kept {s0 : State} (s : State) (hk : Kept s0 s) : Kept s0 (State.watchAgain s) := by
  unfold State.watchAgain
  repeat (first | with_reducible assumption | intro _ | with_reducible refine updHost_kept ?_ rfl rfl | with_reducible apply kept_ite | split | dsimp only | with_reducible apply kept_mk | with_reducible apply kept_ite | split | dsimp only)

theorem poll_kept {s0 : State} (s : State) (d : DomeId) (hk : Kept s0 s) : Kept s0 (State.poll s d) := by
  unfold State.poll
  repeat (first | with_reducible assumption | intro _ | with_reducible apply pollRing_kept | with_reducible apply pollStream_kept | with_reducible apply watchAgain_kept | with_reducible apply kept_foldl | with_reducible apply kept_foldl_snd | with_reducible apply kept_foldl_fst | with_reducible apply kept_ite | split | dsimp only | with_reducible apply kept_ite | split | dsimp only)

theorem loadSegment_kept {s0 : State} (s : State) (ref : DescRef) (addr : QWord) (data home len : Nat) (hk : Kept s0 s) : Kept s0 (State.loadSegment s ref addr data home len) := by
  unfold State.loadSegment
  repeat (first | with_reducible assumption | intro _ | with_reducible apply raise_kept | with_reducible apply complete_kept | with_reducible apply dataWrite_kept | with_reducible apply kept_foldl | with_reducible apply kept_foldl_snd | with_reducible apply kept_foldl_fst | with_reducible apply kept_ite | split | dsimp only | with_reducible apply kept_ite | split | dsimp only)

theorem readSegment_kept {s0 : State} (s : State) (ref : DescRef) (addr : QWord) (data home len : Nat) (hk : Kept s0 s) : Kept s0 (State.readSegment s ref addr data home len) := by
  unfold State.readSegment
  repeat (first | with_reducible assumption | intro _ | with_reducible apply raise_kept | with_reducible apply hostWrite_kept | with_reducible apply complete_kept | with_reducible apply poisonRead_kept | with_reducible apply kept_foldl | with_reducible apply kept_foldl_snd | with_reducible apply kept_foldl_fst | with_reducible apply kept_ite | split | dsimp only | with_reducible apply kept_mk | with_reducible apply kept_ite | split | dsimp only)

theorem loadEntries_kept {s0 : State} (s : State) (ref : DescRef) (addr : QWord) (c : ChanId) (slot : Fin 2) (first count : Nat) (hk : Kept s0 s) : Kept s0 (State.loadEntries s ref addr c slot first count) := by
  unfold State.loadEntries
  repeat (first | with_reducible assumption | intro _ | with_reducible apply updChan_kept | with_reducible apply complete_kept | with_reducible apply kept_ite | split | dsimp only | with_reducible apply kept_mk | with_reducible apply kept_ite | split | dsimp only)

theorem loadImageBytes_kept {s0 : State} (s : State) (ref : DescRef) (addr : QWord) (len : Nat) (target : Fin 4) (hk : Kept s0 s) : Kept s0 (State.loadImageBytes s ref addr len target) := by
  unfold State.loadImageBytes
  repeat (first | with_reducible assumption | intro _ | with_reducible apply complete_kept | with_reducible apply installChannel_kept | with_reducible apply installKeeper_kept | with_reducible apply installOwner_kept | with_reducible apply loadFailed_kept | with_reducible apply kept_ite | split | dsimp only | with_reducible apply kept_mk | with_reducible apply kept_ite | split | dsimp only | with_reducible apply kept_ownerNew)

theorem attachWith_kept {s0 : State} (s : State) (ref : DescRef) (st : StreamId) (ctrl region fallback ringLo ringHi : Word) (cons : QWord) (wmA wmB limit : Word) (hk : Kept s0 s) : Kept s0 (State.attachWith s ref st ctrl region fallback ringLo ringHi cons wmA wmB limit) := by
  unfold State.attachWith
  repeat (first | with_reducible assumption | intro _ | with_reducible apply wr_kept | with_reducible apply complete_kept | with_reducible apply attachStream_kept | with_reducible apply toMaster_kept | with_reducible apply kept_foldl | with_reducible apply kept_foldl_snd | with_reducible apply kept_foldl_fst | with_reducible apply kept_ite | split | dsimp only | with_reducible apply kept_mk | with_reducible apply kept_ite | split | dsimp only)

theorem detachWith_kept {s0 : State} (s : State) (ref : DescRef) (st : StreamId) (hk : Kept s0 s) : Kept s0 (State.detachWith s ref st) := by
  unfold State.detachWith
  repeat (first | with_reducible assumption | intro _ | with_reducible apply complete_kept | with_reducible apply detachStream_kept | with_reducible apply kept_ite | split | dsimp only | with_reducible apply kept_ite | split | dsimp only)

theorem setUpRing_kept {s0 : State} (s : State) (ref : DescRef) (report : Bool) (ring : RingId) (func : Func) (log2 : Fin 32) (defReport : RingId) (vector : Fin 128) (coalCount : Byte) (coalTime : BitVec 16) (base : QWord) (hk : Kept s0 s) : Kept s0 (State.setUpRing s ref report ring func log2 defReport vector coalCount coalTime base) := by
  unfold State.setUpRing
  repeat (first | with_reducible assumption | intro _ | with_reducible apply updDring_kept | with_reducible apply updRring_kept | with_reducible apply complete_kept | with_reducible apply rebindDring_kept | with_reducible apply rebindRring_kept | with_reducible apply kept_ite | split | dsimp only | with_reducible apply kept_ite | split | dsimp only)

theorem tearDownRing_kept {s0 : State} (s : State) (ref : DescRef) (report : Bool) (ring : RingId) (hk : Kept s0 s) : Kept s0 (State.tearDownRing s ref report ring) := by
  unfold State.tearDownRing
  repeat (first | with_reducible assumption | intro _ | with_reducible apply updDring_kept | with_reducible apply updRring_kept | with_reducible apply complete_kept | with_reducible apply kept_ite | split | dsimp only | with_reducible apply kept_ite | split | dsimp only)

theorem abortChan_kept {s0 : State} (s : State) (c : ChanId) (hk : Kept s0 s) : Kept s0 (State.abortChan s c) := by
  unfold State.abortChan
  repeat (first | with_reducible assumption | intro _ | with_reducible apply updChan_kept | with_reducible apply updShadow_kept | with_reducible apply cutLines_kept | with_reducible apply toIdle_kept | with_reducible apply dropMarkers_kept | with_reducible apply reloadStore_kept | with_reducible apply kept_ite | split | dsimp only | with_reducible apply kept_mk | with_reducible apply kept_ite | split | dsimp only)

theorem dropJobs_kept {s0 : State} (s : State) (f : Func) (hk : Kept s0 s) : Kept s0 (State.dropJobs s f) := by
  unfold State.dropJobs
  repeat (first | with_reducible assumption | intro _ | with_reducible apply setFld_kept | with_reducible refine updHost_kept ?_ rfl rfl | with_reducible apply updSnap_kept | with_reducible apply snapNext_kept | with_reducible apply kept_ite | split | dsimp only | with_reducible apply kept_mk | with_reducible apply kept_ite | split | dsimp only)

theorem abortNext_kept {s0 : State} (s : State) (r : RingId) (hk : Kept s0 s) : Kept s0 (State.abortNext s r) := by
  unfold State.abortNext
  repeat (first | with_reducible assumption | intro _ | with_reducible apply updDring_kept | with_reducible apply complete_kept | with_reducible apply kept_ite | split | dsimp only | with_reducible apply kept_mk | with_reducible apply kept_ite | split | dsimp only)

theorem abortRing_kept {s0 : State} (s : State) (r : RingId) (hk : Kept s0 s) : Kept s0 (State.abortRing s r) := by
  unfold State.abortRing
  repeat (first | with_reducible assumption | intro _ | with_reducible apply complete_kept | with_reducible apply abortNext_kept | with_reducible apply kept_foldl | with_reducible apply kept_foldl_snd | with_reducible apply kept_foldl_fst | with_reducible apply kept_ite | split | dsimp only | with_reducible apply kept_mk | with_reducible apply kept_ite | split | dsimp only)

theorem abortAll_kept {s0 : State} (s : State) (f : Func) (hk : Kept s0 s) : Kept s0 (State.abortAll s f) := by
  unfold State.abortAll
  repeat (first | with_reducible assumption | intro _ | with_reducible apply raise_kept | with_reducible apply relayCheck_kept | with_reducible apply rollAll_kept | with_reducible apply abortChan_kept | with_reducible apply dropJobs_kept | with_reducible apply abortRing_kept | with_reducible apply idle_kept | with_reducible apply kept_foldl | with_reducible apply kept_foldl_snd | with_reducible apply kept_foldl_fst | with_reducible apply kept_ite | split | dsimp only | with_reducible apply kept_ite | split | dsimp only)

theorem abortMask_kept {s0 : State} (s : State) (f : Func) (mask : BitVec 16) (hk : Kept s0 s) : Kept s0 (State.abortMask s f mask) := by
  unfold State.abortMask
  repeat (first | with_reducible assumption | intro _ | with_reducible apply raise_kept | with_reducible apply relayCheck_kept | with_reducible apply rollAll_kept | with_reducible apply abortChan_kept | with_reducible apply kept_foldl | with_reducible apply kept_foldl_snd | with_reducible apply kept_foldl_fst | with_reducible apply kept_ite | split | dsimp only | with_reducible apply kept_mk | with_reducible apply kept_ite | split | dsimp only)

theorem acceptAbort_kept {s0 : State} (s : State) (h : DescHdr) (act : Func → State → State) (hk : Kept s0 s) (hact : ∀ a0 t, Kept s0 t → Kept s0 (act a0 t)) : Kept s0 (State.acceptAbort s h act) := by
  unfold State.acceptAbort
  repeat (first | with_reducible assumption | intro _ | with_reducible refine updHost_kept ?_ rfl rfl | with_reducible apply updDring_kept | with_reducible apply finish_kept | with_reducible apply hact | with_reducible apply kept_ite | split | dsimp only | with_reducible apply kept_mk | with_reducible apply kept_ite | split | dsimp only)

theorem keepReport_kept {s0 : State} (s : State) (r : RingId) (hk : Kept s0 s) : Kept s0 (State.keepReport s r) := by
  unfold State.keepReport
  repeat (first | with_reducible assumption | intro _ | with_reducible apply updDring_kept | with_reducible apply kept_ite | split | dsimp only | with_reducible apply kept_mk | with_reducible apply kept_ite | split | dsimp only)

theorem linkGone_kept {s0 : State} (s : State) (f : Func) (hk : Kept s0 s) : Kept s0 (State.linkGone s f) := by
  unfold State.linkGone
  repeat (first | with_reducible assumption | intro _ | with_reducible apply updDring_kept | with_reducible apply asyncReport_kept | with_reducible apply rollAll_kept | with_reducible apply dropJobs_kept | with_reducible apply keepReport_kept | with_reducible apply kept_foldl | with_reducible apply kept_foldl_snd | with_reducible apply kept_foldl_fst | with_reducible apply kept_ite | split | dsimp only | with_reducible apply kept_mk | with_reducible apply kept_ite | split | dsimp only | with_reducible apply kept_chans | with_reducible apply kept_streams)

theorem linkChanged_kept {s0 : State} (s : State) (f : Func) (hk : Kept s0 s) : Kept s0 (State.linkChanged s f) := by
  unfold State.linkChanged
  repeat (first | with_reducible assumption | intro _ | with_reducible apply publish_kept | with_reducible apply kept_ite | split | dsimp only | with_reducible apply kept_ite | split | dsimp only)

theorem linkDown_kept {s0 : State} (s : State) (f : Func) (hk : Kept s0 s) : Kept s0 (State.linkDown s f) := by
  unfold State.linkDown
  repeat (first | with_reducible assumption | intro _ | with_reducible apply wr_kept | with_reducible apply raise_kept | with_reducible apply linkGone_kept | with_reducible apply linkChanged_kept | with_reducible apply kept_ite | split | dsimp only | with_reducible apply kept_ite | split | dsimp only)

theorem toD3_kept {s0 : State} (s : State) (f : Func) (hk : Kept s0 s) : Kept s0 (State.toD3 s f) := by
  unfold State.toD3
  repeat (first | with_reducible assumption | intro _ | with_reducible apply raise_kept | with_reducible apply linkGone_kept | with_reducible apply linkChanged_kept | with_reducible apply kept_ite | split | dsimp only | with_reducible apply kept_ite | split | dsimp only)

theorem linkComes_kept {s0 : State} (s : State) (f : Func) (gen width : Nat) (hk : Kept s0 s) : Kept s0 (State.linkComes s f gen width) := by
  unfold State.linkComes
  repeat (first | with_reducible assumption | intro _ | with_reducible apply wr_kept | with_reducible apply asyncReport_kept | with_reducible apply rebindDring_kept | with_reducible apply linkChanged_kept | with_reducible apply kept_foldl | with_reducible apply kept_foldl_snd | with_reducible apply kept_foldl_fst | with_reducible apply kept_ite | split | dsimp only | with_reducible apply kept_ite | split | dsimp only)

theorem dmaFails_kept {s0 : State} (s : State) (r : RingId) (hk : Kept s0 s) : Kept s0 (State.dmaFails s r) := by
  unfold State.dmaFails
  repeat (first | with_reducible assumption | intro _ | with_reducible apply raise_kept | with_reducible apply complete_kept | with_reducible apply descriptor_kept | with_reducible apply kept_ite | split | dsimp only | with_reducible apply kept_mk | with_reducible apply kept_ite | split | dsimp only)

theorem sendVector_kept {s0 : State} (s : State) (v : Fin 128) (hk : Kept s0 s) : Kept s0 (State.sendVector s v) := by
  unfold State.sendVector
  repeat (first | with_reducible assumption | intro _ | with_reducible apply setFld_kept | with_reducible apply hostWrite_kept | with_reducible apply kept_ite | split | dsimp only | with_reducible apply kept_ite | split | dsimp only)

theorem coalesced_kept {s0 : State} (s : State) (r : RingId) (hk : Kept s0 s) : Kept s0 (State.coalesced s r) := by
  unfold State.coalesced
  repeat (first | with_reducible assumption | intro _ | with_reducible apply reachTime_kept | with_reducible apply updRring_kept | with_reducible apply requestVector_kept | with_reducible apply kept_ite | split | dsimp only | with_reducible apply kept_mk | with_reducible apply kept_ite | split | dsimp only)

theorem setWatchdog_kept {s0 : State} (s : State) (ref : DescRef) (period timeout : Word) (action : Fin 4) (hk : Kept s0 s) : Kept s0 (State.setWatchdog s ref period timeout action) := by
  unfold State.setWatchdog
  repeat (first | with_reducible assumption | intro _ | with_reducible refine updHost_kept ?_ rfl rfl | with_reducible apply complete_kept | with_reducible apply kept_ite | split | dsimp only | with_reducible apply kept_mk | with_reducible apply kept_ite | split | dsimp only)

theorem watchSent_kept {s0 s : State} (w : Watchdog) (hk : Kept s0 s) : Kept s0 (s.updHost (fun h => { h with wd := some { w with sent := w.sent + 1 } })) :=
  updHost_kept hk rfl rfl

theorem heartbeat_kept {s0 : State} (s : State) (hk : Kept s0 s) : Kept s0 s.heartbeat := by
  unfold State.heartbeat
  split
  · exact hk
  · split
    · exact hk
    · exact asyncReport_kept _ _ _ _ (watchSent_kept _ (reachTime_kept _ _ hk))

theorem watchSince_kept {s0 s : State} (w : Watchdog) (hk : Kept s0 s) : Kept s0 (s.updHost (fun h => { h with wd := some { w with since := s.clock.now } })) :=
  updHost_kept hk rfl rfl

theorem hostLost_kept {s0 : State} (s : State) (hk : Kept s0 s) : Kept s0 s.hostLost := by
  unfold State.hostLost
  extract_lets s1
  have h1 : Kept s0 s1 := watchAgain_kept _ hk
  clear_value s1
  split
  · exact h1
  · split
    · exact h1
    · extract_lets s2 s3 s4
      have h4 : Kept s0 s4 := asyncReport_kept _ _ _ _ (raise_kept _ _ _ (watchSince_kept _ (reachTime_kept _ _ h1)))
      clear_value s4
      split
      · exact publish_kept _ _ _ h4
      · split
        · exact abortAll_kept _ _ h4
        · exact h4

end Sys2Proof.Laws
end

