-- ==== Sys2Proof/Laws/KeptOrrery.lean ====
section
/-! SUPPORT. What the operations of Machine/Orrery.lean keep (see Kept.lean). -/
namespace Sys2Proof.Laws
open Sys2Proof Sys2Proof.Machine

theorem setCare_kept {s0 : State} (s : State) (e : Sys2Proof.Engine) (x : StoreCare) (hk : Kept s0 s) : Kept s0 (State.setCare s e x) := by
  unfold State.setCare
  repeat (first | with_reducible assumption | intro _ | with_reducible apply updKeeper_kept | with_reducible apply updEngine_kept | with_reducible apply kept_ite | split | dsimp only | with_reducible apply kept_mk | with_reducible apply kept_ite | split | dsimp only)

theorem storeCorrected_kept {s0 : State} (s : State) (e : Sys2Proof.Engine) (hk : Kept s0 s) : Kept s0 (State.storeCorrected s e) := by
  unfold State.storeCorrected
  repeat (first | with_reducible assumption | intro _ | with_reducible apply raise_kept | with_reducible apply bump_kept | with_reducible apply kept_ite | split | dsimp only | with_reducible apply kept_mk | with_reducible apply kept_ite | split | dsimp only)

theorem storeRepair_kept {s0 : State} (s : State) (e : Sys2Proof.Engine) (word : Nat) (hk : Kept s0 s) : Kept s0 (State.storeRepair s e word) := by
  unfold State.storeRepair
  repeat (first | with_reducible assumption | intro _ | with_reducible apply setFld_kept | with_reducible apply raise_kept | with_reducible apply publish_kept | with_reducible apply logLedger_kept | with_reducible apply setCare_kept | with_reducible apply kept_ite | split | dsimp only | with_reducible apply kept_mk | with_reducible apply kept_ite | split | dsimp only)

theorem scrubWord_kept {s0 : State} (s : State) (e : Sys2Proof.Engine) (word : Nat) (ecc : Ecc) (hk : Kept s0 s) : Kept s0 (State.scrubWord s e word ecc) := by
  unfold State.scrubWord
  repeat (first | with_reducible assumption | intro _ | with_reducible apply setFld_kept | with_reducible apply setCare_kept | with_reducible apply storeCorrected_kept | with_reducible apply storeRepair_kept | with_reducible apply kept_ite | split | dsimp only | with_reducible apply kept_mk | with_reducible apply kept_ite | split | dsimp only)

theorem routineEnds_kept {s0 : State} (s : State) (k : KeeperId) (i : Fin 16) (hk : Kept s0 s) : Kept s0 (State.routineEnds s k i) := by
  unfold State.routineEnds
  repeat (first | with_reducible assumption | intro _ | with_reducible apply setFld_kept | with_reducible apply updKeeper_kept | with_reducible apply kept_ite | split | dsimp only | with_reducible apply kept_mk | with_reducible apply kept_ite | split | dsimp only)

theorem routineFails_kept {s0 : State} (s : State) (k : KeeperId) (i : Fin 16) (code : Nat) (hk : Kept s0 s) : Kept s0 (State.routineFails s k i code) := by
  unfold State.routineFails
  repeat (first | with_reducible assumption | intro _ | with_reducible apply setFld_kept | with_reducible apply raise_kept | with_reducible apply publish_kept | with_reducible apply discardRun_kept | with_reducible apply routineEnds_kept | with_reducible apply kept_ite | split | dsimp only | with_reducible apply kept_ite | split | dsimp only)

theorem keeperFault_kept {s0 : State} (s : State) (k : KeeperId) (code : Nat) (hk : Kept s0 s) : Kept s0 (State.keeperFault s k code) := by
  unfold State.keeperFault
  repeat (first | with_reducible assumption | intro _ | with_reducible apply setFld_kept | with_reducible apply raise_kept | with_reducible apply bump_kept | with_reducible apply updKeeper_kept | with_reducible apply discardRun_kept | with_reducible apply routineFails_kept | with_reducible apply kept_ite | split | dsimp only | with_reducible apply kept_mk | with_reducible apply kept_ite | split | dsimp only)

theorem startRoutine_kept {s0 : State} (s : State) (k : KeeperId) (hk : Kept s0 s) : Kept s0 (State.startRoutine s k) := by
  unfold State.startRoutine
  repeat (first | with_reducible assumption | intro _ | with_reducible apply updKeeper_kept | with_reducible apply keeperFault_kept | with_reducible apply kept_ite | split | dsimp only | with_reducible apply kept_mk | with_reducible apply kept_ite | split | dsimp only)

theorem keeperPlate_kept {s0 : State} (s : State) (k : KeeperId) (a : QWord) (x : PlateAccess) (hk : Kept s0 s) : Kept s0 (State.keeperPlate s k a x) := by
  unfold State.keeperPlate
  repeat (first | with_reducible assumption | intro _ | with_reducible apply plateAccess_kept | with_reducible apply kept_ite | split | dsimp only | with_reducible apply kept_mk | with_reducible apply kept_ite | split | dsimp only | with_reducible apply kept_resp)

theorem keeperWrite_kept {s0 : State} (s : State) (k : KeeperId) (a : Nat) (half : Option Bool) (v : Word) (hk : Kept s0 s) : Kept s0 (State.keeperWrite s k a half v).1 := by
  unfold State.keeperWrite
  repeat (first | with_reducible assumption | intro _ | with_reducible apply windowWrite_kept | with_reducible apply kept_ite | split | dsimp only | with_reducible apply kept_mk | with_reducible apply kept_ite | split | dsimp only)

theorem consumeRing_kept {s0 : State} (s : State) (r : Nat) (hk : Kept s0 s) : Kept s0 (State.consumeRing s r) := by
  unfold State.consumeRing
  repeat (first | with_reducible assumption | intro _ | with_reducible apply updDring_kept | with_reducible apply kept_ite | split | dsimp only | with_reducible apply kept_mk | with_reducible apply kept_ite | split | dsimp only)

theorem dmaStore_kept {s0 : State} (s : State) (k : KeeperId) (a : QWord) (bs : List Byte) (hk : Kept s0 s) : Kept s0 (s.dmaStore k a bs) := by
  unfold State.dmaStore
  extract_lets d b o touched region s1
  have h1 : Kept s0 s1 := kept_ite (forceRestore_kept _ _ _ hk) hk
  exact updBank_wf h1 (fun hd => Memory_wf_write _ _ _ hd)

theorem dmaWrite_kept {s0 : State} (s : State) (k : KeeperId) (a : QWord) (bs : List Byte) (mirror : Bool) (hk : Kept s0 s) : Kept s0 (State.dmaWrite s k a bs mirror).1 := by
  unfold State.dmaWrite
  repeat (first | with_reducible assumption | intro _ | with_reducible apply dmaStore_kept | with_reducible apply kept_ite | split | dsimp only | with_reducible apply kept_ite | split | dsimp only)

theorem dmaCopy_kept {s0 : State} (s : State) (k : KeeperId) (src dst n : Nat) (mirror : Bool) (hk : Kept s0 s) : Kept s0 (State.dmaCopy s k src dst n mirror).1 := by
  unfold State.dmaCopy
  repeat (first | with_reducible assumption | intro _ | with_reducible apply dmaWrite_kept | with_reducible apply kept_ite | split | dsimp only | with_reducible apply kept_mk | with_reducible apply kept_ite | split | dsimp only)

theorem dmaFill_kept {s0 : State} (s : State) (k : KeeperId) (value dst n : Nat) (hk : Kept s0 s) : Kept s0 (State.dmaFill s k value dst n).1 := by
  unfold State.dmaFill
  repeat (first | with_reducible assumption | intro _ | with_reducible apply dmaWrite_kept | with_reducible apply kept_ite | split | dsimp only | with_reducible apply kept_ite | split | dsimp only)

theorem postFrom_kept {s0 : State} (s : State) (k : KeeperId) (a : Nat) (hk : Kept s0 s) : Kept s0 (State.postFrom s k a).1 := by
  unfold State.postFrom
  repeat (first | with_reducible assumption | intro _ | with_reducible apply queueReport_kept | with_reducible apply kept_ite | split | dsimp only | with_reducible apply kept_ite | split | dsimp only)

theorem perform_kept {s0 : State} (s : State) (k : KeeperId) (o : Outward) (hk : Kept s0 s) : Kept s0 (s.perform k o).1 := by
  cases o with
  | regWrite a v => exact keeperWrite_kept _ _ _ _ _ hk
  | regMasked a v => exact keeperWrite_kept _ _ _ _ _ hk
  | plateWrite a v =>
    rw [State.perform]
    split
    · exact keeperPlate_kept _ _ _ _ hk
    · exact hk
  | plateAdd a v =>
    rw [State.perform]
    split
    · exact keeperPlate_kept _ _ _ _ hk
    · exact hk
  | copy src dst n => exact dmaCopy_kept _ _ _ _ _ _ hk
  | copyMirror src dst n => exact dmaCopy_kept _ _ _ _ _ _ hk
  | fill v dst n => exact dmaFill_kept _ _ _ _ _ hk
  | consume r => exact consumeRing_kept _ _ hk
  | post a => exact postFrom_kept _ _ _ hk
  | publish idx info => exact publishOn_kept _ _ _ _ _ hk

theorem issueAll_kept {s0 : State} (k : KeeperId) (committed : Bool) (l : List Outward) (s : State) (hk : Kept s0 s) : Kept s0 (State.issueAll k committed l s).1 := by
  induction l generalizing s with
  | nil => exact hk
  | cons o l ih =>
    unfold State.issueAll
    split
    · exact ih _ (perform_kept _ _ _ hk)
    · split
      · exact hk
      · exact ih _ (updKeeper_kept _ _ _ hk)

theorem beginUnits_kept {s0 : State} (s : State) (k : KeeperId) (w : Microword) (g : Vector QWord 16) (hk : Kept s0 s) : Kept s0 (State.beginUnits s k w g) := by
  unfold State.beginUnits
  repeat (first | with_reducible assumption | intro _ | with_reducible apply fresh_kept | with_reducible apply updKeeper_kept | with_reducible apply keeperPlate_kept | with_reducible apply fetchAhead_kept | with_reducible apply kept_ite | split | dsimp only | with_reducible apply kept_mk | with_reducible apply kept_ite | split | dsimp only | with_reducible apply kept_free)

theorem descToPlate_kept {s0 : State} (s : State) (k : KeeperId) (r : RingId) (a : Nat) (hk : Kept s0 s) : Kept s0 (State.descToPlate s k r a) := by
  unfold State.descToPlate
  repeat (first | with_reducible assumption | intro _ | with_reducible apply dmaStore_kept | with_reducible apply kept_ite | split | dsimp only | with_reducible apply kept_ite | split | dsimp only)

theorem unitWrites_kept {s0 : State} (s : State) (k : KeeperId) (w : Microword) (g : Vector QWord 16) (hk : Kept s0 s) : Kept s0 (State.unitWrites s k w g).2 := by
  unfold State.unitWrites
  repeat (first | with_reducible assumption | intro _ | with_reducible apply fresh_kept | with_reducible apply descToPlate_kept | with_reducible apply kept_ite | split | dsimp only | with_reducible apply kept_mk | with_reducible apply kept_ite | split | dsimp only | with_reducible apply kept_free)

theorem goTo_kept {s0 : State} (s : State) (k : KeeperId) (word : Nat) (hk : Kept s0 s) : Kept s0 (State.goTo s k word) := by
  unfold State.goTo
  repeat (first | with_reducible assumption | intro _ | with_reducible apply updKeeper_kept | with_reducible apply kept_ite | split | dsimp only | with_reducible apply kept_mk | with_reducible apply kept_ite | split | dsimp only)

theorem endRoutine_kept {s0 : State} (s : State) (k : KeeperId) (hk : Kept s0 s) : Kept s0 (State.endRoutine s k) := by
  unfold State.endRoutine
  repeat (first | with_reducible assumption | intro _ | with_reducible apply updKeeper_kept | with_reducible apply routineEnds_kept | with_reducible apply kept_ite | split | dsimp only | with_reducible apply kept_mk | with_reducible apply kept_ite | split | dsimp only)

theorem sequence_kept {s0 : State} (s : State) (k : KeeperId) (w : Microword) (g : Vector QWord 16) (flags : AluFlags) (t0 : Nat) (hk : Kept s0 s) : Kept s0 (State.sequence s k w g flags t0) := by
  unfold State.sequence
  repeat (first | with_reducible assumption | intro _ | with_reducible apply updKeeper_kept | with_reducible apply keeperFault_kept | with_reducible apply goTo_kept | with_reducible apply endRoutine_kept | with_reducible apply kept_ite | split | dsimp only | with_reducible apply kept_mk | with_reducible apply kept_ite | split | dsimp only)

theorem runWord_kept {s0 : State} (s : State) (k : KeeperId) (w : Microword) (hk : Kept s0 s) : Kept s0 (State.runWord s k w) := by
  unfold State.runWord
  repeat (first | with_reducible assumption | intro _ | with_reducible apply fresh_kept | with_reducible apply reachTime_kept | with_reducible apply updKeeper_kept | with_reducible apply keeperFault_kept | with_reducible apply beginUnits_kept | with_reducible apply unitWrites_kept | with_reducible apply sequence_kept | with_reducible apply issueAll_kept | with_reducible apply kept_foldl | with_reducible apply kept_foldl_snd | with_reducible apply kept_foldl_fst | with_reducible apply kept_ite | split | dsimp only | with_reducible apply kept_mk | with_reducible apply kept_ite | split | dsimp only | with_reducible apply kept_free)

theorem shadowWord_kept {s0 : State} (s : State) (k : KeeperId) (ecc : Ecc) (hk : Kept s0 s) : Kept s0 (State.shadowWord s k ecc) := by
  unfold State.shadowWord
  repeat (first | with_reducible assumption | intro _ | with_reducible apply fresh_kept | with_reducible apply storeCorrected_kept | with_reducible apply storeRepair_kept | with_reducible apply kept_ite | split | dsimp only | with_reducible apply kept_mk | with_reducible apply kept_ite | split | dsimp only | with_reducible apply kept_free)

theorem keeperStep_kept {s0 : State} (s : State) (k : KeeperId) (ecc : Ecc) (hk : Kept s0 s) : Kept s0 (State.keeperStep s k ecc) := by
  unfold State.keeperStep
  repeat (first | with_reducible assumption | intro _ | with_reducible apply keeperWord_kept | with_reducible apply storeCorrected_kept | with_reducible apply storeRepair_kept | with_reducible apply keeperFault_kept | with_reducible apply runWord_kept | with_reducible apply shadowWord_kept | with_reducible apply kept_ite | split | dsimp only | with_reducible apply kept_mk | with_reducible apply kept_ite | split | dsimp only)

theorem waitMet_kept {s0 : State} (s : State) (k : KeeperId) (hk : Kept s0 s) : Kept s0 (State.waitMet s k) := by
  unfold State.waitMet
  repeat (first | with_reducible assumption | intro _ | with_reducible apply keeperWord_kept | with_reducible apply goTo_kept | with_reducible apply kept_ite | split | dsimp only | with_reducible apply kept_mk | with_reducible apply kept_ite | split | dsimp only)

theorem waitExpires_kept {s0 : State} (s : State) (k : KeeperId) (hk : Kept s0 s) : Kept s0 (State.waitExpires s k) := by
  unfold State.waitExpires
  repeat (first | with_reducible assumption | intro _ | with_reducible apply raise_kept | with_reducible apply reachTime_kept | with_reducible apply keeperWord_kept | with_reducible apply goTo_kept | with_reducible apply kept_ite | split | dsimp only | with_reducible apply kept_mk | with_reducible apply kept_ite | split | dsimp only)

theorem released_kept {s0 : State} (s : State) (k : KeeperId) (hk : Kept s0 s) : Kept s0 (State.released s k) := by
  unfold State.released
  repeat (first | with_reducible assumption | intro _ | with_reducible apply raise_kept | with_reducible apply routineEnds_kept | with_reducible apply perform_kept | with_reducible apply kept_foldl | with_reducible apply kept_foldl_snd | with_reducible apply kept_foldl_fst | with_reducible apply kept_ite | split | dsimp only | with_reducible apply kept_mk | with_reducible apply kept_ite | split | dsimp only)

theorem runTooLong_kept {s0 : State} (s : State) (k : KeeperId) (hk : Kept s0 s) : Kept s0 (State.runTooLong s k) := by
  unfold State.runTooLong
  repeat (first | with_reducible assumption | intro _ | with_reducible apply reachTime_kept | with_reducible apply keeperFault_kept | with_reducible apply kept_ite | split | dsimp only | with_reducible apply kept_ite | split | dsimp only)

theorem readEnds_kept {s0 : State} (s : State) (k : KeeperId) (a : RegAccess) (hk : Kept s0 s) : Kept s0 (s.readEnds k a) := by
  unfold State.readEnds
  have h := mapRead_kept s (.keeper k) a.addr hk
  generalize s.mapRead (.keeper k) a.addr = p at h ⊢
  obtain ⟨o, t⟩ := p
  cases o <;> first | exact updKeeper_kept _ _ _ h | exact h | skip

theorem unitEnds_kept {s0 : State} (s : State) (k : KeeperId) (unit : Fin 4) (ok : Bool) (hk : Kept s0 s) : Kept s0 (s.unitEnds k unit ok) := by
  unfold State.unitEnds
  split
  · exact hk
  · split
    · exact keeperFault_kept _ _ _ hk
    · split
      · split
        · split
          · exact hk
          · exact readEnds_kept _ _ _ hk
        · exact updKeeper_kept _ _ _ hk
      · exact updKeeper_kept _ _ _ hk
      · exact updKeeper_kept _ _ _ hk
      · exact hk

theorem pollReads_kept {s0 : State} (s : State) (k : KeeperId) (hk : Kept s0 s) : Kept s0 (s.pollReads k) := by
  unfold State.pollReads
  split
  · rename_i a _
    split
    · have h := mapRead_kept s (.keeper k) a.addr hk
      generalize s.mapRead (.keeper k) a.addr = p at h ⊢
      obtain ⟨o, t⟩ := p
      cases o
      · exact h
      · exact updKeeper_kept _ _ _ h
    · exact hk
  · exact hk

theorem accessTimesOut_kept {s0 : State} (s : State) (k : KeeperId) (hk : Kept s0 s) : Kept s0 (State.accessTimesOut s k) := by
  unfold State.accessTimesOut
  repeat (first | with_reducible assumption | intro _ | with_reducible apply keeperFault_kept | with_reducible apply kept_ite | split | dsimp only | with_reducible apply kept_ite | split | dsimp only)

theorem ownerWritten_kept {s0 : State} (s : State) (hk : Kept s0 s) : Kept s0 (State.ownerWritten s) := by
  unfold State.ownerWritten
  repeat (first | with_reducible assumption | intro _ | with_reducible apply installOwner_kept | with_reducible apply kept_ite | split | dsimp only | with_reducible apply kept_mk | with_reducible apply kept_ite | split | dsimp only)

end Sys2Proof.Laws
end

