-- ==== Sys2Proof/Laws/KeptLosses.lean ====
section
/-! SUPPORT. What the operations of Machine/Losses.lean keep (see Kept.lean). -/
namespace Sys2Proof.Laws
open Sys2Proof Sys2Proof.Machine

theorem domeForgotten_kept {s0 : State} (s : State) (d : DomeId) (hk : Kept s0 s) : Kept s0 (State.domeForgotten s d) := by
  unfold State.domeForgotten
  repeat (first | with_reducible assumption | intro _ | with_reducible apply updKeeper_kept | with_reducible apply discardRun_kept | with_reducible apply plateLost_kept | with_reducible apply kept_foldl | with_reducible apply kept_foldl_snd | with_reducible apply kept_foldl_fst | with_reducible apply kept_ite | split | dsimp only | with_reducible apply kept_mk | with_reducible apply kept_ite | split | dsimp only | with_reducible apply kept_chans)

theorem logMoves_kept {s0 : State} (s : State) (d : DomeId) (hk : Kept s0 s) : Kept s0 (State.logMoves s d) := by
  unfold State.logMoves
  repeat (first | with_reducible assumption | intro _ | with_reducible apply setFld_kept | with_reducible apply kept_ite | split | dsimp only | with_reducible apply kept_mk | with_reducible apply kept_ite | split | dsimp only | with_reducible apply kept_trnLogQ)

theorem loseDome_kept {s0 : State} (s : State) (d : DomeId) (hk : Kept s0 s) : Kept s0 (State.loseDome s d) := by
  unfold State.loseDome
  repeat (first | with_reducible assumption | intro _ | with_reducible apply publishFree_kept | with_reducible apply enterForm_kept | with_reducible apply streamLost_kept | with_reducible apply relayCheck_kept | with_reducible apply dropDie_kept | with_reducible apply linkDown_kept | with_reducible apply domeForgotten_kept | with_reducible apply logMoves_kept | with_reducible apply kept_foldl | with_reducible apply kept_foldl_snd | with_reducible apply kept_foldl_fst | with_reducible apply kept_ite | split | dsimp only | with_reducible apply kept_ite | split | dsimp only)

theorem loseLamp_kept {s0 : State} (s : State) (n : LampId) (hk : Kept s0 s) : Kept s0 (State.loseLamp s n) := by
  unfold State.loseLamp
  repeat (first | with_reducible assumption | intro _ | with_reducible apply publishFree_kept | with_reducible apply toIdle_kept | with_reducible apply enterForm_kept | with_reducible apply relayCheck_kept | with_reducible apply dropDie_kept | with_reducible apply kept_foldl | with_reducible apply kept_foldl_snd | with_reducible apply kept_foldl_fst | with_reducible apply kept_ite | split | dsimp only | with_reducible apply kept_ite | split | dsimp only)

theorem leadPasses_kept {s0 : State} (s : State) (hk : Kept s0 s) : Kept s0 (State.leadPasses s) := by
  unfold State.leadPasses
  repeat (first | with_reducible assumption | intro _ | with_reducible apply setFld_kept | with_reducible apply raise_kept | with_reducible apply updMer_kept | with_reducible apply kept_ite | split | dsimp only | with_reducible apply kept_mk | with_reducible apply kept_ite | split | dsimp only)

theorem loseMerid_kept {s0 : State} (s : State) (m : MerId) (hk : Kept s0 s) : Kept s0 (State.loseMerid s m) := by
  unfold State.loseMerid
  repeat (first | with_reducible assumption | intro _ | with_reducible apply publishFree_kept | with_reducible apply enterForm_kept | with_reducible apply setLoop_kept | with_reducible apply failover_kept | with_reducible apply dropDie_kept | with_reducible apply fullReset_kept | with_reducible apply leadPasses_kept | with_reducible apply kept_ite | split | dsimp only | with_reducible apply kept_mk | with_reducible apply kept_ite | split | dsimp only | with_reducible apply kept_dieLost)

theorem updBeat_kept {s0 : State} (s : State) (d : DomeId) (f : Beat → Beat) (hk : Kept s0 s) : Kept s0 (State.updBeat s d f) := by
  unfold State.updBeat
  repeat (first | with_reducible assumption | intro _ | with_reducible apply kept_ite | split | dsimp only | with_reducible apply kept_mk | with_reducible apply kept_ite | split | dsimp only | with_reducible apply kept_beats)

theorem sendBeat_kept {s0 : State} (s : State) (d : DomeId) (hk : Kept s0 s) : Kept s0 (State.sendBeat s d) := by
  unfold State.sendBeat
  repeat (first | with_reducible assumption | intro _ | with_reducible apply reachTime_kept | with_reducible apply updBeat_kept | with_reducible apply kept_ite | split | dsimp only | with_reducible apply kept_ite | split | dsimp only)

theorem missBeat_kept {s0 : State} (s : State) (d : DomeId) (byPeer byMerid : Bool) (hk : Kept s0 s) : Kept s0 (State.missBeat s d byPeer byMerid) := by
  unfold State.missBeat
  repeat (first | with_reducible assumption | intro _ | with_reducible apply reachTime_kept | with_reducible apply loseLink_kept | with_reducible apply loseDome_kept | with_reducible apply updBeat_kept | with_reducible apply kept_ite | split | dsimp only | with_reducible apply kept_mk | with_reducible apply kept_ite | split | dsimp only)

theorem railTrips_kept {s0 : State} (s : State) (die : Die) (rail : Fin 12) (hk : Kept s0 s) : Kept s0 (State.railTrips s die rail) := by
  unfold State.railTrips
  repeat (first | with_reducible assumption | intro _ | with_reducible apply updPower_kept | with_reducible apply fullReset_kept | with_reducible apply loseDome_kept | with_reducible apply loseLamp_kept | with_reducible apply loseMerid_kept | with_reducible apply kept_ite | split | dsimp only | with_reducible apply kept_mk | with_reducible apply kept_ite | split | dsimp only)

end Sys2Proof.Laws
end

