-- ==== Sys2Proof/Laws/KeptShadow.lean ====
section
/-! SUPPORT. What the operations of Machine/Shadow.lean keep (see Kept.lean). -/
namespace Sys2Proof.Laws
open Sys2Proof Sys2Proof.Machine

theorem progressNow_kept {s0 : State} (s : State) (c : ChanId) (hk : Kept s0 s) : Kept s0 (State.progressNow s c) := by
  unfold State.progressNow
  repeat (first | with_reducible assumption | intro _ | with_reducible apply updChan_kept | with_reducible apply reachGranC_kept | with_reducible apply report_kept | with_reducible apply kept_ite | split | dsimp only | with_reducible apply kept_mk | with_reducible apply kept_ite | split | dsimp only)

theorem declare_kept {s0 : State} (s : State) (c : ChanId) (cause : Nat) (hk : Kept s0 s) : Kept s0 (State.declare s c cause) := by
  unfold State.declare
  repeat (first | with_reducible assumption | intro _ | with_reducible apply setFld_kept | with_reducible apply raise_kept | with_reducible apply bump_kept | with_reducible apply publish_kept | with_reducible apply askRecover_kept | with_reducible apply updShadow_kept | with_reducible apply enterFault_kept | with_reducible apply kept_ite | split | dsimp only | with_reducible apply kept_mk | with_reducible apply kept_ite | split | dsimp only)

theorem shadowTakes_kept {s0 : State} (s : State) (c : ChanId) (hk : Kept s0 s) : Kept s0 (State.shadowTakes s c) := by
  unfold State.shadowTakes
  repeat (first | with_reducible assumption | intro _ | with_reducible apply updChan_kept | with_reducible apply updShadow_kept | with_reducible apply declare_kept | with_reducible apply kept_ite | split | dsimp only | with_reducible apply kept_mk | with_reducible apply kept_ite | split | dsimp only)

theorem silence_kept {s0 : State} (s : State) (c : ChanId) (hk : Kept s0 s) : Kept s0 (State.silence s c) := by
  unfold State.silence
  repeat (first | with_reducible assumption | intro _ | with_reducible apply reachGranC_kept | with_reducible apply loseLamp_kept | with_reducible apply declare_kept | with_reducible apply kept_ite | split | dsimp only | with_reducible apply kept_ite | split | dsimp only)

theorem takeUp_kept {s0 : State} (s : State) (c : ChanId) (g : Nat) (hk : Kept s0 s) : Kept s0 (State.takeUp s c g) := by
  unfold State.takeUp
  repeat (first | with_reducible assumption | intro _ | with_reducible apply updChan_kept | with_reducible apply leavePlay_kept | with_reducible apply resumeAt_kept | with_reducible apply idle_kept | with_reducible apply kept_ite | split | dsimp only | with_reducible apply kept_mk | with_reducible apply kept_ite | split | dsimp only)

theorem recover_kept {s0 : State} (s : State) (c : ChanId) (hk : Kept s0 s) : Kept s0 (State.recover s c) := by
  unfold State.recover
  repeat (first | with_reducible assumption | intro _ | with_reducible apply raise_kept | with_reducible apply bumpBy_kept | with_reducible apply bump_kept | with_reducible apply updChan_kept | with_reducible apply reachTime_kept | with_reducible apply updShadow_kept | with_reducible apply leavePlay_kept | with_reducible apply reloadStore_kept | with_reducible apply takeUp_kept | with_reducible apply idle_kept | with_reducible apply kept_ite | split | dsimp only | with_reducible apply kept_mk | with_reducible apply kept_ite | split | dsimp only)

end Sys2Proof.Laws
end

