-- ==== Sys2Proof/Laws/KeptEngines.lean ====
section
/-! SUPPORT. What the operations of Machine/Engines.lean keep (see Kept.lean). -/
namespace Sys2Proof.Laws
open Sys2Proof Sys2Proof.Machine

theorem entUnit_kept {s0 : State} (s : State) (c : ChanId) (w : Microword) (g : Vector QWord 16) (hk : Kept s0 s) : Kept s0 (State.entUnit s c w g) := by
  unfold State.entUnit
  repeat (first | with_reducible assumption | intro _ | with_reducible apply updEngine_kept | with_reducible apply kept_ite | split | dsimp only | with_reducible apply kept_mk | with_reducible apply kept_ite | split | dsimp only)

theorem frmUnit_kept {s0 : State} (s : State) (c : ChanId) (w : Microword) (g : Vector QWord 16) (hk : Kept s0 s) : Kept s0 (State.frmUnit s c w g) := by
  unfold State.frmUnit
  repeat (first | with_reducible assumption | intro _ | with_reducible apply updChan_kept | with_reducible apply walkFault_kept | with_reducible apply updEngine_kept | with_reducible apply kept_ite | split | dsimp only | with_reducible apply kept_mk | with_reducible apply kept_ite | split | dsimp only)

theorem reqUnit_kept {s0 : State} (s : State) (c : ChanId) (w : Microword) (g : Vector QWord 16) (hk : Kept s0 s) : Kept s0 (State.reqUnit s c w g) := by
  unfold State.reqUnit
  repeat (first | with_reducible assumption | intro _ | with_reducible apply cutAhead_kept | with_reducible apply requestAhead_kept | with_reducible apply kept_ite | split | dsimp only | with_reducible apply kept_mk | with_reducible apply kept_ite | split | dsimp only)

theorem lantUnit_kept {s0 : State} (s : State) (c : ChanId) (w : Microword) (hk : Kept s0 s) : Kept s0 (State.lantUnit s c w) := by
  unfold State.lantUnit
  repeat (first | with_reducible assumption | intro _ | with_reducible apply updChan_kept | with_reducible apply ncoOpAt_kept | with_reducible apply visitRange_kept | with_reducible apply visitStart_kept | with_reducible apply kept_ite | split | dsimp only | with_reducible apply kept_mk | with_reducible apply kept_ite | split | dsimp only)

theorem markUnit_kept {s0 : State} (s : State) (c : ChanId) (w : Microword) (hk : Kept s0 s) : Kept s0 (State.markUnit s c w) := by
  unfold State.markUnit
  repeat (first | with_reducible assumption | intro _ | with_reducible apply cutMarkers_kept | with_reducible apply kept_ite | split | dsimp only | with_reducible apply kept_ite | split | dsimp only)

theorem pubUnit_kept {s0 : State} (s : State) (c : ChanId) (w : Microword) (g : Vector QWord 16) (hk : Kept s0 s) : Kept s0 (State.pubUnit s c w g) := by
  unfold State.pubUnit
  repeat (first | with_reducible assumption | intro _ | with_reducible apply publish_kept | with_reducible apply visitPub_kept | with_reducible apply kept_ite | split | dsimp only | with_reducible apply kept_mk | with_reducible apply kept_ite | split | dsimp only)

theorem jmpUnit_kept {s0 : State} (s : State) (c : ChanId) (w : Microword) (hk : Kept s0 s) : Kept s0 (State.jmpUnit s c w) := by
  unfold State.jmpUnit
  repeat (first | with_reducible assumption | intro _ | with_reducible apply discardJump_kept | with_reducible apply jumpReached_kept | with_reducible apply kept_ite | split | dsimp only | with_reducible apply kept_mk | with_reducible apply kept_ite | split | dsimp only)

theorem shdUnit_kept {s0 : State} (s : State) (c : ChanId) (w : Microword) (hk : Kept s0 s) : Kept s0 (State.shdUnit s c w) := by
  unfold State.shdUnit
  repeat (first | with_reducible assumption | intro _ | with_reducible apply report_kept | with_reducible apply visitStart_kept | with_reducible apply kept_ite | split | dsimp only | with_reducible apply kept_mk | with_reducible apply kept_ite | split | dsimp only)

theorem cntUnit_kept {s0 : State} (s : State) (c : ChanId) (w : Microword) (hk : Kept s0 s) : Kept s0 (State.cntUnit s c w) := by
  unfold State.cntUnit
  repeat (first | with_reducible assumption | intro _ | with_reducible apply updEngine_kept | with_reducible apply kept_ite | split | dsimp only | with_reducible apply kept_mk | with_reducible apply kept_ite | split | dsimp only)

theorem chanStoreFault_kept {s0 : State} (s : State) (c : ChanId) (word : Nat) (hk : Kept s0 s) : Kept s0 (State.chanStoreFault s c word) := by
  unfold State.chanStoreFault
  repeat (first | with_reducible assumption | intro _ | with_reducible apply setFld_kept | with_reducible apply raise_kept | with_reducible apply publish_kept | with_reducible apply askRecover_kept | with_reducible apply enterFault_kept | with_reducible apply kept_ite | split | dsimp only | with_reducible apply kept_ite | split | dsimp only)

theorem chanSequence_kept {s0 : State} (s : State) (c : ChanId) (w : Microword) (flags : AluFlags) (free : Bool) (hk : Kept s0 s) : Kept s0 (State.chanSequence s c w flags free) := by
  unfold State.chanSequence
  repeat (first | with_reducible assumption | intro _ | with_reducible apply updEngine_kept | with_reducible apply chanStoreFault_kept | with_reducible apply kept_ite | split | dsimp only | with_reducible apply kept_mk | with_reducible apply kept_ite | split | dsimp only)

theorem runChanWord_kept {s0 : State} (s : State) (c : ChanId) (w : Microword) (hk : Kept s0 s) : Kept s0 (State.runChanWord s c w) := by
  unfold State.runChanWord
  repeat (first | with_reducible assumption | intro _ | with_reducible apply fresh_kept | with_reducible apply reachGranC_kept | with_reducible apply updEngine_kept | with_reducible apply entUnit_kept | with_reducible apply frmUnit_kept | with_reducible apply reqUnit_kept | with_reducible apply lantUnit_kept | with_reducible apply markUnit_kept | with_reducible apply pubUnit_kept | with_reducible apply jmpUnit_kept | with_reducible apply shdUnit_kept | with_reducible apply cntUnit_kept | with_reducible apply chanStoreFault_kept | with_reducible apply chanSequence_kept | with_reducible apply kept_ite | split | dsimp only | with_reducible apply kept_mk | with_reducible apply kept_ite | split | dsimp only | with_reducible apply kept_free)

theorem chanStep_kept {s0 : State} (s : State) (c : ChanId) (ecc : Ecc) (hk : Kept s0 s) : Kept s0 (State.chanStep s c ecc) := by
  unfold State.chanStep
  repeat (first | with_reducible assumption | intro _ | with_reducible apply channelWord_kept | with_reducible apply storeCorrected_kept | with_reducible apply storeRepair_kept | with_reducible apply chanStoreFault_kept | with_reducible apply runChanWord_kept | with_reducible apply kept_ite | split | dsimp only | with_reducible apply kept_mk | with_reducible apply kept_ite | split | dsimp only)

end Sys2Proof.Laws
end

