-- ==== Sys2Proof/Laws/KeptKeyTest.lean ====
section
/-! SUPPORT. What the operations of Machine/KeyTest.lean keep (see Kept.lean). -/
namespace Sys2Proof.Laws
open Sys2Proof Sys2Proof.Machine

theorem updSec_kept {s0 : State} (s : State) (f : Security → Security) (hk : Kept s0 s) : Kept s0 (State.updSec s f) := by
  unfold State.updSec
  repeat (first | with_reducible assumption | intro _ | with_reducible apply kept_ite | split | dsimp only | with_reducible apply kept_mk | with_reducible apply kept_ite | split | dsimp only | with_reducible apply kept_sec)

theorem enroll_kept {s0 : State} (s : State) (ref : DescRef) (addr : QWord) (hk : Kept s0 s) : Kept s0 (State.enroll s ref addr) := by
  unfold State.enroll
  repeat (first | with_reducible assumption | intro _ | with_reducible apply raise_kept | with_reducible apply complete_kept | with_reducible apply updSec_kept | with_reducible apply kept_ite | split | dsimp only | with_reducible apply kept_mk | with_reducible apply kept_ite | split | dsimp only)

theorem attestNow_kept {s0 : State} (s : State) (ref : DescRef) (addr : Nat) (nonce : Vector Byte 32) (hk : Kept s0 s) : Kept s0 (State.attestNow s ref addr nonce) := by
  unfold State.attestNow
  repeat (first | with_reducible assumption | intro _ | with_reducible apply hostWrite_kept | with_reducible apply complete_kept | with_reducible apply kept_ite | split | dsimp only | with_reducible apply kept_mk | with_reducible apply kept_ite | split | dsimp only)

theorem attest_kept {s0 : State} (s : State) (ref : DescRef) (addr : QWord) (nonce : Vector Byte 32) (hk : Kept s0 s) : Kept s0 (State.attest s ref addr nonce) := by
  unfold State.attest
  repeat (first | with_reducible assumption | intro _ | with_reducible refine updHost_kept ?_ rfl rfl | with_reducible apply attestNow_kept | with_reducible apply kept_ite | split | dsimp only | with_reducible apply kept_mk | with_reducible apply kept_ite | split | dsimp only)

theorem fuseDark_kept {s0 : State} (s : State) (ref : DescRef) (mask : BitVec 16) (codes : Vector (BitVec 16) 16) (hk : Kept s0 s) : Kept s0 (State.fuseDark s ref mask codes) := by
  unfold State.fuseDark
  repeat (first | with_reducible assumption | intro _ | with_reducible apply complete_kept | with_reducible apply updSec_kept | with_reducible apply kept_foldl | with_reducible apply kept_foldl_snd | with_reducible apply kept_foldl_fst | with_reducible apply kept_ite | split | dsimp only | with_reducible apply kept_mk | with_reducible apply kept_ite | split | dsimp only)

theorem keyReady_kept {s0 : State} (s : State) (hk : Kept s0 s) : Kept s0 (State.keyReady s) := by
  unfold State.keyReady
  repeat (first | with_reducible assumption | intro _ | with_reducible apply setFld_kept | with_reducible refine updHost_kept ?_ rfl rfl | with_reducible apply updSec_kept | with_reducible apply attestNow_kept | with_reducible apply kept_foldl | with_reducible apply kept_foldl_snd | with_reducible apply kept_foldl_fst | with_reducible apply kept_ite | split | dsimp only | with_reducible apply kept_mk | with_reducible apply kept_ite | split | dsimp only | with_reducible apply kept_free)

theorem passOver_kept {s0 s : State} (d : DomeId) (b : BankId) (hk : Kept s0 s) :
    Kept s0 (s.updBank d b (fun x => { x with phase := none, broken := 0, failed := false, before := x.now, now := [] })) := updBank_kept hk rfl

theorem plateFullPass_kept {s0 : State} (s : State) (d : DomeId) (b : BankId) (hk : Kept s0 s) : Kept s0 (s.plateFullPass d b) := by
  unfold State.plateFullPass
  split
  · exact hk
  · extract_lets s1 s2 s3
    have h2 : Kept s0 s2 := kept_foldl (reachTime_kept _ _ hk) (fun t w ht => plateCorrected_kept _ _ _ _ ht)
    clear_value s2
    exact setFld_kept _ _ _ _ (passOver_kept _ _ (setFld_kept _ _ _ _ (bump_kept _ _ _ h2)))

theorem lookSelfTest_kept {s0 : State} (s : State) (lamps : BitVec 4) (hk : Kept s0 s) : Kept s0 (State.lookSelfTest s lamps) := by
  unfold State.lookSelfTest
  repeat (first | with_reducible assumption | intro _ | with_reducible apply fresh_kept | with_reducible apply lookSelf_kept | with_reducible apply kept_foldl | with_reducible apply kept_foldl_snd | with_reducible apply kept_foldl_fst | with_reducible apply kept_ite | split | dsimp only | with_reducible apply kept_mk | with_reducible apply kept_ite | split | dsimp only | with_reducible apply kept_free)

theorem scrubFullPass_kept {s0 : State} (s : State) (d : DomeId) (hk : Kept s0 s) : Kept s0 (State.scrubFullPass s d) := by
  unfold State.scrubFullPass
  repeat (first | with_reducible assumption | intro _ | with_reducible apply setFld_kept | with_reducible apply kept_ite | split | dsimp only | with_reducible apply kept_ite | split | dsimp only)

theorem injectCopy_kept {s0 : State} (s : State) (r : Reg) (f : FieldSpec) (hk : Kept s0 s) : Kept s0 (s.injectCopy r f) := by
  unfold State.injectCopy
  have h := fresh_kept s hk
  generalize s.fresh = p at h ⊢
  obtain ⟨v, t⟩ := p
  exact kept_copies h

theorem faultInject_kept {s0 s t : State} {w2 : Nat} (hk : Kept s0 s) (e : s.faultInject w2 = some t) : Kept s0 t := by
  unfold State.faultInject at e
  dsimp only at e
  split at e
  · split at e
    · split at e
      · cases e; exact injectCopy_kept _ _ _ hk
      · cases e
    · cases e
  · split at e
    · split at e
      · cases e; exact relayCheck_kept _ (kept_foldl hk (fun t _ ht => crcError_kept _ _ _ _ ht))
      · cases e
    · cases e
  · split at e
    · split at e
      · cases e; exact updBank_kept hk rfl
      · cases e
    · cases e
  · split at e
    · cases e; exact detectionFails_kept _ _ _ _ _ (fresh_kept _ hk)
    · cases e
  · cases e

end Sys2Proof.Laws
end

