-- ==== Sys2Proof/Laws/KeptSecurity.lean ====
section
/-! SUPPORT. What the operations of Machine/Security.lean keep (see Kept.lean). -/
namespace Sys2Proof.Laws
open Sys2Proof Sys2Proof.Machine

theorem hatchEvent_kept {s0 : State} (s : State) (what : Nat) (hk : Kept s0 s) : Kept s0 (State.hatchEvent s what) := by
  unfold State.hatchEvent
  repeat (first | with_reducible assumption | intro _ | with_reducible apply publish_kept | with_reducible apply kept_ite | split | dsimp only | with_reducible apply kept_ite | split | dsimp only)

theorem hatchState_kept {s0 : State} (s : State) (v : Nat) (hk : Kept s0 s) : Kept s0 (State.hatchState s v) := by
  unfold State.hatchState
  repeat (first | with_reducible assumption | intro _ | with_reducible apply setFld_kept | with_reducible apply kept_ite | split | dsimp only | with_reducible apply kept_ite | split | dsimp only)

theorem challengeNow_kept {s0 : State} (s : State) (hk : Kept s0 s) : Kept s0 (State.challengeNow s) := by
  unfold State.challengeNow
  repeat (first | with_reducible assumption | intro _ | with_reducible apply updSec_kept | with_reducible apply hatchState_kept | with_reducible apply kept_ite | split | dsimp only | with_reducible apply kept_mk | with_reducible apply kept_ite | split | dsimp only | with_reducible apply kept_resp | with_reducible apply kept_free)

theorem tokenRefused_kept {s0 : State} (s : State) (hk : Kept s0 s) : Kept s0 (State.tokenRefused s) := by
  unfold State.tokenRefused
  repeat (first | with_reducible assumption | intro _ | with_reducible apply setFld_kept | with_reducible apply raise_kept | with_reducible apply hatchEvent_kept | with_reducible apply kept_ite | split | dsimp only | with_reducible apply kept_ite | split | dsimp only)

theorem unlock_kept {s0 : State} (s : State) (t : List Byte) (hk : Kept s0 s) : Kept s0 (State.unlock s t) := by
  unfold State.unlock
  repeat (first | with_reducible assumption | intro _ | with_reducible apply updSec_kept | with_reducible apply hatchState_kept | with_reducible apply tokenRefused_kept | with_reducible apply kept_ite | split | dsimp only | with_reducible apply kept_mk | with_reducible apply kept_ite | split | dsimp only | with_reducible apply kept_resp)

theorem unbindOwner_kept {s0 : State} (s : State) (hk : Kept s0 s) : Kept s0 (State.unbindOwner s) := by
  unfold State.unbindOwner
  repeat (first | with_reducible assumption | intro _ | with_reducible apply setFld_kept | with_reducible apply kept_foldl | with_reducible apply kept_foldl_snd | with_reducible apply kept_foldl_fst | with_reducible apply kept_ite | split | dsimp only | with_reducible apply kept_ite | split | dsimp only)

theorem hatchOpens_kept {s0 : State} (s : State) (hk : Kept s0 s) : Kept s0 (State.hatchOpens s) := by
  unfold State.hatchOpens
  repeat (first | with_reducible assumption | intro _ | with_reducible apply setFld_kept | with_reducible apply raise_kept | with_reducible apply emptyOwner_kept | with_reducible apply updSec_kept | with_reducible apply hatchEvent_kept | with_reducible apply unbindOwner_kept | with_reducible apply kept_ite | split | dsimp only | with_reducible apply kept_mk | with_reducible apply kept_ite | split | dsimp only)

theorem bypass_kept {s0 : State} (s : State) (tdi : Bool) (hk : Kept s0 s) : Kept s0 (State.bypass s tdi) := by
  unfold State.bypass
  repeat (first | with_reducible assumption | intro _ | with_reducible apply kept_ite | split | dsimp only | with_reducible apply kept_mk | with_reducible apply kept_ite | split | dsimp only | with_reducible apply kept_resp)

theorem boardTest_kept {s0 : State} (s : State) (hk : Kept s0 s) : Kept s0 s.boardTest := by
  unfold State.boardTest
  split
  · exact bypass_kept _ _ hk
  · have h := fresh_kept s hk
    generalize s.fresh = p at h ⊢
    obtain ⟨v, t⟩ := p
    exact kept_resp h

end Sys2Proof.Laws
end

