-- ==== Sys2Proof/Laws/KeptSmBus.lean ====
section
/-! SUPPORT. What the operations of Machine/SmBus.lean keep (see Kept.lean). -/
namespace Sys2Proof.Laws
open Sys2Proof Sys2Proof.Machine

theorem smbAnswer_kept {s0 : State} (s : State) (bs : List Byte) (hk : Kept s0 s) : Kept s0 (State.smbAnswer s bs) := by
  unfold State.smbAnswer
  repeat (first | with_reducible assumption | intro _ | with_reducible apply kept_ite | split | dsimp only | with_reducible apply kept_mk | with_reducible apply kept_ite | split | dsimp only | with_reducible apply kept_resp)

theorem smbStatus_kept {s0 : State} (s : State) (hk : Kept s0 s) : Kept s0 (State.smbStatus s) := by
  unfold State.smbStatus
  repeat (first | with_reducible assumption | intro _ | with_reducible apply smbAnswer_kept | with_reducible apply kept_ite | split | dsimp only | with_reducible apply kept_ite | split | dsimp only)

theorem smbTemps_kept {s0 : State} (s : State) (hk : Kept s0 s) : Kept s0 (State.smbTemps s) := by
  unfold State.smbTemps
  repeat (first | with_reducible assumption | intro _ | with_reducible apply smbAnswer_kept | with_reducible apply kept_ite | split | dsimp only | with_reducible apply kept_ite | split | dsimp only)

theorem smbPower_kept {s0 : State} (s : State) (hk : Kept s0 s) : Kept s0 (State.smbPower s) := by
  unfold State.smbPower
  repeat (first | with_reducible assumption | intro _ | with_reducible apply smbAnswer_kept | with_reducible apply kept_ite | split | dsimp only | with_reducible apply kept_ite | split | dsimp only)

theorem smbCase_kept {s0 : State} (s : State) (hk : Kept s0 s) : Kept s0 (State.smbCase s) := by
  unfold State.smbCase
  repeat (first | with_reducible assumption | intro _ | with_reducible apply smbAnswer_kept | with_reducible apply kept_ite | split | dsimp only | with_reducible apply kept_ite | split | dsimp only)

theorem smbAvail_kept {s0 : State} (s : State) (hk : Kept s0 s) : Kept s0 (State.smbAvail s) := by
  unfold State.smbAvail
  repeat (first | with_reducible assumption | intro _ | with_reducible apply noteAvail_kept | with_reducible apply smbAnswer_kept | with_reducible apply kept_ite | split | dsimp only | with_reducible apply kept_ite | split | dsimp only)

theorem smbSerial_kept {s0 : State} (s : State) (hk : Kept s0 s) : Kept s0 (State.smbSerial s) := by
  unfold State.smbSerial
  repeat (first | with_reducible assumption | intro _ | with_reducible apply smbAnswer_kept | with_reducible apply kept_ite | split | dsimp only | with_reducible apply kept_ite | split | dsimp only)

theorem smbRails_kept {s0 : State} (s : State) (hk : Kept s0 s) : Kept s0 (State.smbRails s) := by
  unfold State.smbRails
  repeat (first | with_reducible assumption | intro _ | with_reducible apply smbAnswer_kept | with_reducible apply kept_ite | split | dsimp only | with_reducible apply kept_ite | split | dsimp only)

theorem smbAlert_kept {s0 : State} (s : State) (hk : Kept s0 s) : Kept s0 (State.smbAlert s) := by
  unfold State.smbAlert
  repeat (first | with_reducible assumption | intro _ | with_reducible apply updPower_kept | with_reducible apply kept_ite | split | dsimp only | with_reducible apply kept_mk | with_reducible apply kept_ite | split | dsimp only | with_reducible apply kept_resp)

theorem telemetry_kept {s0 : State} (s : State) (temps powers : Vector (BitVec 12) 8) (rails : Vector (BitVec 16) 12) (out : BitVec 12) (hk : Kept s0 s) : Kept s0 (State.telemetry s temps powers rails out) := by
  unfold State.telemetry
  repeat (first | with_reducible assumption | intro _ | with_reducible apply wr_kept | with_reducible apply setFld_kept | with_reducible apply setFlag_kept | with_reducible apply publish_kept | with_reducible apply updPower_kept | with_reducible apply noteAvail_kept | with_reducible apply kept_foldl | with_reducible apply kept_foldl_snd | with_reducible apply kept_foldl_fst | with_reducible apply kept_ite | split | dsimp only | with_reducible apply kept_mk | with_reducible apply kept_ite | split | dsimp only)

end Sys2Proof.Laws
end

