-- ==== Sys2Proof/Laws/KeptTasks.lean ====
section
/-! SUPPORT. What the operations of Machine/Tasks.lean keep (see Kept.lean). -/
namespace Sys2Proof.Laws
open Sys2Proof Sys2Proof.Machine

theorem wakeUp_kept {s0 : State} (s : State) (p : Option Payload) (hk : Kept s0 s) : Kept s0 (State.wakeUp s p) := by
  unfold State.wakeUp
  repeat (first | with_reducible assumption | intro _ | with_reducible apply setFld_kept | with_reducible apply raise_kept | with_reducible apply fresh_kept | with_reducible apply kept_ite | split | dsimp only | with_reducible apply kept_mk | with_reducible apply kept_ite | split | dsimp only | with_reducible apply kept_free)

theorem slotTask_kept {s0 : State} (s : State) (i : ConsId) (t : TxnId) (hk : Kept s0 s) : Kept s0 (State.slotTask s i t) := by
  unfold State.slotTask
  repeat (first | with_reducible assumption | intro _ | with_reducible apply raise_kept | with_reducible apply slotTriggered_kept | with_reducible apply kept_ite | split | dsimp only | with_reducible apply kept_mk | with_reducible apply kept_ite | split | dsimp only)

theorem startTask_kept {s0 : State} (s : State) (i : ConsId) (p : Option Payload) (hk : Kept s0 s) : Kept s0 (State.startTask s i p) := by
  unfold State.startTask
  repeat (first | with_reducible assumption | intro _ | with_reducible apply timerStart_kept | with_reducible apply evOutDrive_kept | with_reducible apply activateKeeper_kept | with_reducible apply requestVector_kept | with_reducible apply wakeUp_kept | with_reducible apply slotTask_kept | with_reducible apply kept_ite | split | dsimp only | with_reducible apply kept_ite | split | dsimp only)

theorem keepPayload_kept {s0 : State} (s : State) (i : ConsId) (p : Option Payload) (hk : Kept s0 s) : Kept s0 (State.keepPayload s i p) := by
  unfold State.keepPayload
  repeat (first | with_reducible assumption | intro _ | with_reducible apply kept_ite | split | dsimp only | with_reducible apply kept_mk | with_reducible apply kept_ite | split | dsimp only | with_reducible apply kept_fabric)

theorem taskEvent_kept {s0 : State} (s : State) (i : ConsId) (ch : BeaconCh) (extra : Nat) (hk : Kept s0 s) : Kept s0 (State.taskEvent s i ch extra) := by
  unfold State.taskEvent
  repeat (first | with_reducible assumption | intro _ | with_reducible apply acknowledge_kept | with_reducible apply mergeAt_kept | with_reducible apply overrun_kept | with_reducible apply startTask_kept | with_reducible apply keepPayload_kept | with_reducible apply kept_ite | split | dsimp only | with_reducible apply kept_mk | with_reducible apply kept_ite | split | dsimp only)

theorem startPending_kept {s0 : State} (s : State) (i : ConsId) (hk : Kept s0 s) : Kept s0 (State.startPending s i) := by
  unfold State.startPending
  repeat (first | with_reducible assumption | intro _ | with_reducible apply setFld_kept | with_reducible apply startTask_kept | with_reducible apply kept_ite | split | dsimp only | with_reducible apply kept_ite | split | dsimp only)

theorem deliveryEnds_kept {s0 : State} (s : State) (ch : BeaconCh) (hk : Kept s0 s) : Kept s0 (State.deliveryEnds s ch) := by
  unfold State.deliveryEnds
  repeat (first | with_reducible assumption | intro _ | with_reducible apply endDelivery_kept | with_reducible apply kept_ite | split | dsimp only | with_reducible apply kept_mk | with_reducible apply kept_ite | split | dsimp only)

theorem legStuck_kept {s0 : State} (s : State) (ch : BeaconCh) (hk : Kept s0 s) : Kept s0 (State.legStuck s ch) := by
  unfold State.legStuck
  repeat (first | with_reducible assumption | intro _ | with_reducible apply legTimeout_kept | with_reducible apply kept_ite | split | dsimp only | with_reducible apply kept_mk | with_reducible apply kept_ite | split | dsimp only)

theorem timerCatchUp_kept {s0 : State} (s : State) (t : TimerId) (hk : Kept s0 s) : Kept s0 (State.timerCatchUp s t) := by
  unfold State.timerCatchUp
  repeat (first | with_reducible assumption | intro _ | with_reducible apply reachTime_kept | with_reducible apply timerPublish_kept | with_reducible apply kept_ite | split | dsimp only | with_reducible apply kept_mk | with_reducible apply kept_ite | split | dsimp only)

theorem timerExpires_kept {s0 : State} (s : State) (t : TimerId) (hk : Kept s0 s) : Kept s0 (State.timerExpires s t) := by
  unfold State.timerExpires
  repeat (first | with_reducible assumption | intro _ | with_reducible apply timerInstant_kept | with_reducible apply timerCatchUp_kept | with_reducible apply kept_ite | split | dsimp only | with_reducible apply kept_mk | with_reducible apply kept_ite | split | dsimp only)

theorem pulseEnds_kept {s0 : State} (s : State) (j : EvOutId) (hk : Kept s0 s) : Kept s0 (State.pulseEnds s j) := by
  unfold State.pulseEnds
  repeat (first | with_reducible assumption | intro _ | with_reducible apply reachTime_kept | with_reducible apply evOutEnd_kept | with_reducible apply startPending_kept | with_reducible apply kept_ite | split | dsimp only | with_reducible apply kept_mk | with_reducible apply kept_ite | split | dsimp only)

end Sys2Proof.Laws
end

