-- ==== Sys2Proof/Laws/KeptWrites.lean ====
section
/-! SUPPORT. What the operations of Machine/Writes.lean keep (see Kept.lean). -/
namespace Sys2Proof.Laws
open Sys2Proof Sys2Proof.Machine

theorem regWrite_kept {s0 : State} (s : State) (f : Func) (r : Reg) (v : Word) (hk : Kept s0 s) : Kept s0 (State.regWrite s f r v) := by
  unfold State.regWrite
  repeat (first | with_reducible assumption | intro _ | with_reducible apply bar0Write_kept | with_reducible apply kept_ite | split | dsimp only | with_reducible apply kept_ite | split | dsimp only)

theorem fieldWrite_kept {s0 : State} (s : State) (f : Func) (r : Reg) (x : FieldSpec) (v : Nat) (hk : Kept s0 s) : Kept s0 (State.fieldWrite s f r x v) := by
  unfold State.fieldWrite
  repeat (first | with_reducible assumption | intro _ | with_reducible apply windowWrite_kept | with_reducible apply kept_ite | split | dsimp only | with_reducible apply kept_mk | with_reducible apply kept_ite | split | dsimp only | with_reducible apply kept_resp)

theorem upset_kept {s0 : State} (s : State) (u : Upset) (hk : Kept s0 s) : Kept s0 (s.upset u) := by
  cases u <;> unfold State.upset <;> dsimp only <;>
    repeat (first | with_reducible assumption | split | exact kept_copies hk | exact kept_badPar (wr_kept hk _ _) | dsimp only)

theorem sweep_kept {s0 : State} (s : State) (us : List Upset) (hk : Kept s0 s) : Kept s0 (State.sweep s us) := by
  unfold State.sweep
  repeat (first | with_reducible assumption | intro _ | with_reducible apply checkReg_kept | with_reducible apply upset_kept | with_reducible apply kept_foldl | with_reducible apply kept_foldl_snd | with_reducible apply kept_foldl_fst | with_reducible apply kept_ite | split | dsimp only | with_reducible apply kept_ite | split | dsimp only)

end Sys2Proof.Laws
end

