-- ==== Sys2Proof/Laws/KeptIdle.lean ====
section
/-! SUPPORT. What the operations of Machine/Idle.lean keep (see Kept.lean). -/
namespace Sys2Proof.Laws
open Sys2Proof Sys2Proof.Machine

theorem idle_kept {s0 : State} (s : State) (hk : Kept s0 s) : Kept s0 (State.idle s) := by
  unfold State.idle
  repeat (first | with_reducible assumption | intro _ | with_reducible apply reachTime_kept | with_reducible apply pipeNow_kept | with_reducible apply kept_foldl | with_reducible apply kept_foldl_snd | with_reducible apply kept_foldl_fst | with_reducible apply kept_ite | split | dsimp only | with_reducible apply kept_ite | split | dsimp only)

end Sys2Proof.Laws
end

