-- ==== Sys2Proof/Laws/PerInstr.lean ====
section
/-! SUPPORT. Statements made for each command as syntax. No family is listed in LAWS.json: no row of the table gives a command bits, so there is no encoding to state anything about. -/
end

