-- ==== Sys2Proof/Tests/Slice0.lean ====
section
/-! SUPPORT. The model's own tests: what WellFormed refuses, states that meet the hypotheses of the statements in Obligations.lean, and single steps whose results are the spec's own numbers. -/
set_option Elab.async false
namespace Sys2Proof.Tests
open Sys2Proof Sys2Proof.Machine

/-! ### WellFormed: a command that each check refuses -/

def hdr : DescHdr := ⟨0, true, false, false, false, 0, 0, 0x1234⟩
def obs : StartObs :=
  { steps := Vector.replicate 15 .passes, dies := 0, channels := 0, lookOff := 0, links := 0, ports := 0, merid := 0, half := false, density := 2, mixed := false, bootVer := 0x10203, bootSec := 3
    bad0 := false, bad1 := false, linkGen := Vector.replicate 2 5, linkWidth := Vector.replicate 2 16, storeBad := 0, smbAddr := 0 }
def anyReq (addr : Nat) : MemReq := ⟨1, .play, addr, false, none⟩

theorem test_lane_in_link : Instr.wellFormed (.flitCrcError 0 false 68) = false ∧ Instr.wellFormed (.flitCrcError 0 false 67) = true := by decide +kernel
theorem test_table_range : Instr.wellFormed (.loadTable hdr 0 0 0 16384 1) = false ∧ Instr.wellFormed (.loadTable hdr 0 0 0 0 0) = false ∧ Instr.wellFormed (.loadTable hdr 0 0 0 16383 1) = true := by decide +kernel
theorem test_entry_range : Instr.wellFormed (.entryRead 0 16384 .clean .clean) = false ∧ Instr.wellFormed (.entryRead 0 16383 .clean .clean) = true := by decide +kernel
theorem test_attach_asks : Instr.wellFormed (.streamAttach hdr 0 0 0 0 0 0 0 0 0 0) = false ∧ Instr.wellFormed (.tndAttachWrite 0 0 0) = false ∧ Instr.wellFormed (.tndDetachWrite 0 0 1) = false := by decide +kernel
theorem test_band_range : Instr.wellFormed (.bandFound 0 0 64) = false ∧ Instr.wellFormed (.bandFound 0 0 63) = true := by decide +kernel
theorem test_stamp_range : Instr.wellFormed (.syncEdge (2 ^ 64)) = false ∧ Instr.wellFormed (.transitEdge 0 false (2 ^ 64) 0) = false ∧ Instr.wellFormed (.transitEdge 0 false 0 (2 ^ 64)) = false := by decide +kernel
theorem test_echo_drift : Instr.wellFormed (.measureEcho 0 0 9) = false ∧ Instr.wellFormed (.measureEcho 0 0 (-8)) = true := by decide +kernel
theorem test_residual_range : Instr.wellFormed (.twinTrim 0 128) = false ∧ Instr.wellFormed (.twinTrim 0 (-129)) = false ∧ Instr.wellFormed (.twinTrim 0 (-128)) = true := by decide +kernel
theorem test_runs_ask : Instr.wellFormed (.engRunStart 0 0 0 0) = false ∧ Instr.wellFormed (.engRunAbort 0 0 0 (ENG_CTRL.RUN.put 0 1)) = false := by decide +kernel
theorem test_timers_ask : Instr.wellFormed (.timerStartWrite 0 0 0) = false ∧ Instr.wellFormed (.timerStopWrite 0 0 0) = false := by decide +kernel
theorem test_store_word_range : Instr.wellFormed (.storeScrubRead (.keeper 0) (storeWords (.keeper 0)) .clean) = false ∧ Instr.wellFormed (.storeScrubRead (.keeper 0) 0 .clean) = true := by decide +kernel
theorem test_request_address : Instr.wellFormed (.memRequestArrive 0 (anyReq 32)) = false ∧ Instr.wellFormed (.memRequestArrive 0 (anyReq (2 ^ 40))) = false ∧ Instr.wellFormed (.memRequestArrive 0 (anyReq 64)) = true
    ∧ Instr.wellFormed (.edcFail 0 0 (2 ^ 40) false) = false := by decide +kernel
theorem test_mooring_asks : Instr.wellFormed (.migStartWrite 0 0 0) = false ∧ Instr.wellFormed (.freqGo 0 0 0) = false := by decide +kernel
theorem test_plate_word_range : Instr.wellFormed (.pbAccess 0 0 (.read (bankWords 0)) .none .hostDma .clean) = false ∧ Instr.wellFormed (.pbAccess 0 0 .none (.write (bankWords 0) 0 0) .hostDma .clean) = false
    ∧ Instr.wellFormed (.pbAccess 0 0 .none (.add64 (bankWords 0) 0) .hostDma .clean) = false := by decide +kernel
theorem test_segment_fields : Instr.wellFormed (.loadSeg hdr 1 0 0 64) = false ∧ Instr.wellFormed (.loadSeg hdr 0 0 0 0) = false ∧ Instr.wellFormed (.loadSeg hdr 0 0 3 64) = false ∧ Instr.wellFormed (.readSeg hdr 0 0 2 64) = false
    ∧ Instr.wellFormed (.loadSeg hdr 64 64 2 64) = true := by decide +kernel
theorem test_image_fields : Instr.wellFormed (.loadImage hdr 0 (2 ^ 32) 0) = false ∧ Instr.wellFormed (.loadImage hdr 0 0 3) = false := by decide +kernel
theorem test_start_delay : Instr.wellFormed (.start hdr 1 (Vector.replicate 16 0) (2 ^ 32)) = false ∧ Instr.wellFormed (.start hdr 1 (Vector.replicate 16 0) 0) = true := by decide +kernel
theorem test_test_operands : Instr.wellFormed (.testPbPass hdr 0 6) = false ∧ Instr.wellFormed (.testFaultInject hdr 4) = false := by decide +kernel
theorem test_set_items : Instr.wellFormed (.setItems hdr []) = false ∧ Instr.wellFormed (.setItems hdr (List.replicate 7 ⟨0, false, false, 0⟩)) = false ∧ Instr.wellFormed (.setItems hdr [⟨2, false, false, 0⟩]) = false
    ∧ Instr.wellFormed (.setItems hdr [⟨4, false, false, 0⟩]) = true := by decide +kernel
theorem test_commit_ugc : Instr.wellFormed (.commitAtUgc hdr (2 ^ 64)) = false := by decide +kernel
theorem test_ring_fields : Instr.wellFormed (.ringSetup hdr true 1 0 17 0 0 0 0 0) = false ∧ Instr.wellFormed (.ringSetup hdr true 1 0 6 0 0 0 0 1) = false ∧ Instr.wellFormed (.ringTeardown hdr true 0) = false
    ∧ Instr.wellFormed (.ringSetup hdr true 1 0 6 0 0 0 0 0x1000) = true ∧ Instr.wellFormed (.watchdog hdr 0 0 3) = false := by decide +kernel
theorem test_link_lanes : Instr.wellFormed (.hostLinkUp 0 5 3) = false ∧ Instr.wellFormed (.hostLinkUp 0 5 16) = true ∧ Instr.wellFormed (.startBegin { obs with linkWidth := #v[3, 0] }) = false
    ∧ Instr.wellFormed (.laidupExitDone { obs with linkWidth := #v[16, 5] }) = false ∧ Instr.wellFormed (.startBegin obs) = true := by decide +kernel
theorem test_register_offsets : Instr.wellFormed (.registerWrite 0 2 0 15) = false ∧ Instr.wellFormed (.maskedWrite 0 (2 ^ 25) 0) = false ∧ Instr.wellFormed (.rcFieldRead (.func 0) 1) = false
    ∧ Instr.wellFormed (.loRegisterRead (.func 0) 3) = false ∧ Instr.wellFormed (.registerWrite 0 4 0 15) = true := by decide +kernel
theorem test_upsets : Instr.wellFormed (.voteSweep [.copy 0 32 0 0]) = false ∧ Instr.wellFormed (.voteSweep [.copy 0 31 0 2]) = false ∧ Instr.wellFormed (.voteSweep [.bit 1 0]) = false ∧ Instr.wellFormed (.voteSweep []) = true := by decide +kernel
theorem test_enables_ask : Instr.wellFormed (.dring0EnWrite 0 0) = false ∧ Instr.wellFormed (.rring0EnWrite 0 0) = false ∧ Instr.wellFormed (.clearAltWrite 0 0) = false := by decide +kernel

/-! ### States that meet the statements' hypotheses -/

/-- A part in LIT with its dies, links, loops and rings in service. -/
def lit : State :=
  let s : State := { State.reset with
    domains := Vector.replicate 76 .on
    clock := { State.reset.clock with runs := Vector.replicate 4 true, now := 100 * qMs, gran := Vector.replicate 4 1000 }
    power := { State.reset.power with epochOk := true, negotiated := true, smbUp := true, resetN := true, dac := Vector.replicate 4 true, litOnce := Vector.replicate 4 true }
    host := { State.reset.host with
      mem := [⟨0x50000, 5⟩]
      drings := (State.reset.host.drings.set 0 ⟨true, 0, 0x10000, 6, 0, 0, 0, [], none, []⟩).set 1 ⟨true, 1, 0x20000, 6, 2, 3, 3, [], none, []⟩
      rrings := (State.reset.host.rrings.set 0 ⟨true, 0, 0x30000, 6, 0, 1, 0, 0, 0, [], 0, none⟩).set 2 ⟨true, 1, 0x40000, 6, 1, 1, 0, 0, 0, [], 0, none⟩ } }
  let s := (((s.setFld (.ext .pwrState) PWR_STATE.STATE 3).raise (.ext .pwrState) PWR_STATE.LIT_READY).setFld (.glob .gStart) START.STEP 15).wr (.glob (.featAccept 0)) 0x1FF
  let s := ((s.setFld (.hstLink 0) HST_LINK.GEN 5).setFld (.hstLink 1) HST_LINK.GEN 5).wr (.glob .dbLo) 0x50000
  ((s.setLoop 0 0 3).setLoop 0 1 3 |>.setLoop 1 0 3).setLoop 1 1 3
/-- A register holding one field's value. -/
def put (s : State) (r : Reg) (f : FieldSpec) (v : Nat) : State := s.setFld r f v
/-- A die that is lost. -/
def lose (x : Die) (s : State) : State := { s with dieLost := s.dieLost.set x true }

theorem test_lit_is_sound : lit.Ordinary ∧ lit.Canonical ∧ lit.pwr = 3 ∧ lit.leader = 0 := by decide +kernel

/-- Its DOME_A has trained memory: four ports of 3 GB in use, and a spare one. -/
def built : State := { lit.setFld (.mpState 0 0) MP_STATE.DENSITY 2 with moor := lit.moor.map (fun m => { m with trained := 0x3F }) }

/-- An entry word that has these fields. -/
def fields (es : List (Nat × Nat)) : QWord := BitVec.ofNat 64 (es.foldl (fun a e => a + e.1 * 2 ^ e.2) 0)
/-- An entry of LEN_G `len` and REPEAT `n`, dark (format 0x3F) unless `fmt` says otherwise, that goes on at `next`. -/
def entryOf (fmt len n next slot close : Nat) : EntryWords := ⟨fields [(fmt, 40)], fields [(len, 0), (n, 32)], fields [(next, 0)], fields [(slot, 0)], 0, 0, 0, fields [(close, 61)]⟩
/-- Entry 0 has a BOUNDARY slot for channel 5 and a marker pulse; entry 2 repeats for ever; entry 3 ends. -/
def table : Table := ⟨5, [(0, entryOf 0x3F 64 2 1 (5 + 2 * 256 + 2 ^ 26) 0), (1, entryOf 0x3F 100 1 2 0 0), (2, entryOf 0x3F 200 0 3 0 0), (3, entryOf 0x3F 50 1 0 0 1), (4, entryOf 0 50 1 9 0 0)]⟩
/-- CH0 plays entry 0 of that table, at its first iteration. -/
def playing (f : Chan → Chan) : State :=
  lit.updChan 0 (fun x => f { x with st := .playing, slots := Vector.replicate 2 table, hasActive := true, entry := 0, startGran := 990 })

/-! ### Registers, rings, starts and power (RequestsAreDecoded to LossesOfDies) -/

/-- The outcome is a next state. -/
def goes (o : Host.Outcome State Fault Refusal) : Bool := match o with | .next _ => true | _ => false
theorem meets_StateStaysCanonical : lit.Canonical ∧ goes (exec (.timerExpire 0) lit) = true ∧ goes (step lit) = true := by decide +kernel
theorem meets_RequestsAreDecoded : lit.Ordinary ∧ lit.bar0Up 0 = true ∧ (Reg.ofAddr? (Reg.merSyncComp 0).addr = some (.merSyncComp 0)) ∧ (Reg.merSyncComp 0).addr % 4 = 0 ∧ (Reg.merSyncComp 0).addr < 0x1000000
    ∧ (Reg.ofAddr? 0x80200C = none ∧ reservedAddr 0x80200C = true) ∧ (Reg.ofAddr? 0xFFFFFC = none ∧ reservedAddr 0xFFFFFC = false ∧ holdingReg 0xFFFFFC = none) := by decide +kernel
theorem meets_RegistersAreWritten : lit.Ordinary ∧ lit.bar0Up 0 = true ∧ lit.claimed (.glob .serialLo) = false ∧ (∀ g ∈ (Reg.glob .serialLo).fields, g.access = .ro ∨ g.access = .rc)
    ∧ lit.writeReaches 0 (.merSyncComp 0) = true ∧ lit.writeReaches 0 (.lookThr 3) = true ∧ lit.writeReaches 1 (.winOpen 15 3) = true ∧ (Reg.glob .serialLo).addr < 0x800000 ∧ (5 : Word) >>> 16 = 0 := by decide +kernel
/-- CHAR_PLAYED of CH2 with its HI half latched for DOME_A's function. -/
def latched : State := lit.latch (.func 0) (.charPlayedHi 2) 7
theorem meets_ReadsClearAndLatch : (lit.Ordinary ∧ lit.canRead (.func 0) = true ∧ lit.halted = false ∧ lit.copies = [] ∧ lit.badPar = [])
    ∧ (lit.windowUp (Reg.charStatus 3).addr = true ∧ lit.upToNow (.charStatus 3) = lit ∧ (Reg.charStatus 3).rcMask ≠ 0 ∧ (Reg.charStatus 3).latches = [] ∧ lit.latched (.func 0) (.charStatus 3) = none)
    ∧ (lit.windowUp (Reg.charPlayedLo 2).addr = true ∧ lit.upToNow (.charPlayedLo 2) = lit ∧ (Reg.charPlayedLo 2).latches ≠ [])
    ∧ (latched.Ordinary ∧ latched.canRead (.func 0) = true ∧ latched.windowUp (Reg.charPlayedHi 2).addr = true ∧ latched.upToNow (.charPlayedHi 2) = latched ∧ (Reg.charPlayedHi 2).rcMask = 0
      ∧ (Reg.charPlayedHi 2).latches = [] ∧ latched.latched (.func 0) (.charPlayedHi 2) = some 7) := by decide +kernel
/-- A voted field of which the three copies differ. -/
def threeCopies : State := { lit with copies := [⟨.merDpll 0, MER_DPLL.POLICY.lo, 1, 1⟩, ⟨.merDpll 0, MER_DPLL.POLICY.lo, 2, 2⟩] }
theorem meets_ThreeCopiesDiffer : MER_DPLL.POLICY ∈ (Reg.merDpll 0).fields ∧ MER_DPLL.POLICY.voted = true ∧ threeCopies.badPar = [] ∧ 2 < 2 ^ MER_DPLL.POLICY.width ∧ threeCopies.fld (.merDpll 0) MER_DPLL.POLICY = 0
    ∧ threeCopies.copies = [⟨.merDpll 0, MER_DPLL.POLICY.lo, 1, 1⟩, ⟨.merDpll 0, MER_DPLL.POLICY.lo, 2, 2⟩] ∧ threeCopies.Ordinary ∧ threeCopies.writeReaches 0 (.merDpll 0) = true
    ∧ MER_DPLL.POLICY ∈ threeCopies.taken (.merDpll 0) 0xFFFFFFFF := by decide +kernel
theorem meets_SweepsVoteAndCheck : lit.Ordinary ∧ lit.copies = [] ∧ lit.badPar = [] ∧ (MER_DPLL.POLICY ∈ (Reg.merDpll 0).fields ∧ 1 % 2 ^ MER_DPLL.POLICY.width ≠ lit.fld (.merDpll 0) MER_DPLL.POLICY)
    ∧ ((Reg.merSyncComp 0).hasParity = true ∧ ∃ g ∈ (Reg.merSyncComp 0).fields, g.access ≠ .ro ∧ g.access ≠ .rc ∧ g.lo ≤ 0 ∧ 0 < g.lo + g.width) := by decide +kernel

/-- A start that has come to ST-13 and waits for the host. -/
def atStep13 : State := { lit.setFld (.glob .gStart) START.STEP 13 |>.setFld (.ext .pwrState) PWR_STATE.STATE 2 with power := { lit.power with negotiated := false, running := true } }
def agreed : State := lit.wr (.glob (.featAccept 0)) 0x1DF
theorem meets_FeaturesAreAccepted : atStep13.Ordinary ∧ atStep13.writeReaches 0 (.glob (.featAccept 0)) = true ∧ atStep13.power.negotiated = false ∧ atStep13.halted = false ∧ atStep13.fld (.glob .gStart) START.STEP = 13
    ∧ ((1 : Word) &&& BitVec.ofNat 32 (atStep13.offer 0)).getLsbD 0 = true ∧ ((0 : Word) &&& BitVec.ofNat 32 (atStep13.offer 0)).getLsbD 0 = false ∧ atStep13.power.epochOk = true
    ∧ ({ atStep13 with power := { atStep13.power with epochOk := false } } : State).Ordinary
    ∧ (agreed.writeReaches 0 (.glob (.featAccept 0)) = true ∧ agreed.power.negotiated = true ∧ (0x1DF : Word) &&& BitVec.ofNat 32 (agreed.offer 0) = agreed.rd (.glob (.featAccept 0))
      ∧ (1 : Word) &&& BitVec.ofNat 32 (agreed.offer 0) ≠ agreed.rd (.glob (.featAccept 0))) := by decide +kernel

def ring0 (report : Bool) (log2 : Nat) : Word := if report then RRING0_CFG.EN.put (RRING0_CFG.SIZE_LOG2.put 0 log2) 1 else DRING0_CFG.EN.put (DRING0_CFG.SIZE_LOG2.put 0 log2) 1
/-- Ring 0 enabled, of the dispatch rings and of the report rings. -/
def ring0On : State := (lit.raise (.glob .dring0Cfg) DRING0_CFG.EN).raise (.glob .rring0Cfg) RRING0_CFG.EN
theorem meets_RingZeroIsSetUp : (lit.Ordinary ∧ lit.writeReaches 0 (.glob .dring0Cfg) = true ∧ lit.isSet (.glob .dring0Cfg) DRING0_CFG.EN = false ∧ lit.doorbell ≠ 0 ∧ lit.host.rrings[(0 : RingId)].up = true)
    ∧ (∀ n ∈ [3, 4, 16, 17], DRING0_CFG.EN.get (ring0 false n) = 1 ∧ DRING0_CFG.SIZE_LOG2.get (ring0 false n) = n ∧ DRING0_CFG.DEF_RRING.get (ring0 false n) = 0)
    ∧ ringAligned (lit.rd64 (.glob .dring0Lo) (.glob .dring0Hi)) 4 64 = true ∧ ringAligned (lit.rd64 (.glob .dring0Lo) (.glob .dring0Hi)) 16 64 = true
    ∧ (ring0On.Ordinary ∧ ring0On.writeReaches 0 (.glob .dring0Cfg) = true ∧ ring0On.isSet (.glob .dring0Cfg) DRING0_CFG.EN = true ∧ ring0On.linkUp ring0On.host.drings[(0 : RingId)].func = true ∧ DRING0_CFG.EN.get (0 : Word) = 0
      ∧ ring0On.host.drings[(0 : RingId)].began = none ∧ ring0On.ringStalled 0 = false ∧ ring0On.host.drings[(0 : RingId)].prod = ring0On.host.drings[(0 : RingId)].cons)
    ∧ (ring0On.updDring 0 (fun x => { x with prod := 1 })).host.drings[(0 : RingId)].prod ≠ (ring0On.updDring 0 (fun x => { x with prod := 1 })).host.drings[(0 : RingId)].cons
    ∧ (lit.writeReaches 0 (.glob .rring0Cfg) = true ∧ lit.isSet (.glob .rring0Cfg) RRING0_CFG.EN = false ∧ ∀ n ∈ [3, 4, 16, 17], RRING0_CFG.EN.get (ring0 true n) = 1 ∧ RRING0_CFG.SIZE_LOG2.get (ring0 true n) = n)
    ∧ ringAligned (lit.rd64 (.glob .rring0Lo) (.glob .rring0Hi)) 4 32 = true
    ∧ (ring0On.writeReaches 0 (.glob .rring0Cfg) = true ∧ ring0On.isSet (.glob .rring0Cfg) RRING0_CFG.EN = true ∧ ring0On.linkUp ring0On.host.rrings[(0 : RingId)].func = true ∧ ring0On.isDefault 0 = true
      ∧ (ring0On.updDring 0 (fun x => { x with defReport := 2 })).isDefault 0 = false) := by decide +kernel

theorem meets_StartsRun : (lit.pwr ≠ 0) ∧ (State.reset.pwr = 0 ∧ State.reset.power.running = false ∧ State.reset.halted = false) := by decide +kernel
theorem meets_ResetsAreFull : lit.Ordinary ∧ lit.writeReaches 0 (.ext .pwrCtrl) = true := by decide +kernel
/-- The part in SHUTTERED, and halted. -/
def shuttered : State := lit.setFld (.ext .pwrState) PWR_STATE.STATE 2
def haltedPart : State := shuttered.raise (.ext .pwrState) PWR_STATE.HALTED
def openTxn : State := { shuttered with host := { shuttered.host with txns := shuttered.host.txns.set 0 { Txn.reset with phase := .open_ } } }
def withStream (s : State) : State := (s.raise (.tndCtrl 0) TND_CTRL.ATTACH).updStream 0 (fun x => { x with st := .flowing })
theorem meets_PowerRequests : (haltedPart.Ordinary ∧ haltedPart.writeReaches 0 (.ext .pwrCtrl) = true ∧ haltedPart.halted = true)
    ∧ (shuttered.Ordinary ∧ shuttered.writeReaches 0 (.ext .pwrCtrl) = true ∧ shuttered.halted = false ∧ shuttered.pwr = 2 ∧ shuttered.litReady = true ∧ (shuttered.setFld (.ext .pwrState) PWR_STATE.LIT_READY 0).litReady = false)
    ∧ (lit.Ordinary ∧ lit.writeReaches 0 (.ext .pwrCtrl) = true ∧ lit.halted = false ∧ lit.pwr = 3)
    ∧ ((playing id).Ordinary ∧ (playing id).pwr ≠ 1 ∧ (playing id).chans[(0 : ChanId)].st.busy = true)
    ∧ ((withStream shuttered).Ordinary ∧ (withStream shuttered).attached 0 = true ∧ (∀ c : ChanId, (withStream shuttered).chans[c].st.busy = false))
    ∧ (openTxn.Ordinary ∧ openTxn.liveTxns ≠ [] ∧ (∀ st : StreamId, openTxn.attached st = false) ∧ openTxn.writeReaches 0 (.ext .pwrCtrl) = true)
    ∧ (2 ≤ shuttered.pwr ∧ (∀ c : ChanId, shuttered.chans[c].st.busy = false) ∧ (∀ st : StreamId, shuttered.attached st = false) ∧ shuttered.liveTxns = []) := by decide +kernel

/-- The part leaving LAID-UP. -/
def exiting : State := (lit.setFld (.ext .pwrState) PWR_STATE.STATE 1).raise (.ext .pwrState) PWR_STATE.EXITING
def returning : State := (lose (Die.ofLamp 2) lit).raise (.ext .pwrCtrl) PWR_CTRL.READMIT
theorem meets_ExitsAndReadmissions : lit.isSet (.ext .pwrState) PWR_STATE.EXITING = false ∧ exiting.isSet (.ext .pwrState) PWR_STATE.EXITING = true ∧ exitFails { obs with steps := obs.steps.set 4 .fails } = true
    ∧ exitFails obs = false ∧ exiting.power.laidUps < 65536 ∧ 65536 ≤ ({ exiting with power := { exiting.power with laidUps := 65536 } } : State).power.laidUps
    ∧ (returning.dieLost[Die.ofLamp 2] = true ∧ returning.isSet (.ext .pwrCtrl) PWR_CTRL.READMIT = true ∧ 2 ≤ returning.pwr ∧ returning.halted = false) ∧ lit.dieLost[Die.ofLamp 2] = false
    ∧ ({ returning with power := { returning.power with readmit := returning.power.readmit.set 2 true } } : State).power.readmit[(2 : LampId)] = true ∧ returning.power.readmit[(2 : LampId)] = false := by decide +kernel

def compacting : State := { lit with ledger := { lit.ledger with compacting := true } }
theorem meets_LedgerIsKept : (lit.Ordinary ∧ 2 ≤ lit.pwr ∧ lit.ledger.compacting = false ∧ lit.ledger.log.length + 48 + 64 ≤ logSize) ∧ (State.reset.Ordinary ∧ State.reset.pwr < 2)
    ∧ (compacting.Ordinary ∧ compacting.ledger.compacting = true) ∧ lit.writeReaches 0 (.ext .ledgCtrl) = true ∧ LEDG_CTRL.COMPACT.get (LEDG_CTRL.CLEAR_ALT.put 0 1) = 0 := by decide +kernel
theorem meets_SmBusAndTelemetry : State.reset.power.smbUp = false ∧ lit.power.smbUp = true ∧ lit.power.alert = false ∧ ({ lit with power := { lit.power with alert := true } } : State).power.alert = true := by decide +kernel
/-- A token that is good is one the opaque signature test of Config passes, so no test names one. -/
def lockedOut : State := lit.raise hatchReg SEC_HATCH.LOCKOUT
theorem meets_HatchAnswersAndOpens : lit.power.resetN = true ∧ ({ lit with power := { lit.power with resetN := false } } : State).power.resetN = false ∧ lit.Ordinary ∧ lit.tokenGood [] = false ∧ lockedOut.isSet hatchReg SEC_HATCH.LOCKOUT = true
    ∧ ({ lit with sec := { lit.sec with opening := true } } : State).sec.opening = true := by decide +kernel

/-- Link 3 with two replays of lane 2 noted, and with a swap of it in progress. -/
def replayed : State := lit.updDir 3 false (fun x => { x with replays := [(2, lit.clock.now), (2, lit.clock.now)] })
def swapping : State := lit.updLink 3 (fun x => { x with swapping := some (false, 2) })
theorem meets_LanesAndHeartbeats : (replayed.Ordinary ∧ replayed.links[(3 : LinkId)].lost = false ∧ 2 ∉ replayed.links[(3 : LinkId)].dirs[dirOf false].bad
      ∧ 2 ≤ ((replayed.links[(3 : LinkId)].dirs[dirOf false].replays.filter (fun r => replayed.clock.now < r.2 + qMs)).filter (fun r => r.1 == 2)).length
      ∧ ((replayed.links[(3 : LinkId)].dirs[dirOf false].replays.filter (fun r => replayed.clock.now < r.2 + qMs)).filter (fun r => r.1 == 3)).length < 2
      ∧ replayed.links[(3 : LinkId)].dirs[dirOf false].spares < (linkLanes 3 false).2.1 ∧ replayed.links[(3 : LinkId)].swapping = none)
    ∧ (swapping.Ordinary ∧ swapping.links[(3 : LinkId)].swapping = some (false, 2) ∧ swapping.links[(3 : LinkId)].queued = [])
    ∧ (∀ d : DomeId, lit.dieUp (Die.ofDome d) = true ∧ lit.beats[d].missedPeer = false ∧ lit.beats[d].missedMerid = false) := by decide +kernel
theorem meets_LossesOfDies : lit.Ordinary ∧ (∀ x : Die, lit.dieLost[x] = false) ∧ ((lose Die.meridB lit).Ordinary ∧ (lose Die.meridB lit).dieLost[Die.ofMerid 0] = false ∧ (lose Die.meridB lit).dieLost[Die.ofMerid (twin 0)] = true) := by
  decide +kernel

/-! ### Clocks, stamps, events and outputs (LoopsAndDpll to LookoutsMeasure) -/

def loops (a b : Nat) : State := (lit.setLoop 1 0 a).setLoop 1 1 b
def dpllAt (n : Nat) (r : ReturnMode) : State := (lit.setDpll 0 n).updMer 0 (fun x => { x with acqBw := 12, refValid := true, returns := r })
theorem meets_LoopsAndDpll : (lit.dieLost[Die.ofMerid 1] = false)
    ∧ ((loops 1 0).Ordinary ∧ (loops 1 0).loopState 1 0 = 1) ∧ ((loops 3 1).loopState 1 1 = 1 ∧ (loops 3 1).loopState 1 0 = 3) ∧ (loops 2 0).loopState 1 0 = 2
    ∧ ((loops 3 2).loopState 1 0 = 3 ∧ (loops 3 2).loopState 1 1 = 2 ∧ (1 : MerId) ≠ (loops 3 2).leader)
    ∧ (((lit.setLoop 0 0 3).setLoop 0 1 2).loopState 0 1 = 2 ∧ (0 : MerId) = ((lit.setLoop 0 0 3).setLoop 0 1 2).leader) ∧ (lit.loopState 0 0 = 3 ∧ lit.loopState 0 1 = 3)
    ∧ ((dpllAt 2 .none).mers[(0 : MerId)].refValid = true ∧ (dpllAt 2 .none).loopState 0 0 ≠ 0)
    ∧ ((dpllAt 1 .none).Ordinary ∧ (dpllAt 1 .none).dpll 0 = 1 ∧ (dpllAt 1 .none).fld (.merDpll 0) MER_DPLL.BW < (dpllAt 1 .none).mers[(0 : MerId)].acqBw)
    ∧ (((dpllAt 1 .none).updMer 0 (fun x => { x with acqBw := 0 })).mers[(0 : MerId)].acqBw ≤ ((dpllAt 1 .none).updMer 0 (fun x => { x with acqBw := 0 })).fld (.merDpll 0) MER_DPLL.BW)
    ∧ ((dpllAt 4 .measuring).dpll 0 = 4 ∧ (dpllAt 4 .measuring).mers[(0 : MerId)].returns = .measuring) ∧ ((dpllAt 4 .slewing).dpll 0 = 4 ∧ (dpllAt 4 .slewing).mers[(0 : MerId)].returns = .slewing) := by decide +kernel

def role (n : Nat) : State := lit.setFld (.merSyncCtrl 0) MER_SYNC_CTRL.ROLE n
/-- The leader with a staged M of `m`. -/
def staging (m : Nat) : State := lit.updMer 0 (fun x => { x with staged := { x.staged with m := m } })

theorem meets_MeridianSettingsApply : lit.writeReaches 0 (.merDpllCmd 0) = true
    ∧ ((role 1).Ordinary ∧ (role 1).writeReaches 0 (.merSyncCtrl 0) = true ∧ (role 1).leader = 0 ∧ (role 1).fld (.merSyncCtrl 0) MER_SYNC_CTRL.ROLE = 1)
    ∧ ((role 2).writeReaches 0 (.merSyncCtrl 0) = true ∧ (role 2).fld (.merSyncCtrl 0) MER_SYNC_CTRL.ROLE = 2)
    ∧ ((staging 0).Ordinary ∧ (staging 0).writeReaches 0 (.merApply 0) = true ∧ (staging 0).leader = 0 ∧ (staging 0).mers[(0 : MerId)].staged.refused = true)
    ∧ ((staging 120).writeReaches 0 (.merApply 0) = true ∧ (staging 120).mers[(0 : MerId)].staged.refused = false)
    ∧ lit.dieLost[Die.ofMerid 0] = false ∧ (lit.feeds 0 2 = true ∧ lit.feeds 1 2 = true) ∧ ¬ ((loops 0 0).feeds 0 2 = true ∧ (loops 0 0).feeds 1 2 = true) := by decide +kernel

def arm (s : State) : State := s.setFld (.merSyncCtrl 0) MER_SYNC_CTRL.ARM 1
def forced (s : State) : State := s.setFld (.merSyncCtrl 0) MER_SYNC_CTRL.FORCE 1
def scheduled (s : State) : State := s.updMer 0 (fun x => { x with sync := some ⟨lit.clock.now + 1000⟩ })
/-- A stamp at the present moment, of which the event lies ahead; and one at the epoch's start, of which it has passed. -/
def soon : Nat := lit.clock.now - lit.clock.epochAt
theorem meets_SyncArmsAndApplies : (∀ s ∈ [lit, arm lit, arm (playing id), forced (arm (playing id))], s.Ordinary ∧ s.timebase s.leader = true ∧ s.syncFld MER_SYNC_CTRL.ROLE ≠ 3 ∧ s.mers[s.leader].sync = none
      ∧ 125 * ((s.reachTime (s.clock.epochAt + soon)).clock.now : Int) < (s.reachTime (s.clock.epochAt + soon)).eventTime soon)
    ∧ soon < 2 ^ 64 ∧ (lit.syncFld MER_SYNC_CTRL.ARM = 0 ∧ lit.anyPlays = false) ∧ ((arm lit).syncFld MER_SYNC_CTRL.ARM = 1 ∧ (arm lit).anyPlays = false)
    ∧ ((arm (playing id)).anyPlays = true ∧ (arm (playing id)).syncFld MER_SYNC_CTRL.FORCE = 0) ∧ ((forced (arm (playing id))).anyPlays = true ∧ (forced (arm (playing id))).syncFld MER_SYNC_CTRL.FORCE = 1)
    ∧ (lit.reachTime (lit.clock.epochAt + 0)).eventTime 0 ≤ 125 * ((lit.reachTime (lit.clock.epochAt + 0)).clock.now : Int)
    ∧ ({ lit with domains := lit.domains.set (domTrn 0) .off } : State).timebase 0 = false
    ∧ (∀ s ∈ [scheduled lit, scheduled (arm lit)], s.Ordinary ∧ s.mers[s.leader].sync = some ⟨lit.clock.now + 1000⟩) ∧ (scheduled lit).syncFld MER_SYNC_CTRL.ARM = 0
    ∧ ((scheduled (arm lit)).syncFld MER_SYNC_CTRL.ARM = 1 ∧ (scheduled (arm lit)).isSet (.merApply 0) MER_APPLY.AT_SYNC = false ∧ (scheduled (arm lit)).isSet (.merApply 1) MER_APPLY.AT_SYNC = false) := by decide +kernel

def switching : State := { lit with clock := { lit.clock with switching := lit.clock.switching.set 2 true } }
theorem meets_ClocksFailOver : lit.Ordinary ∧ lit.leader = 0 ∧ (∀ k ∈ [(0 : Fin 10), 9], lit.inUse k = 0 ∧ lit.feeds 0 k = true ∧ lit.feeds 1 k = true ∧ bitOf (lit.fld (.merTwinBad 0) MER_TWIN_BAD.BAD) k.val = false
      ∧ k ∉ lit.mers[(0 : MerId)].failed ∧ lit.mers[(0 : MerId)].spares.toList.contains (some k) = false)
    ∧ (switching.Ordinary ∧ switching.clock.switching[(2 : Fin 10)] = true ∧ switching.clock.switching[(3 : Fin 10)] = false) := by decide +kernel

/-- A tap edge on its way, and a part asleep in LAID-UP with its timebase off. -/
def tapped : State := { lit with taps := [⟨40, false, lit.clock.now + 500⟩, ⟨41, true, lit.clock.now + 900⟩] }
def asleep : State := { lit.setFld (.ext .pwrState) PWR_STATE.STATE 1 with domains := (lit.domains.set (domTrn 0) .off).set (domTrn 1) .off }
theorem meets_TransitStampsInputs : (isTap 40 = true ∧ (∀ e ∈ tapped.taps, e.input ≠ 42) ∧ isTap 42 = true)
    ∧ (tapped.Ordinary ∧ (⟨40, false, lit.clock.now + 500⟩ : TapEdge) ∈ tapped.taps ∧ (∀ x ∈ tapped.taps, x.input = 40 → x = ⟨40, false, lit.clock.now + 500⟩) ∧ tapped.fld (.trnInCtrl 40) TRN_INk_CTRL.EDGE = 0
      ∧ tapped.isSet (.trnInStuck 40) TRN_INk_STUCK.STUCK = false ∧ tapped.timebase tapped.leader = true)
    ∧ (asleep.Ordinary ∧ asleep.laidInput 5 = true ∧ asleep.fld (.trnInCtrl 5) TRN_INk_CTRL.EDGE = 0 ∧ asleep.isSet (.trnInStuck 5) TRN_INk_STUCK.STUCK = false ∧ asleep.transit[asleep.leader].inputs[(5 : TrnIn)].last = none)
    ∧ (isTap 5 = false ∧ lit.fld (.trnInCtrl 5) TRN_INk_CTRL.EDGE = 0 ∧ lit.isSet (.trnInStuck 5) TRN_INk_STUCK.STUCK = false ∧ lit.laidInput 5 = false ∧ lit.timebase lit.leader = true)
    ∧ ((lit.setFld (.trnInStuck 5) TRN_INk_STUCK.TIME 1).stuckRuns 5 = true ∧ (lit.setFld (.trnInStuck 5) TRN_INk_STUCK.TIME 1).isSet (.trnInStuck 5) TRN_INk_STUCK.STUCK = false) ∧ (lit.raise (.trnInStuck 5) TRN_INk_STUCK.STUCK).isSet (.trnInStuck 5) TRN_INk_STUCK.STUCK = true ∧ (lit.dieLost[Die.ofMerid 0] = false ∧ lit.timebase 0 = true) := by decide +kernel

def pairing : State := ((lit.setFld (.eng 0 1 .ctrl) ENG_CTRL.MODE 1).raise (.eng 0 1 .status) ENG_STATUS.BUSY).updEng 0 1 (fun x => { x with edge := some ⟨true, 5, false, false⟩ })
theorem meets_StatisticsRuns : lit.Ordinary ∧ ENG_CTRL.RUN.get (ENG_CTRL.RUN.put 0 1) = 1 ∧ ENG_CTRL.RUN.get (0 : Word) = 0 ∧ lit.writeReaches 0 (.eng 0 1 .ctrl) = true ∧ lit.engBusy 0 1 = false
    ∧ (pairing.Ordinary ∧ pairing.writeReaches 0 (.eng 0 1 .ctrl) = true ∧ pairing.dieLost[Die.ofMerid 0] = false ∧ pairing.engBusy 0 1 = true ∧ pairing.fld (.eng 0 1 .ctrl) ENG_CTRL.MODE = 1
      ∧ pairing.transit[(0 : MerId)].engines[(1 : EngId)].edge ≠ none ∧ pairing.transit[(0 : MerId)].engines[(1 : EngId)].ended = false) := by decide +kernel

/-- Channel 5 carries a delivery that waits for these task inputs. -/
def carrying (ws : List Consumer) (s : State) : State := { s with fabric := { s.fabric with inFlight := [⟨5, ⟨3, 7, none⟩, 0, ws, false, [3]⟩] } }
def injecting : State := lit.raise (Source.reg' (.inject 0)) BCN_SRCs.EN
theorem meets_ChannelZeroIsNull : (lit.fld (.bcnCons 7) BCN_CONSi.CH = 0) ∧ ((lit.setFld (.bcnCons 7) BCN_CONSi.CH 5).raise (.bcnCons 7) BCN_CONSi.EN).consChannel 7 = some 5 := by decide +kernel
theorem meets_InjectPublishes : (injecting.Ordinary ∧ injecting.writeReaches 0 .bcnInject = true ∧ injecting.leader = 0 ∧ injecting.isSet (Source.reg' (.inject 0)) BCN_SRCs.EN = true ∧ injecting.sourceAlive (Source.num (.inject 0)) = true)
    ∧ (Fin.ofNat 256 (BCN_INJECT.CH.get 5) : BeaconCh) = 5 ∧ injecting.delivery 5 = none ∧ ((carrying [.task 7] injecting).delivery 5 ≠ none ∧ (carrying [.task 7] injecting).isSet (Source.reg' (.inject 0)) BCN_SRCs.EN = true)
    ∧ (Fin.ofNat 256 (BCN_INJECT.CH.get 0) : BeaconCh) = 0 := by decide +kernel
def waiting (i : ConsId) : State := lit.raise (.bcnConsStat i) BCN_CONSi_STAT.PENDING
def pulsing : State := lit.updEvOut 3 (fun x => { x with ends := some (lit.clock.now + 100) })
theorem meets_DeliveriesReachConsumers : ((carrying [] lit).Ordinary ∧ (carrying [] lit).delivery 5 = some ⟨5, ⟨3, 7, none⟩, 0, [], false, [3]⟩)
    ∧ ((carrying [.task 7] lit).delivery 5 = some ⟨5, ⟨3, 7, none⟩, 0, [.task 7], false, [3]⟩ ∧ (carrying [.task 7] lit).inputBusy 7 = false ∧ (carrying [.task 7] lit).inputPending 7 = false)
    ∧ ((carrying [.task 7] (waiting 7)).delivery 5 = some ⟨5, ⟨3, 7, none⟩, 0, [.task 7], false, [3]⟩ ∧ (carrying [.task 7] (waiting 7)).inputPending 7 = true)
    ∧ ((waiting 7).Ordinary ∧ (waiting 7).inputPending 7 = true ∧ (waiting 7).inputBusy 7 = false) ∧ lit.inputPending 7 = false
    ∧ (pulsing.Ordinary ∧ pulsing.fabric.evOut[(3 : EvOutId)].ends = some (lit.clock.now + 100)) := by decide +kernel
def timing (p : Option Nat) (d : Bool) : State := (lit.raise (.bcnTmrCtrl 1) BCN_TMRt_CTRL.RUNNING).updTimer 1 (fun x => { x with start := lit.clock.now, lastPub := p, deferred := d })
theorem meets_TimersRun : lit.Ordinary ∧ lit.writeReaches 0 (.bcnTmrCtrl 1) = true ∧ BCN_TMRt_CTRL.START.get (BCN_TMRt_CTRL.START.put 0 1) = 1
    ∧ (BCN_TMRt_CTRL.STOP.get (BCN_TMRt_CTRL.STOP.put 0 1) = 1 ∧ BCN_TMRt_CTRL.START.get (BCN_TMRt_CTRL.STOP.put 0 1) = 0)
    ∧ ((timing none false).Ordinary ∧ (timing none false).isSet (.bcnTmrCtrl 1) BCN_TMRt_CTRL.RUNNING = true ∧ (timing none false).fabric.timers[(1 : TimerId)].deferred = false)
    ∧ ((timing (some 5) true).isSet (.bcnTmrCtrl 1) BCN_TMRt_CTRL.RUNNING = true ∧ (timing (some 5) true).fabric.timers[(1 : TimerId)].deferred = true ∧ (timing (some 5) true).fabric.timers[(1 : TimerId)].lastPub = some 5) := by decide +kernel

def darkLow : State := { lit with power := { lit.power with darkN := false, darkFrom := Vector.replicate 4 900 } }
theorem meets_DarkCodeAndDarkN : (lit.Ordinary ∧ lit.power.darkN = true) ∧ (darkLow.Ordinary ∧ darkLow.power.darkN = false) := by decide +kernel
def changing (sw : Bool) : State := lit.updChan 0 (fun x => { x with changes := [⟨true, 32 * 1010, 40, sw, false⟩, ⟨false, 50000, 10, false, false⟩] })
def resetting : State := lit.updChan 0 (fun x => { x with markers := x.markers.set 1 { x.markers[(1 : Fin 2)] with waiting := some ⟨3, false, 1⟩, inForce := ⟨0, false, 0⟩, base := ⟨true, true⟩ } })
theorem meets_RangesAndMarkers : (∀ sw ∈ [false, true], (changing sw).Ordinary ∧ (changing sw).chans[(0 : ChanId)].changes = ⟨true, 32 * 1010, 40, sw, false⟩ :: [⟨false, 50000, 10, false, false⟩])
    ∧ (lit.updChan 0 (fun x => { x with markers := x.markers.set 1 { x.markers[(1 : Fin 2)] with waiting := some ⟨3, false, 1⟩ } })).chans[(0 : ChanId)].markers[(1 : Fin 2)].waiting = some ⟨3, false, 1⟩
    ∧ (lit.updChan 0 (fun x => { x with markers := x.markers.set 1 { x.markers[(1 : Fin 2)] with waiting := some ⟨3, false, 1⟩ } })).markerLevel 0 1 = false
    ∧ (resetting.Ordinary ∧ resetting.chans[(0 : ChanId)].markers[(1 : Fin 2)].waiting = some ⟨3, false, 1⟩ ∧ resetting.markerLevel 0 1 = true) := by decide +kernel

def tracking : State := lit.updBias 1 (fun x => { x with holding := true })
/-- Line 1 is of the class QUEUE, and its queue is full. -/
def queueFull : State := (lit.setFld (.biasCtrl 1) BIAS_CTRL.CLASS 2).updBias 1 (fun x => { x with queue := List.replicate 1024 3 })
theorem meets_BiasLinesMove : (lit.Ordinary ∧ ∀ n : LampId, lit.biasOn n = true ∧ lit.clock.runs[n] = true) ∧ lit.writeReaches 0 (.biasPdata 1) = true ∧ lit.writeReaches 0 (.biasCtrl 1) = true
    ∧ lit.fld (.biasCtrl 1) BIAS_CTRL.CLASS ≠ 2 ∧ (queueFull.Ordinary ∧ queueFull.writeReaches 0 (.biasPdata 1) = true ∧ queueFull.fld (.biasCtrl 1) BIAS_CTRL.CLASS = 2 ∧ 1024 ≤ queueFull.bias[(1 : BiasId)].queue.length)
    ∧ (tracking.Ordinary ∧ tracking.bias[(1 : BiasId)].holding = true) := by decide +kernel
def looking (f : Lookout → Lookout) : State := { lit.raise (.lookCtrl 0) LOOK_CTRL.EN with looks := lit.looks.set 0 (f lit.looks[(0 : LampId)]) }
def ageing : State := lit.updChan 0 (fun x => { x with cellDue := some 7, cellWait := some 64 })
theorem meets_LookoutsMeasure : ((looking id).Ordinary ∧ (looking id).lookRuns 0 = true ∧ ¬ ((looking id).looks[(0 : LampId)].slot = 0 ∧ (looking id).looks[(0 : LampId)].self = 63))
    ∧ ((looking (fun x => { x with slot := 0, self := 63 })).lookRuns 0 = true ∧ (looking (fun x => { x with slot := 0, self := 63 })).looks[(0 : LampId)].self = 63)
    ∧ ((looking (fun x => { x with slot := 32 })).lookRuns 0 = true ∧ (looking (fun x => { x with slot := 33 })).lookRuns 0 = true)
    ∧ ((looking (fun x => { x with inBlock := 32 })).lookRuns 0 = true ∧ (looking (fun x => { x with inBlock := 32 })).blockFrames 0 ≤ (looking (fun x => { x with inBlock := 32 })).looks[(0 : LampId)].inBlock)
    ∧ (ageing.Ordinary ∧ ageing.chans[(0 : ChanId)].cellDue = some 7 ∧ ageing.chans[(0 : ChanId)].cellWait = some 64 ∧ ageing.writeReaches 0 (.outCell 0) = true) := by decide +kernel

/-! ### Tables, walks and jumps (TablesLoadAndMove to HeadReadsAndGroups) -/

theorem lit_fetches : lit.Fetches hdr := ⟨by decide +kernel, by decide +kernel⟩
/-- CH3 with the tables it had before a move from DOME_A, or with a swap committed. -/
def movingHome : State := lit.updChan 3 (fun x => { x with move := some ⟨0⟩ })
def swapping3 : State := lit.updChan 3 (fun x => { x with swap := some ⟨2000, false, 0⟩ })
/-- The tables of CH8 to CH15 hold every PB1 block of DOME_A, CH3's none. -/
def full : State := { lit with chans := Vector.ofFn (fun c => { lit.chans[c] with slots := if 8 ≤ c.val then Vector.replicate 2 ⟨16384, []⟩ else lit.chans[c].slots, heldOn := Vector.replicate 2 true }) }
def mirrored : State := (lit.setFld (.charCtrl 3) CHAR_CTRL.TABLE_HOME 2).updLink linkDomes (fun x => { x with lost := true })
theorem meets_TablesLoadAndMove : lit.Ordinary ∧ ¬ ((0 : Nat) ≠ 0 ∧ 16383 + 0 ≤ 16384) ∧ ¬ ((2 : Nat) ≠ 0 ∧ 16383 + 2 ≤ 16384) ∧ ((1 : Nat) ≠ 0 ∧ 16383 + 1 ≤ 16384) ∧ (1 : Fin 2) = lit.stagedSlot 3 ∧ (0 : Fin 2) ≠ lit.stagedSlot 3
    ∧ (movingHome.Ordinary ∧ movingHome.chans[(3 : ChanId)].move ≠ none) ∧ (swapping3.Ordinary ∧ swapping3.stagedBusy 3 = true)
    ∧ (lit.chans[(3 : ChanId)].move = none ∧ lit.stagedBusy 3 = false ∧ lit.mirrorDown (lit.homeOf 3) = false ∧ lit.pb1Over 3 ((lit.staged 3).load 0 1 (lit.hostRead 0x5000 64)) = false)
    ∧ (full.Ordinary ∧ full.blocksUsed 0 = 1024 ∧ full.chans[(3 : ChanId)].move = none ∧ full.stagedBusy 3 = false ∧ full.mirrorDown (full.homeOf 3) = false ∧ full.pb1Over 3 ((full.staged 3).load 0 1 (full.hostRead 0x5000 64)) = true)
    ∧ (mirrored.Ordinary ∧ mirrored.chans[(3 : ChanId)].move = none ∧ mirrored.stagedBusy 3 = false ∧ mirrored.mirrorDown (mirrored.homeOf 3) = true)
    ∧ (lit.writeReaches 0 (.charCtrl 3) = true ∧ lit.chans[(3 : ChanId)].st.busy = false) := by decide +kernel

/-- CH0 plays entry `i`, at iteration `n` of the visit. -/
def atEntry (i n : Nat) (f : Chan → Chan := id) : State := playing (fun x => f { x with entry := i, iter := n })
def swapAt (e : Nat) : Chan → Chan := fun x => { x with swap := some ⟨e, false, 3⟩ }
def broken : Table := ⟨2, [(0, { entryOf 0x3F 64 1 1 0 0 with w1 := fields [(64, 0), (1, 32), (2, 56)] }), (1, entryOf 0x3F 64 1 1 0 0)]⟩
theorem meets_WalksAndSwaps : ((playing id).Ordinary ∧ (playing id).writeReaches 0 (.charCtrl 0) = true ∧ (playing id).stagedBusy 0 = false ∧ (playing (swapAt 8)).stagedBusy 0 = true)
    ∧ ((playing (swapAt 8)).atIterationEnd 0 = true ∧ (playing (swapAt 8)).chans[(0 : ChanId)].swap = some ⟨8, false, 3⟩ ∧ (playing (swapAt 8)).swapDue 0 ((playing (swapAt 8)).iterEnd 0) = true)
    ∧ (playing (swapAt 100000)).swapDue 0 ((playing (swapAt 100000)).iterEnd 0) = false
    ∧ (∀ s ∈ [playing id, atEntry 2 7, atEntry 1 0, atEntry 3 0, playing (fun x => { x with slots := Vector.replicate 2 broken })], s.Ordinary ∧ s.atIterationEnd 0 = true ∧ s.swapDue 0 (s.iterEnd 0) = false ∧ s.jumpDueAt 0 (s.iterEnd 0) = false)
    ∧ walkNext ((playing id).table 0) ((playing id).walkPos 0) = .again ⟨0, 1, []⟩ ∧ walkNext ((atEntry 2 7).table 0) ((atEntry 2 7).walkPos 0) = .again ⟨2, 8, []⟩
    ∧ (walkNext ((atEntry 1 0).table 0) ((atEntry 1 0).walkPos 0) = .visit 2 false [] ∧ enterFrames (((atEntry 1 0).table 0).entry 2) false [] = some [])
    ∧ walkNext ((atEntry 3 0).table 0) ((atEntry 3 0).walkPos 0) = .stop
    ∧ walkNext broken ((playing (fun x => { x with slots := Vector.replicate 2 broken })).walkPos 0) = .underflow := by decide +kernel

/-- CH0 plays an entry whose slot 0 is the word `w`; a delivery on channel 5, of an edge at sample 128, waits for its engine. -/
def jumping (w : Nat) (f : Chan → Chan := id) : State :=
  let s := playing (fun x => f { x with slots := Vector.replicate 2 { table with entries := (0, entryOf 0x3F 64 2 1 w 0) :: table.entries.drop 1 } })
  { s with fabric := { s.fabric with inFlight := [⟨5, ⟨3, 7, some ⟨1017 * 16384, 2, false, false, false, false, 0, 0⟩⟩, 0, [.engine 0], false, [3]⟩] } }
/-- The word of an enabled slot on channel 5, with its target and its mode, and window 3 where it is TIMED. -/
def slotWord (target mode : Nat) : Nat := 5 + target * 256 + mode * 2 ^ 24 + 2 ^ 26 + if mode = 2 then 3 * 2 ^ 27 else 0
def delayed (n : Nat) (s : State) : State := s.setFld (.winDelay 0 3) WINk_DELAY.DELAY n
def asked (s : State) : Option Candidate :=
  match s.delivery 5 with
  | some d => (s.candidates 0 5 ((d.payload.stamp.map (s.edgeSample 0)).bind (s.chans[(0 : ChanId)].visitAt (32 * (s.entryOf 0).lenG)))).find? (s.passes 0)
  | none => none
/-- A request that stands: at the boundary, or at a sample. -/
def request (boundary : Bool) (take : Nat) : PendingJump := ⟨1, if boundary then .boundary else .granule, 1, take, boundary, 9, 9, 0, 0, 5, false, false, false⟩
theorem meets_JumpsRegisterAndTake : (∀ s ∈ [jumping 0, jumping (slotWord 2 0), jumping (slotWord 2 1), jumping (slotWord 2 2), jumping (slotWord 4 1)], s.Ordinary ∧ s.delivery 5 ≠ none ∧ s.groupOf 0 = none ∧ s.chans[(0 : ChanId)].st = .playing
      ∧ s.chans[(0 : ChanId)].pend = none ∧ s.playGran 0 = 10 ∧ s.groupLag 0 false = 0 ∧ s.boundaryTake 0 10 ≠ none)
    ∧ (jumping 0 (fun x => { x with st := .idle })).chans[(0 : ChanId)].st ≠ .playing ∧ asked (jumping 0) = none
    ∧ (asked (jumping (slotWord 2 0))).map (fun x => slotMode x.word) = some 0
    ∧ ((asked (jumping (slotWord 2 1))).map (fun x => slotMode x.word) = some 1 ∧ (jumping (slotWord 2 1)).heldTarget 0 2 = true)
    ∧ ((asked (jumping (slotWord 4 1))).map (fun x => slotMode x.word) = some 1 ∧ (jumping (slotWord 4 1)).heldTarget 0 4 = false)
    ∧ ((asked (delayed 704 (jumping (slotWord 2 2)))).map (fun x => slotMode x.word) = some 2 ∧ (delayed 704 (jumping (slotWord 2 2))).edgeSample 0 ⟨1017 * 16384, 2, false, false, false, false, 0, 0⟩ = 128
      ∧ (10 : Int) + 0 + 16 ≤ (128 + 704) / 32)
    ∧ ((asked (delayed 703 (jumping (slotWord 2 2)))).map (fun x => slotMode x.word) = some 2 ∧ ¬ (10 : Int) + 0 + 16 ≤ (128 + 703) / 32)
    ∧ (asked (jumping (slotWord 2 0) (fun x => { x with pend := some (request true 0) })) ≠ none)
    ∧ ((jumping 0 (fun x => { x with pend := some (request false 2047) })).heldFrom 0 = none ∧ (jumping 0 (fun x => { x with pend := some (request false 2047) })).Sound ((jumping 0).table 0) 1
      ∧ enterFrames (((jumping 0).table 0).entry 1) false [] = some [] ∧ 0 < 2047 ∧ 2047 < (jumping 0 (fun x => { x with pend := some (request false 2047) })).iterEnd 0)
    ∧ (∀ j ∈ [request true 0, request false 2048], let s := jumping 0 (fun x => { x with pend := some j })
        s.Ordinary ∧ s.iterEnd 0 = 2048 ∧ s.jumpDueAt 0 2048 = true ∧ s.swapDue 0 2048 = false) := by decide +kernel


def placeRead (held : Bool) : State := lit.updChan 0 (fun x => { x with ready := [⟨1, held, []⟩], readyNext := if held then some [⟨1, false, []⟩, ⟨2, false, []⟩] else none })
/-- An order on channel 5 has come to CH0, which plays the entry of `jumping`: of a take point in samples from UGC 0. -/
def ordered (w : Nat) (take : Nat) (f : Chan → Chan := id) : State := jumping w (fun x => f { x with orders := [⟨5, take, 990 + 20, .boundary, false, false⟩, ⟨7, 3, 3, .granule, false, false⟩] })
theorem meets_HeadReadsAndGroups : ((placeRead false).Ordinary ∧ (placeRead false).chans[(0 : ChanId)].readsNext 0 = false ∧ (placeRead false).chans[(0 : ChanId)].ready[0]? = some ⟨1, false, []⟩ ∧ (placeRead false).chans[(0 : ChanId)].ready[1]? = none)
    ∧ ((placeRead true).Ordinary ∧ (placeRead true).chans[(0 : ChanId)].readsNext 0 = true ∧ ((placeRead true).chans[(0 : ChanId)].readyNext.getD [])[0]? = some ⟨1, false, []⟩)
    ∧ (∀ s ∈ [ordered 0 40000, ordered (slotWord 2 0) 40000, ordered (slotWord 2 0) 100, ordered (slotWord 2 0) 40000 (fun x => { x with pend := some (request true 0) })], s.Ordinary ∧ s.chans[(0 : ChanId)].orders ≠ [] ∧ s.chans[(0 : ChanId)].st = .playing)
    ∧ ((ordered 0 40000).entryOf 0).armedSlot 5 = none ∧ ((ordered (slotWord 2 0) 40000).entryOf 0).armedSlot 5 = some 0
    ∧ ((ordered (slotWord 2 0) 40000).memberJump 0 ⟨5, 40000, 1010, .boundary, false, false⟩ 0 0 0 320).2 = true
    ∧ (((ordered (slotWord 2 0) 100).memberJump 0 ⟨5, 100, 1010, .boundary, false, false⟩ 0 0 0 320).2 = false ∧ (ordered (slotWord 2 0) 100).boundaryTake 0 (10 + (ordered (slotWord 2 0) 100).groupLag 0 true) ≠ none)
    ∧ (ordered (slotWord 2 0) 40000 (fun x => { x with pend := some (request true 0) })).chans[(0 : ChanId)].pend = some (request true 0) := by decide +kernel

/-- CH0 primes for the start of entry 0 at granule 1,100. -/
def priming (f : Chan → Chan) : State := playing (fun x => f { x with st := .priming, startEntry := 0, startAt := some 1100 })
def stored : State := playing (fun x => { x with slots := Vector.replicate 2 { table with entries := [(0, entryOf 0 64 2 1 0 0)] } })
theorem meets_EntriesAreChecked : (∀ s ∈ [playing id, priming id], s.Ordinary ∧ (∀ i < 4, s.Sound (s.table 0) i) ∧ 4 < (s.table 0).len ∧ ¬ s.Sound (s.table 0) 4) ∧ (playing id).chans[(0 : ChanId)].st = .playing ∧ (priming id).chans[(0 : ChanId)].st = .priming
    ∧ (playing id).tableMirrored 0 = true ∧ ((playing id).setFld (.charCtrl 0) CHAR_CTRL.TABLE_HOME 0).tableMirrored 0 = false := by decide +kernel
theorem meets_PrefetchKeepsTheLead : (stored.Ordinary ∧ stored.chans[(0 : ChanId)].st = .playing ∧ memFormat (stored.entryOf 0).format = true ∧ stored.chans[(0 : ChanId)].arrTo ≤ stored.playGran 0) ∧ (priming id).chans[(0 : ChanId)].st = .priming := by
  decide +kernel
def marked (p : Nat) (f : Chan → Chan := id) : State := playing (fun x => f { x with slots := Vector.replicate 2 { table with entries := [(0, { entryOf 0x3F 64 2 1 0 0 with w5 := fields [(p, 0)] })] } })
def pulse (mode start width : Nat) : Nat := mode + start * 4 + width * 2 ^ 20
def keptWalk : KeptWalk := ⟨0, 1, [], 2048, 2100, 0, 0, 0, none⟩
theorem meets_StartsAndMarkers : ((priming id).Ordinary ∧ (priming id).chans[(0 : ChanId)].startAt = some 1100 ∧ (priming id).chans[(0 : ChanId)].resume = false ∧ (priming id).Sound ((priming id).table 0) 0
      ∧ enterFrames (((priming id).table 0).entry 0) false [] = some [] ∧ (priming id).chans[(0 : ChanId)].frames = [])
    ∧ ((priming (fun x => { x with resume := true, kept := some keptWalk })).Ordinary ∧ (priming (fun x => { x with resume := true, kept := some keptWalk })).chans[(0 : ChanId)].kept = some keptWalk)
    ∧ (∀ p ∈ [pulse 3 0 64, pulse 3 2047 64, pulse 2 100 64], (marked p).Ordinary ∧ ((marked p).entryOf 0).marker 0 = p ∧ (mkMode p = 3 ∨ (mkMode p = 2 ∧ (marked p).chans[(0 : ChanId)].iter = 0)) ∧ mkStart p < (marked p).iterEnd 0
      ∧ (marked p).chans[(0 : ChanId)].iterStart = 0 ∧ (marked p).chans[(0 : ChanId)].resumed = 0 ∧ (marked p).heldFrom 0 = none ∧ (marked p).chans[(0 : ChanId)].pend = none)
    ∧ ((marked 0 (fun x => { x with markers := x.markers.set 0 { x.markers[(0 : Fin 2)] with pulseEnd := some 900 } })).chans[(0 : ChanId)].markers[(0 : Fin 2)].pulseEnd = some 900)
    ∧ (marked 0).chans[(0 : ChanId)].markers[(0 : Fin 2)].pulseEnd = none := by decide +kernel

/-! ### Frequency words and streams (FrequencyWordsPair to BlocksAndUnderruns) -/

def chirping : State := lit.updNco 0 (fun x => { x with chirp := some ⟨2, 1, 5, 3⟩, rate := 7, at_ := 200, runs := true })
def pair4 : State := lit.raise (.lantCtrl 4) LANT_CTRL.PAIR
theorem meets_FrequencyWordsPair : (lit.Ordinary ∧ lit.pairSlave 5 = false ∧ lit.writeReaches 0 (.lantSecFreqLo 5 7) = true ∧ lit.writeReaches 0 (.lantSecFreqHi 5 7) = true ∧ lit.chans[(0 : ChanId)].nco.chirp = none)
    ∧ (pair4.Ordinary ∧ pair4.pairSlave 5 = true ∧ pair4.writeReaches 0 (.lantSecFreqLo 5 7) = true ∧ pair4.writeReaches 0 (.lantSecFreqHi 5 7) = true)
    ∧ (chirping.Ordinary ∧ chirping.chans[(0 : ChanId)].nco.chirp = some ⟨2, 1, 5, 3⟩ ∧ chirping.chans[(0 : ChanId)].nco.runs = true ∧ 3 ≤ chirping.chans[(0 : ChanId)].nco.at_ ∧ chirping.chans[(0 : ChanId)].nco.writes = []) := by decide +kernel

def region : Word := 0x150001
def marks : Word := 22 + (30 <<< 16)
theorem meets_StreamsAttachAndDetach : (lit.Ordinary ∧ lit.feature 1 = true ∧ TND_CTRL.ATTACH.get (1 : Word) = 1 ∧ (0x9000 : QWord).toNat % 8 = 0 ∧ lit.attached 0 = false ∧ (withStream lit).attached 0 = true ∧ (withStream lit).Ordinary)
    ∧ (∀ p ∈ [(Reg.tndCtrl 0, (1 : Word)), (.tndRegion 0, region), (.tndFallback 0, 0), (.tndRingLo 0, 0x1003)], p.2 &&& p.1.reservedMask = 0)
    ∧ built.attachRefused 0 1 region.toNat region.toNat marks.toNat = none ∧ built.attachRefused 0 1 0 region.toNat marks.toNat = some Reason.tenderRegion ∧ built.attachRefused 0 1 region.toNat 0xFFFFFFFF 0xFFFFFFFF = some Reason.tenderWm
    ∧ ((withStream (playing id)).attached 0 = true ∧ (withStream (playing id)).chans[(withStream (playing id)).chanOf 0].st.busy = true) ∧ (withStream lit).chans[(withStream lit).chanOf 0].st.busy = false
    ∧ (lit.writeReaches 0 (.tndCtrl 0) = true ∧ TND_CTRL.ATTACH.get (0 : Word) = 0 ∧ (withStream lit).writeReaches 0 (.tndCtrl 0) = true ∧ lit.writeReaches 0 (.tndLimit 0) = true)
    ∧ (let s := (withStream lit).updStream 0 (fun x => { x with drawn := 7 })
       s.attached 0 = true ∧ (6 : Word) ≠ 0 ∧ (6 : Word).toNat < s.streams[(0 : StreamId)].drawn ∧ ¬ (7 : Word).toNat < s.streams[(0 : StreamId)].drawn ∧ s.writeReaches 0 (.tndLimit 0) = true)
    ∧ (lit.writeReaches 0 (.tndWmA 0) = true ∧ lit.writeReaches 0 (.tndWmB 0) = true ∧ marksOk (built.slotsOf 0) 0xFFFFFFFF 0xFFFFFFFF = false) := by decide +kernel

/-- CH0 plays stream 0, with POLICY `pol` and TND_LIMIT `lim`; it is at granule 10 of the entry, and a block is 1,024 granules. -/
def streaming (pol lim : Nat) (f : Stream → Stream) : State :=
  let e : EntryWords := { entryOf 0 3000 1 1 0 0 with w0 := fields [(3, 49)] }
  let s := playing (fun x => { x with slots := Vector.replicate 2 { table with entries := [(0, e)] } })
  let s := (((s.raise (.tndCtrl 0) TND_CTRL.ATTACH).setFld (.tndCtrl 0) TND_CTRL.POLICY pol).wr (.tndRegion 0) region).wr (.tndWmB 0) (2 + (30 <<< 16))
  (s.wr (.tndLimit 0) (BitVec.ofNat 32 lim)).updStream 0 (fun _ => f { Stream.reset with st := .flowing })
def gap (x : Stream) : Stream := { x with st := .underrun, missing := 500 }
theorem meets_BlocksAndUnderruns : (lit.Ordinary ∧ (∀ d : DomeId, lit.linkUp d = true) ∧ lit.serves = true)
    ∧ (let s := streaming 0 0 (fun x => { x with staged := [3], pulled := 4, landed := [0, 1, 2], pos := 1100 })
       s.Ordinary ∧ 3 ∈ s.streams[(0 : StreamId)].staged ∧ s.attached 0 = true ∧ (s.streams[(0 : StreamId)].consumed + 1) * s.gbOf 0 ≤ s.streamPos 0 ∧ s.streams[(0 : StreamId)].consumed ∉ s.streams[(0 : StreamId)].staged)
    ∧ (let s := streaming 0 0 (fun x => { x with pos := 966, landed := [0] })
       s.Ordinary ∧ s.chanOf 0 = 0 ∧ s.streams[(0 : StreamId)].st = .flowing ∧ s.fld (.tndLimit 0) TND_LIMIT.BLOCKS = 0 ∧ s.firstMissing 0 (s.streamPos 0) = 1024 ∧ s.streamDue 0 1024 48 = some 1856 ∧ s.granulesTo 0 1856 = some 48)
    ∧ ((streaming 0 0 (fun x => { x with pos := 1000, landed := [0, 1, 2, 3] })).firstMissing 0 1010 = 4096 ∧ (streaming 0 0 (fun x => { x with pos := 1000, landed := [0, 1, 2, 3] })).streamDue 0 4096 48 = none)
    ∧ (let s := streaming 0 0 (fun x => gap { x with landed := [1, 2, 3], pos := 1000 })
       s.Ordinary ∧ s.keepsPosition 0 = false ∧ s.streams[(0 : StreamId)].resumeAt = none ∧ 1 * s.gbOf 0 ≤ s.streamPos 0 + 48)
    ∧ (let s := streaming 1 0 (fun x => gap { x with landed := [0, 1], pos := 500 })
       s.Ordinary ∧ s.keepsPosition 0 = true ∧ s.streams[(0 : StreamId)].resumeAt = none ∧ s.resumeReady 0 (500 / max 1 (s.gbOf 0)) = true)
    ∧ (let s := (streaming 1 0 (fun x => gap { x with landed := [0, 1], pos := 500, resumeAt := some 500, reenter := 1920 })).pauseBegins 0 64
       s.Ordinary ∧ s.streams[(0 : StreamId)].st = .underrun ∧ s.keepsPosition 0 = true ∧ s.chans[(0 : ChanId)].pauseFrom = some 64)
    ∧ (let s := streaming 0 0 (fun x => gap { x with landed := [0, 1, 2, 3], pos := 1000, resumeAt := some 1024 })
       s.Ordinary ∧ s.keepsPosition 0 = false ∧ s.chans[(0 : ChanId)].st = .playing ∧ s.streamDue 0 1024 4096 = some 768 ∧ 768 < s.iterEnd 0)
    ∧ (let s := streaming 0 1 (fun x => { x with landed := [0, 1], pos := 1000 })
       s.Ordinary ∧ s.fld (.tndLimit 0) TND_LIMIT.BLOCKS = 1 ∧ max (1 * s.gbOf 0) (s.streamPos 0) = 1024 ∧ s.streamDue 0 1024 4096 = some 768 ∧ 768 < s.iterEnd 0) := by decide +kernel

/-! ### Engines and stores (EngineWordsRun to ShadowsWatch) -/

def word (es : List (Nat × Nat)) : Microword := BitVec.ofNat 176 (es.foldl (fun a e => a + e.1 * 2 ^ e.2) 3)
/-- A word for each SEQ but the reserved 7, with its place in SEQ = bits 7 to 5. -/
def words : List Microword := (List.range 7).map (fun i => word [(i, 5), (7, 8)])
def image (base : Nat) : StoreImage := ⟨5, 1, base, words, List.replicate 256 ⟨base, true, 0xFFFF⟩, []⟩
/-- KPR0 runs the routine of input 4, at word `w`; its input is busy. -/
def keeping (w : Nat) (f : Keeper → Keeper := id) : State :=
  (lit.updKeeper 0 (fun x => f { x with vendor := some (image 0), owner := some (image 12288), input := some 4, word := w })).raise (.bcnConsStat (inputIx 0 4)) BCN_CONSi_STAT.BUSY
def running (w : Nat) (f : ChanEngine → ChanEngine := id) : State := lit.updEngine 0 (fun x => f { x with store := some (image 0), word := w })
theorem meets_EngineWordsRun : (∀ i < 7, let s := keeping i (fun x => { x with stack := if i = 4 then [9] else List.replicate 7 9 })
      s.Ordinary ∧ s.keeperUp 0 = true ∧ s.keepers[(0 : KeeperId)].input = some 4 ∧ s.keepers[(0 : KeeperId)].releasing = false ∧ s.keepers[(0 : KeeperId)].waitEnd = none ∧ (s.keeperWord 0 i).1 = word [(i, 5), (7, 8)]
      ∧ mwSeq (word [(i, 5), (7, 8)]) = i ∧ keeperWordOk (word [(i, 5), (7, 8)]) = true ∧ mwBits (word [(i, 5), (7, 8)]) 96 50 = 0 ∧ s.keepers[(0 : KeeperId)].stack.length < 8 ∧ s.keepers[(0 : KeeperId)].stack ≠ [] ∧ s.keepers[(0 : KeeperId)].buffer = [])
    ∧ (∀ i < 5, let s := running i (fun x => { x with stack := [9] })
      s.Ordinary ∧ s.engines[(0 : ChanId)].store ≠ none ∧ s.domainOn (domChan 0) = true ∧ s.dieLost[Die.ofLamp (lampOf 0)] = false ∧ (s.channelWord 0 i).1 = word [(i, 5), (7, 8)] ∧ channelWordOk (word [(i, 5), (7, 8)]) = true
      ∧ mwBits (word [(i, 5), (7, 8)]) 96 47 = 0 ∧ s.engines[(0 : ChanId)].stack.length < 8 ∧ s.engines[(0 : ChanId)].stack ≠ []) := by decide +kernel

def idle (x : Keeper) : Keeper := { x with input := none }
def waitsTo (t : Nat) (done : Bool) : State := keeping 5 (fun x => { x with waitEnd := some t, regDone := done })
def access (poll : Bool) : RegAccess := ⟨0x80200C, 3, poll, 0xFF, 1⟩
def ownerRun : State := (keeping 3).setFld (.kprBind 0 4) KPR_BINDi.ROUTINE 192
theorem meets_KeeperRoutinesEnd : ((keeping 0 idle).Ordinary ∧ (keeping 0 idle).keepers[(0 : KeeperId)].input = none ∧ (keeping 0 idle).keeperUp 0 = true ∧ (keeping 0 idle).nextInput 0 = some 4
      ∧ ((keeping 0 idle).routineOf 0 ((keeping 0 idle).boundRoutine 0 4)).valid = true ∧ (keeping 0 idle).keeperRuns 0 = false)
    ∧ ((keeping 0 (fun x => { idle x with vendor := none })).nextInput 0 = some 4 ∧ ((keeping 0 (fun x => { idle x with vendor := none })).routineOf 0 ((keeping 0 idle).boundRoutine 0 4)).valid = false)
    ∧ ((keeping 0).keepers[(0 : KeeperId)].input = some 4 ∧ (keeping 0).keepers[(0 : KeeperId)].waitEnd = none ∧ (keeping 0).keepers[(0 : KeeperId)].releasing = false ∧ lit.nextInput 0 = none)
    ∧ ((waitsTo (lit.clock.now + 5) false).Ordinary ∧ (waitsTo (lit.clock.now + 5) false).keepers[(0 : KeeperId)].waitEnd = some (lit.clock.now + 5)
      ∧ (waitsTo (lit.clock.now + 5) false).waitHolds 0 ((waitsTo (lit.clock.now + 5) false).keeperWord 0 5).1 = true ∧ ¬ lit.clock.now ≤ lit.clock.now - 5)
    ∧ (let s := (keeping 7 (fun x => { x with waitEnd := some (lit.clock.now + 5), vendor := some { image 0 with words := List.replicate 8 (word [(5, 5), (1, 28)]) } }))
       s.waitHolds 0 (s.keeperWord 0 7).1 = false)
    ∧ ((keeping 6 (fun x => { x with releasing := true, buffer := [.consume 0] })).keepers[(0 : KeeperId)].releasing = true ∧ (keeping 6 (fun x => { x with releasing := true, buffer := [.consume 0] })).Ordinary)
    ∧ (∀ poll ∈ [false, true], let s := keeping 1 (fun x => { x with access := some (access poll) })
       s.Ordinary ∧ s.keeperRuns 0 = true ∧ s.keepers[(0 : KeeperId)].access = some (access poll) ∧ (s.mapRead (.keeper 0) (access poll).addr).1 ≠ none)
    ∧ ((keeping 1).Ordinary ∧ (keeping 1).keepers[(0 : KeeperId)].access = none ∧ (keeping 1).boundRoutine 0 4 < 192)
    ∧ (ownerRun.Ordinary ∧ 192 ≤ ownerRun.boundRoutine 0 4 ∧ ownerRun.keepers[(0 : KeeperId)].releasing = false ∧ (ownerRun.setFld (.kprCtrl 0) KPR_CTRL.MAX_RUN 30).fld (.kprCtrl 0) KPR_CTRL.MAX_RUN ≠ 0
      ∧ (ownerRun.setFld (.kprCtrl 0) KPR_CTRL.MAX_RUN 0).fld (.kprCtrl 0) KPR_CTRL.MAX_RUN = 0) := by decide +kernel

/-- CH0's store has had words 3 and 4 corrected in the last scrub pass, and `n` words repaired. -/
def scrubbed (n : Nat) : State := lit.updEngine 0 (fun x => { x with care := ⟨List.replicate n (5, 0), [3, 4], [3]⟩ })
theorem meets_StoresAreKept : (∀ n ∈ [0, 63, 64], (scrubbed n).Ordinary ∧ ((scrubbed n).careOf (.channel 0)).repairs.length = n ∧ 8190 + 1 < storeWords (.channel 0) ∧ 8190 ∉ ((scrubbed n).careOf (.channel 0)).before ∧ 4 ∈ ((scrubbed n).careOf (.channel 0)).before)
    ∧ storeWords (.channel 0) ≤ 8192 ∧ lit.ownerNew = none ∧ lit.ownerRuns = false ∧ (({ lit with ownerNew := some (image 12288) } : State).Ordinary ∧ ({ lit with ownerNew := some (image 12288) } : State).ownerRuns = false) ∧ ownerRun.ownerRuns = true := by
  decide +kernel

/-- CH0 plays and has reported this; the shadow walks the same table, from its start. -/
def watched (rs : List ChanReport) (f : Shadow → Shadow := id) : State :=
  (playing (fun x => { x with reports := rs.map (fun r => ⟨r, 1000⟩) })).updShadow 0 (fun x => f { x with walks := true, table := table, startGran := 990, last := 995 })
def faulted : State := (playing (fun x => { x with st := .fault })).updShadow 0 (fun x => { x with declared := some 5 })
/-- No link is up, and CH1 plays as CH0 does. -/
def cutOff (f : State → State) : State := f { watched [] with links := lit.links.map (fun x => { x with lost := true }) }
def both (s : State) : State := { s with chans := s.chans.set 1 s.chans[(0 : ChanId)], shadows := s.shadows.set 1 s.shadows[(0 : ChanId)] }
theorem meets_ShadowsWatch : ((watched []).Ordinary ∧ (watched []).chans[(0 : ChanId)].st = .playing ∧ lit.chans[(0 : ChanId)].st ≠ .playing)
    ∧ (∀ r ∈ [ChanReport.visit 0 2 128, .visit 0 1 64, .progress 0 0 10 10 [], .progress 3 0 10 10 []], (watched [r]).Ordinary ∧ (watched [r]).chans[(0 : ChanId)].reports = [⟨r, 1000⟩] ∧ (watched [r]).shadowOf 0 = some 0 ∧ (watched [r]).reportPath 0 0 = true
      ∧ (watched [r]).shadows[(0 : ChanId)].walks = true)
    ∧ ((watched []).shadows[(0 : ChanId)].causeOf false ⟨.visit 0 2 128, 1000⟩ [] = 0 ∧ (watched []).shadows[(0 : ChanId)].causeOf false ⟨.visit 0 1 64, 1000⟩ [] = 2 ∧ (watched []).shadows[(0 : ChanId)].causeOf false ⟨.visit 0 2 127, 1000⟩ [] = 3
      ∧ (watched []).shadows[(0 : ChanId)].causeOf false ⟨.progress 0 0 10 10 [], 1000⟩ [] = 0 ∧ (watched []).shadows[(0 : ChanId)].causeOf false ⟨.progress 3 0 10 10 [], 1000⟩ [] = 1)
    ∧ ((cutOff id).Ordinary ∧ (cutOff id).shadowOf 0 = some 0 ∧ (cutOff id).reportPath 0 0 = false)
    ∧ ((watched []).chans[(0 : ChanId)].reports = [] ∧ (watched []).unheard 0 = true ∧ (watched []).shadows[(0 : ChanId)].walks = true ∧ ((chansOfLamp 0).filter (fun i => (watched []).chans[i].st == .playing)).length = 1)
    ∧ ((cutOff both).Ordinary ∧ (cutOff both).unheard 0 = true ∧ ((chansOfLamp 0).filter (fun i => (cutOff both).chans[i].st == .playing)) = [0, 1] ∧ (∀ i ∈ [(0 : ChanId), 1], ((cutOff both).reachGranC 0 (995 + 256)).isSilent i = true))
    ∧ ((watched [.stop 5]).unheard 0 = false) ∧ (faulted.Ordinary ∧ faulted.chans[(0 : ChanId)].st = .fault ∧ faulted.shadows[(0 : ChanId)].declared = some 5) ∧ lit.shadows[(0 : ChanId)].declared = none := by decide +kernel

/-! ### Memory, plate banks and images (MemoryRequestsAndRefresh to SegmentsAndImagesLoad) -/

def unit7 : Vector Byte 64 := Vector.replicate 64 7
def req (w : Bool) (cls : MemClass) (a : Nat) : MemReq := ⟨1, cls, a, false, if w then some unit7 else none⟩
def write0 (done : List (Fin 4)) : MemWrite := ⟨req true .host 0, 0, lit.clock.now, done, [], false⟩
/-- DOME_A with these writes queued, and its port 1 with a sub-channel 0 so. -/
def queued (ws : List MemWrite) : State := built.updMoor 0 (fun m => { m with writes := ws })
def sub1 (f : SubChannel → SubChannel) : State := built.updSub 0 1 0 f
def read0 (t : Nat) : MemRead := ⟨req false .play 0, 0, t⟩
def held (c : SrCause) : State := built.updMoor 0 (fun m => { m with sr := some c })
def around : State := sub1 (fun x => { x with refreshing := some (16, lit.clock.now + 1000) })
def deep (n : Nat) : State := sub1 (fun x => { x with reads := List.replicate n (read0 0) })
theorem meets_MemoryRequestsAndRefresh : built.Ordinary ∧ built.dataBytes 0 = 9663676416 ∧ (req false .play 9663676416).addr = 9663676416 ∧ (∀ a ∈ [0, 9663676415], a < built.dataBytes 0)
    ∧ ((held .laidUp).Ordinary ∧ (held .laidUp).moor[(0 : DomeId)].sr = some .laidUp ∧ (held .freq).moor[(0 : DomeId)].sr = some .freq ∧ built.moor[(0 : DomeId)].sr = none)
    ∧ (built.fld (.moorSr 0) MOOR_SR.STATE ≠ 1 ∧ (req true .host 0).write = some unit7 ∧ built.mustWrite 0 (write0 []) = [1, 0] ∧ built.portAt 0 1 = some 1 ∧ built.writeFill 0 0 = 0 ∧ built.writeFill 0 1 = 0)
    ∧ ((queued (List.replicate 128 (write0 []))).Ordinary ∧ (queued (List.replicate 128 (write0 []))).writeFill 0 1 = 128 ∧ (queued (List.replicate 127 (write0 []))).writeFill 0 1 = 127)
    ∧ ((queued [write0 []]).half 0 = false ∧ ((queued [write0 []]).moor[(0 : DomeId)].writes.filter (fun x => x.req.addr / 64 = (req false .play 63).addr / 64)).getLast? = some (write0 []))
    ∧ (around.Ordinary ∧ around.readPort 0 (placeOf (around.half 0) 0) = some 1 ∧ around.readsAround 0 1 .play = true ∧ around.bankClosed 0 1 (subOf 0) (bankOf 0) = true ∧ around.readable 0 0 = true)
    ∧ (built.bankClosed 0 1 (subOf 0) (bankOf 0) = false ∧ ((List.finRange 4).map (fun sc => (deep 64).moor[(0 : DomeId)].ports[(1 : PortId)].subs[sc].reads.length)).sum = 64
      ∧ ((List.finRange 4).map (fun sc => (deep 63).moor[(0 : DomeId)].ports[(1 : PortId)].subs[sc].reads.length)).sum = 63) := by decide +kernel

/-- The state in which the next command of port 1's sub-channel 0 is chosen. -/
def batched (s : State) : State := s.updSub 0 1 0 (fun y => { y with batch := s.batchNow 0 1 0 })
def doubled : State := built.raise (.mpState 0 1) MP_STATE.DOUBLE
theorem meets_MemoryRequestsAndRefresh_issue : ((built.raise (.mpState 0 1) MP_STATE.IN_SR).isSet (.mpState 0 1) MP_STATE.IN_SR = true ∧ (built.setRole 0 1 2).role 0 1 = 2 ∧ (built.setRole 0 1 3).role 0 1 = 3)
    ∧ (built.clockHolds 0 = false ∧ built.isSet (.mpState 0 1) MP_STATE.IN_SR = false ∧ built.role 0 1 = 0)
    ∧ ((deep 2).Ordinary ∧ (deep 2).pressing 0 1 0 = some (.read (read0 0)) ∧ .read (read0 0) ∈ (deep 2).issuable 0 1 0 ((deep 2).readsWaiting 0 1 0 ++ (deep 2).writesWaiting 0 1 0) ∧ 90 ≤ (deep 2).pct 0 (.read (read0 0)))
    ∧ (0 < (sub1 (fun x => { x with urgent := 2 })).moor[(0 : DomeId)].ports[(1 : PortId)].subs[(0 : Fin 4)].urgent)
    ∧ (let s := sub1 (fun x => { x with nbr := [⟨3, 5, lit.clock.now⟩] })
       s.Ordinary ∧ s.moor[(0 : DomeId)].ports[(1 : PortId)].subs[(0 : Fin 4)].urgent = 0 ∧ s.moor[(0 : DomeId)].ports[(1 : PortId)].subs[(0 : Fin 4)].nbr.find? (fun n => decide (n.due ≤ s.clock.now)) = some ⟨3, 5, lit.clock.now⟩
       ∧ (batched s).pressing 0 1 0 = none)
    ∧ (let s := sub1 (fun x => { x with reads := [read0 lit.clock.now] })
       s.Ordinary ∧ (batched s).pressing 0 1 0 = none ∧ (batched s).nextRequest 0 1 0 = some (.read (read0 lit.clock.now)) ∧ s.readable 0 0 = true ∧ (s.updMoor 0 (fun m => { m with poison := [0] })).readable 0 0 = false)
    ∧ ((queued [write0 []]).Ordinary ∧ (batched (queued [write0 []])).pressing 0 1 0 = none ∧ (batched (queued [write0 []])).nextRequest 0 1 0 = some (.write (write0 [])) ∧ (queued [write0 []]).positionOf 0 1 = some 1)
    ∧ ((batched built).nextRequest 0 1 0 = none ∧ (batched built).pressing 0 1 0 = none ∧ (built.setOwed 0 1 0 1).owed 0 1 0 = 1 ∧ built.owed 0 1 0 = 0 ∧ built.moor[(0 : DomeId)].ports[(1 : PortId)].subs[(0 : Fin 4)].nbr = [])
    ∧ ((sub1 (fun x => { x with openRow := Vector.replicate 16 (some (3, lit.clock.now - 2 * qUs)) })).Ordinary ∧ lit.clock.now - 2 * qUs + 2 * qUs ≤ lit.clock.now ∧ lit.clock.now < lit.clock.now - 2 * qUs + 1 + 2 * qUs)
    ∧ ((queued [write0 []]).moor[(0 : DomeId)].writes.find? (fun w => w.req.id == 1 && ((queued [write0 []]).mustWrite 0 w).isEmpty) = none)
    ∧ ((queued [write0 [0, 1]]).moor[(0 : DomeId)].writes.find? (fun w => w.req.id == 1 && ((queued [write0 [0, 1]]).mustWrite 0 w).isEmpty) = some (write0 [0, 1]) ∧ (write0 [0, 1]).req.write = some unit7)
    ∧ (built.owed 0 1 0 + 1 < 8 ∧ 8 ≤ (built.setOwed 0 1 0 7).owed 0 1 0 + 1 ∧ (built.setOwed 0 1 0 7).Ordinary)
    ∧ (doubled.Ordinary ∧ doubled.isSet (.mpState 0 1) MP_STATE.DOUBLE = true ∧ built.isSet (.mpState 0 1) MP_STATE.DOUBLE = false ∧ (∀ sc : Fin 4, built.moor[(0 : DomeId)].ports[(1 : PortId)].subs[sc].urgent = 0 ∧ built.owed 0 1 sc ≤ 8)
      ∧ doubled.moor[(0 : DomeId)].ports[(1 : PortId)].below = 0 ∧ (doubled.updPort 0 1 (fun x => { x with below := 1 })).moor[(0 : DomeId)].ports[(1 : PortId)].below ≠ 0) := by decide +kernel

def alerted (n : Nat) : State := built.updPort 0 1 (fun x => { x with retry := [⟨9, 0, .refreshAll, n, 1⟩], retries := [(64, n)] })
/-- Position 2 has lost its port, and the spare retrains for it; or serves it from stripe `w` on. -/
def retraining : State := built.updMoor 0 (fun m => { m with retrain := true, lost := [2] })
def migrating (w : Nat) : State := (built.toSetState 0 2).setFld (.moorMigWm 0) MOOR_MIG_WM.W w
/-- The part in SHUTTERED with DOME_A's memory idle for a second. -/
def quiet : State := ({ built with clock := { built.clock with now := built.clock.now + 1000 * qMs } } : State).setFld (.ext .pwrState) PWR_STATE.STATE 2 |>.raise (.moorSr 0) MOOR_SR.IDLE_EN
def go5 : Word := MOOR_FREQ.GO.put (MOOR_FREQ.TARGET_DIV.put 0 5) 1
theorem meets_PortsAndSelfRefresh : (built.setFld (.moorScrub 0) MOOR_SCRUB.DUTY 0).fld (.moorScrub 0) MOOR_SCRUB.DUTY = 0 ∧ (built.setFld (.moorScrub 0) MOOR_SCRUB.DUTY 3).fld (.moorScrub 0) MOOR_SCRUB.DUTY ≠ 0
    ∧ (∀ n ∈ [2, 3], (alerted n).Ordinary ∧ (alerted n).moor[(0 : DomeId)].ports[(1 : PortId)].retry.find? (fun x => x.seq == 9) = some ⟨9, 0, .refreshAll, n, 1⟩ ∧ (alerted n).moor[(0 : DomeId)].ports[(1 : PortId)].retries.lookup 64 = some n
      ∧ (alerted n).role 0 1 = 0 ∧ (alerted n).positionOf 0 1 = some 1)
    ∧ ((alerted 2).moor[(0 : DomeId)].ports[(1 : PortId)].retry.find? (fun x => x.seq == 8) = none) ∧ ((built.setRole 0 1 4).role 0 1 = 4 ∧ (built.setRole 0 1 2).role 0 1 = 2)
    ∧ (built.moor[(0 : DomeId)].retrain = false ∧ retraining.Ordinary ∧ retraining.moor[(0 : DomeId)].retrain = true ∧ retraining.moor[(0 : DomeId)].lost = [2])
    ∧ (MOOR_MIG.START.get (MOOR_MIG.START.put 0 1) = 1 ∧ built.writeReaches 0 (.moorMig 0) = true ∧ built.setState 0 ≠ 2)
    ∧ (built.stripes 0 = 12582912 ∧ (∀ w ∈ [0, 12582910, 12582911], (migrating w).Ordinary ∧ (migrating w).setState 0 = 2 ∧ (migrating w).watermark 0 = w) ∧ 12582910 + 1 < built.stripes 0 ∧ built.stripes 0 ≤ 12582911 + 1)
    ∧ (quiet.Ordinary ∧ quiet.pwr = 2 ∧ quiet.isSet (.moorSr 0) MOOR_SR.IDLE_EN = true ∧ quiet.fld (.moorSr 0) MOOR_SR.STATE = 0 ∧ quiet.moor[(0 : DomeId)].lastReq + max 1 (quiet.fld (.moorSr 0) MOOR_SR.IDLE_US) * qUs ≤ quiet.clock.now
      ∧ quiet.domeQuiet 0 = true) ∧ built.pwr ≠ 2
    ∧ ((built.setFld (.moorSr 0) MOOR_SR.STATE 2).fld (.moorSr 0) MOOR_SR.STATE = 2 ∧ built.fld (.moorSr 0) MOOR_SR.STATE ≠ 2)
    ∧ (MOOR_FREQ.GO.get go5 = 1 ∧ MOOR_FREQ.TARGET_DIV.get go5 = 5 ∧ built.writeReaches 0 (.moorFreq 0) = true ∧ built.divTrained 0 5 = true ∧ built.divTrained 0 3 = false ∧ built.domeQuiet 0 = true
      ∧ (playing id).domeQuiet 0 = false ∧ (playing id).Ordinary)
    ∧ (built.isSet (.moorFreq 0) MOOR_FREQ.BUSY = false ∧ ((built.raise (.moorFreq 0) MOOR_FREQ.BUSY).updMoor 0 (fun m => { m with target := 9 })).isSet (.moorFreq 0) MOOR_FREQ.BUSY = true) := by decide +kernel

/-- Bank PB1 of DOME_A, and the test of its region 0 in a phase. -/
def bank (f : Bank → Bank) : State := (lit.updBank 0 1 f).setFld (.pbCtrl 0) PB_CTRL.TEST_EN 1
def testing (p : TestPhase) (f : Bank → Bank := id) : State := ((bank (fun x => f { x with phase := some p })).raise (.pbbState 0 1) PBb_STATE.TESTING).raise (.pbCtrl 0) PB_CTRL.AUTO_REPAIR
theorem meets_PlateBanksWork : ((bank id).Ordinary ∧ (bank id).domainOn (domPlate 0) = true)
    ∧ (∀ x ∈ [PlateAccess.none, .read 5, .write 5 9 0xFF, .add64 5 3], x.inBank 1 = true ∧ (bank id).borrowed 0 1 x = false ∧ (bank id).copyingRow 0 1 x = false) ∧ (bank id).wordEcc 0 1 5 .clean = .clean
    ∧ (collides 0 (.write 5 9 0xFF) (.write 5 8 0xFF) = true ∧ collides 0 (.write 5 9 0xFF) (.write 6 8 0xFF) = false)
    ∧ ((bank (fun x => { x with single := [5] })).wordEcc 0 1 5 .clean = .single ∧ (bank id).wordEcc 0 1 5 .double = .double ∧ (bank (fun x => { x with double := [5] })).wordEcc 0 1 5 .clean = .double)
    ∧ ((testing .march).Ordinary ∧ (testing .march).borrowed 0 1 (.read 511) = true ∧ (testing .march).borrowed 0 1 (.read 512) = false ∧ (testing .march).plate[(0 : DomeId)][(1 : BankId)].phase ≠ some .forced)
    ∧ ((bank (fun x => { x with retries := [(.write 5 9 0x0F, .keeper)] })).plate[(0 : DomeId)][(1 : BankId)].retries = [(.write 5 9 0x0F, .keeper)])
    ∧ ((bank id).isSet (.pbCtrl 0) PB_CTRL.TEST_EN = true ∧ (bank id).plate[(0 : DomeId)][(1 : BankId)].phase = none ∧ (bank id).plate[(0 : DomeId)][(1 : BankId)].copying = none)
    ∧ (∀ p ∈ [TestPhase.save, .march, .restore, .verify, .forced], (testing p).Ordinary ∧ (testing p).plate[(0 : DomeId)][(1 : BankId)].phase = some p ∧ (testing p).plate[(0 : DomeId)][(1 : BankId)].failed = false
      ∧ (testing p).plate[(0 : DomeId)][(1 : BankId)].copying = none ∧ (testing p).isSet (.pbCtrl 0) PB_CTRL.AUTO_REPAIR = true ∧ (testing p).plate[(0 : DomeId)][(1 : BankId)].waiting = [])
    ∧ ((testing .march).fld (.pbbState 0 1) PBb_STATE.SPARES_USED < ((testing .march).setFld (.pbbState 0 1) PBb_STATE.SPARES_TOTAL 2).fld (.pbbState 0 1) PBb_STATE.SPARES_TOTAL)
    ∧ ((testing .forced (fun x => { x with broken := 2 })).plate[(0 : DomeId)][(1 : BankId)].broken + 1 < 4 ∧ 4 ≤ (testing .forced (fun x => { x with broken := 3 })).plate[(0 : DomeId)][(1 : BankId)].broken + 1)
    ∧ ((testing .forced (fun x => { x with waiting := [(.none, .write 5 9 0xFF, .hostDma, .clean)] })).plate[(0 : DomeId)][(1 : BankId)].waiting = [(.none, .write 5 9 0xFF, .hostDma, .clean)])
    ∧ ((bank (fun x => { x with copying := some (3, 1) })).plate[(0 : DomeId)][(1 : BankId)].copying = some (3, 1) ∧ (bank (fun x => { x with copying := some (3, 1) })).Ordinary) := by decide +kernel

theorem built_fetches : built.Fetches hdr := ⟨by decide +kernel, by decide +kernel⟩
/-- A descriptor of an opcode the spec does not give, and one with a reserved bit set, on ring 0. -/
def badCode : Vector QWord 8 := #v[0x000012340000017F, 0, 0, 0, 0, 0, 0, 0]
def badBits : Vector QWord 8 := #v[0x0000123400004100, 0, 0, 0, 0, 0, 0, 0]
def unlinked : State := built.updLink linkDomes (fun x => { x with lost := true })
/-- An image that is good is one the opaque signature test of Config passes, so no test names one. -/
theorem meets_SegmentsAndImagesLoad : (hdrOf 0 badCode[0] = hdr ∧ built.invalidReason badCode = some Reason.badOpcode ∧ Reason.badOpcode ≠ Reason.ringState ∧ built.invalidReason badBits = some Reason.badField)
    ∧ (built.segRange 0x1000 0 2 63 = false ∧ built.segRange 0x1000 9663676352 0 64 = true ∧ built.segRange 0x1000 9663676416 0 64 = false)
    ∧ (built.mirrorDown 0 = false ∧ built.memReached 0 0 = true ∧ built.unreadable 0 0 64 = []) ∧ (unlinked.Ordinary ∧ unlinked.segRange 0x1000 0 0 64 = true ∧ unlinked.mirrorDown 2 = true)
    ∧ (built.feature 5 = true ∧ (built.wr (.glob (.featAccept 0)) 0).feature 5 = false ∧ (playing id).chans[(0 : ChanId)].st.busy = true ∧ ∀ c : ChanId, built.chans[c].st.busy = false)
    ∧ (match built.imageOf .owner (built.hostRead 0x1000 64) with | .error r => r == Reason.noOwner | .ok _ => false) = true := by decide +kernel

/-! ### Transactions, rings, links, snapshots and keys (ItemsJoinTransactions to KeysAreManaged) -/

def hdrT : DescHdr := { hdr with txn := true }
def slot0 (f : Txn → Txn) : State := { lit with host := { lit.host with txns := lit.host.txns.set 0 (f { Txn.reset with phase := .open_ }) } }
def slot1 (f : Txn → Txn) (s : State) : State := { s with host := { s.host with txns := s.host.txns.set 1 (f { Txn.reset with phase := .due 100 }) } }
def item : SetItem := ⟨BitVec.ofNat 25 (Reg.biasLevel 0).addr, false, false, 5⟩
theorem lit_fetches_txn : lit.Fetches hdrT := ⟨by decide +kernel, by decide +kernel⟩
theorem meets_ItemsJoinTransactions : (lit.host.txns[(0 : TxnId)].phase = .closed ∧ (slot0 id).host.txns[(0 : TxnId)].phase = .open_ ∧ (slot0 id).Ordinary ∧ (slot0 id).host.txns[(0 : TxnId)].func = lit.host.drings[hdrT.ring].func)
    ∧ hdrT.txn = true ∧ hdr.txn = false ∧ item.offset.toNat % 4 = 0
    ∧ ((slot0 (fun x => { x with func := 1 })).host.txns[(0 : TxnId)].func ≠ lit.host.drings[hdrT.ring].func)
    ∧ (let sets := fun (n : Nat) => ({ Txn.reset with phase := .open_, sets := List.replicate n item } : Txn)
       (sets 1019).full (.sets (List.replicate 6 item)) = true ∧ (sets 1018).full (.sets (List.replicate 6 item)) = false)
    ∧ (conflicts [{ Txn.reset with phase := .due 100, stops := [0] }] (.stop [0]) = true ∧ conflicts [] (.stop [0]) = false)
    ∧ ((slot1 (fun x => { x with stops := [0] }) lit).Ordinary ∧ conflicts (slot1 (fun x => { x with stops := [0] }) lit).liveTxns (.stop [0]) = true ∧ conflicts lit.liveTxns (.stop [0]) = false)
    ∧ ((lit.checkTxn ({ Txn.reset with func := 0 }.add (.start [(0, 0)] 100)) none).map (fun r => r.reason == Reason.ringState) = some false)
    ∧ lit.checkTxn ({ Txn.reset with func := 0 }.add (.sets [item])) none = none := by decide +kernel

def due (f : Txn → Txn) : State := slot0 (fun x => f { x with phase := .due 2000 })
/-- A one-item transaction waits for its granule. -/
def single : State := { lit with host := { lit.host with singles := [{ Txn.reset with phase := .due 2000, stops := [0] }] } }
theorem meets_CommitsTakeEffect : ((slot0 id).Ordinary ∧ (slot0 id).checkTxn (slot0 id).host.txns[(0 : TxnId)] none = none ∧ (slot0 id).checkTxn (slot0 id).host.txns[(0 : TxnId)] (some 9) = none ∧ (slot0 id).host.txns[(0 : TxnId)].commit = none
      ∧ (slot0 id).host.txns[(0 : TxnId)].refs = [])
    ∧ (((slot0 (fun x => { x with starts := [⟨[(0, 0)], 100⟩] })).checkTxn (slot0 (fun x => { x with starts := [⟨[(0, 0)], 100⟩] })).host.txns[(0 : TxnId)] none).map (fun r => r.reason == Reason.ringState) = some false)
    ∧ (lit.clock.now + 22 * qUs ≤ lit.edgeTime unitLamp (lit.clock.ugcBase[unitLamp] + 10 ^ 9) ∧ lit.edgeTime unitLamp (lit.clock.ugcBase[unitLamp] + 0) < lit.clock.now + 2 * qUs)
    ∧ (lit.dueTxn 0 = none ∧ lit.clock.runs[unitLamp] = true ∧ lit.pwr = 3)
    ∧ (single.Ordinary ∧ single.host.txns[(0 : TxnId)].phase = .closed ∧ single.host.singles = [{ Txn.reset with phase := .due 2000, stops := [0] }])
    ∧ (∀ f ∈ [id, (fun (x : Txn) => { x with stops := [0] }), fun x => { x with starts := [⟨[(0, 0)], 100⟩] }, fun x => { x with starts := [⟨[(0, 0)], 0⟩] }, fun x => { x with sets := [item] }], (due f).Ordinary ∧ (due f).host.txns[(0 : TxnId)].phase = .due 2000)
    ∧ (let s := slot0 (fun x => { x with phase := .due 2000, swaps := [(0, 1)] })
       let s := { s with chans := (playing id).chans }
       s.Ordinary ∧ s.chans[(0 : ChanId)].st = .playing)
    ∧ (lit.dieUp (Die.ofLamp (lampOf 0)) = true ∧ lit.halted = false ∧ lit.windowUp (Reg.biasLevel 0).addr = true) := by decide +kernel

/-- Ring 3 is set up both ways. -/
def ring3 : State := (lit.updDring 3 (fun _ => ⟨true, 1, 0x28000, 6, 2, 3, 3, [], none, []⟩)).updRring 3 (fun _ => ⟨true, 0, 0x38000, 6, 0, 1, 0, 0, 0, [], 0, none⟩)
def guarded (w : Watchdog) (prod : Nat) : State := { lit with host := { lit.host with wd := some w } }.updRring 0 (fun x => { x with prod := prod })
theorem meets_RingsAndWatchdog : (ringSound true 3 3 0x1000 = false ∧ ringSound true 3 4 0x1000 = true ∧ ringSound true 3 16 0x1000000 = true ∧ ringSound true 3 17 0x1000000 = false ∧ ringSound false 0 6 0x1000 = false ∧ ringSound false 3 6 0x1001 = false
      ∧ ringSound false 3 6 0x10000 = true)
    ∧ (lit.host.rrings[(3 : RingId)].up = false ∧ lit.host.drings[(3 : RingId)].up = false ∧ lit.host.rrings[(0 : RingId)].up = true)
    ∧ (ring3.Ordinary ∧ ring3.host.drings[(3 : RingId)].up = true ∧ ring3.linkUp ring3.host.drings[(3 : RingId)].func = true ∧ (3 : RingId) ≠ hdr.ring ∧ ring3.host.rrings[(3 : RingId)].up = true ∧ ring3.isDefault 3 = false
      ∧ ring3.host.rrings[(3 : RingId)].waiting = [] ∧ ring3.host.drings[(3 : RingId)].began = none ∧ ring3.ringStalled 3 = false ∧ ring3.host.drings[(3 : RingId)].prod = ring3.host.drings[(3 : RingId)].cons)
    ∧ (lit.feature 8 = true)
    ∧ ((guarded ⟨0, 0, 0, 1000, 0, 0, 2, 0, 0⟩ 0).Ordinary ∧ (guarded ⟨0, 0, 0, 1000, 0, 0, 2, 0, 0⟩ 0).rringFull 0 0 = false ∧ (guarded ⟨0, 0, 0, 1000, 0, 0, 2, 0, 0⟩ 0).host.rrings[(0 : RingId)].up = true)
    ∧ (let s := guarded ⟨0, 0, 0, 0, 1000, 2, 2, 0, 0⟩ 9
       s.Ordinary ∧ s.slotAt (64 + 0) = 0 ∧ (0 : Nat) ≠ s.host.rrings[(0 : RingId)].prod ∧ s.host.rrings[(0 : RingId)].up = true) := by decide +kernel

def report0 : Report := ⟨5, false, 0, 2, 0x1234, 0, 3, 4, 0xABCDEF, false⟩
def reporting (f : RRing → RRing) : State := lit.updRring 0 (fun x => f { x with waiting := [report0] })
/-- Vector 3 is pending, and its entry holds an address and data; or masks it. -/
def messaging (mask : Byte) : State :=
  { lit.raise (.bcnConsStat (consOfVector 3)) BCN_CONSi_STAT.BUSY with host := { lit.host with bar2 := Vector.replicate 2 ([⟨48, 0x10⟩, ⟨49, 7⟩, ⟨56, 9⟩] ++ if mask = 0 then [] else [⟨60, mask⟩]) } }
theorem meets_ReportsAndVectors : (lit.host.rrings[(0 : RingId)].waiting = [] ∧ lit.host.rrings[(1 : RingId)].up = false ∧ (reporting (fun x => { x with prod := 64 })).rringFull 0 0 = true)
    ∧ ((reporting id).Ordinary ∧ (reporting id).host.rrings[(0 : RingId)].waiting = [report0] ∧ (reporting id).host.rrings[(0 : RingId)].up = true ∧ (reporting id).linkUp (reporting id).host.rrings[(0 : RingId)].func = true
      ∧ (reporting id).rringFull 0 0 = false ∧ (reporting (fun x => { x with prod := 63 })).rringFull 0 0 = false)
    ∧ ((reporting id).coalCountOf 0 ≤ 0 + 1 ∧ report0.irq = false ∧ ¬ ((reporting id).setFld (.glob .rring0Cfg) RRING0_CFG.COAL_COUNT 4).coalCountOf 0 ≤ 0 + 1)
    ∧ (let s := (reporting (fun x => { x with first := some 77 })).setFld (.glob .rring0Coal) RRING0_COAL.TIME 5
       s.Ordinary ∧ s.host.rrings[(0 : RingId)].first = some 77 ∧ s.coalTimeOf 0 ≠ 0)
    ∧ ((messaging 0).Ordinary ∧ (messaging 0).inputBusy (consOfVector 3) = true ∧ (messaging 0).linkUp ((messaging 0).vectorRoute 3) = true ∧ bitOf (Memory.readLE (messaging 0).host.bar2[(messaging 0).vectorRoute 3] (16 * 3 + 12) 4) 0 = false
      ∧ bitOf (Memory.readLE (messaging 1).host.bar2[(messaging 1).vectorRoute 3] (16 * 3 + 12) 4) 0 = true) := by decide +kernel

/-- Ring 0 has fetched a LOAD_SEG; the link of DOME_A's function is down. -/
def fetched : State := lit.updDring 0 (fun x => { x with fetched := [⟨0, 0x0000123400000101, false⟩] })
def linkLess : State := lit.setFld (.hstLink 0) HST_LINK.GEN 0
theorem fetched_fetches : fetched.Fetches (hdrOf 0 0x0000123400000101) := ⟨by decide +kernel, by decide +kernel⟩
theorem meets_LinksAndAborts : (∀ f : Func, lit.fld (.hstLink f) HST_LINK.GEN ≠ 0 ∧ lit.linkUp f = true) ∧ (linkLess.Ordinary ∧ linkLess.domainOn (domPcie 0) = true ∧ linkLess.linkUp 0 = false)
    ∧ (fetched.Ordinary ∧ fetched.host.drings[(0 : RingId)].fetched = [⟨0, 0x0000123400000101, false⟩] ∧ readsHost ((0x0000123400000101 : QWord).toNat % 256) 0 = true)
    ∧ (lit.host.drings[hdr.ring].up = true ∧ lit.linkUp lit.host.drings[hdr.ring].func = true ∧ lit.serves = true ∧ lit.host.rrings[hdr.reportRing].up = true ∧ lit.host.drings[hdr.ring].fetched.length < 64) := by decide +kernel

def refS : DescRef := ⟨0, 0x0A, hdr, 0⟩
/-- A snapshot of all dies is being taken at `t`, and these have latched. -/
def snapping (t : Nat) (latched : BitVec 8) : State := { lit with snap := { lit.snap with job := some ⟨t, 0xFF, latched, 0, false, refS⟩ } }
def voted0 : QWord := BitVec.ofNat 64 ((Reg.merDpll 0).addr * 2 ^ 32)
theorem meets_SnapshotsAndInjections : (lit.snap.job = none ∧ lit.snap.queue = [] ∧ (snapping 5 0).Ordinary ∧ (snapping 5 0).snap.job ≠ none)
    ∧ (bitOf (0xFF : BitVec 8).toNat (Die.ofLamp 2).val = true ∧ bitOf (0 : BitVec 8).toNat (Die.ofLamp 2).val = false ∧ (snapping 5 0).dieUp (Die.ofLamp 2) = true)
    ∧ ((snapping 5 0xFF).Ordinary ∧ (snapping 5 0xFF).snap.queue = [] ∧ ∀ d : Die, bitOf (0xFF : BitVec 8).toNat d.val = true)
    ∧ (injecting.Ordinary ∧ injecting.isSet (Source.reg' (.inject injecting.leader)) BCN_SRCs.EN = true ∧ injecting.sourceAlive (Source.num (.inject injecting.leader)) = true ∧ injecting.delivery 5 = none)
    ∧ (lit.domainOn (domPlate 0) = true ∧ (∀ b : BankId, lit.plate[(0 : DomeId)][b].single = []) ∧ (5 : Fin 8).val < 6 ∧ 6 ≤ (6 : Fin 8).val ∧ lit.dieLost[Die.ofDome 0] = false)
    ∧ (lit.feature 7 = true ∧ (lit.wr (.glob (.featAccept 0)) 0).feature 7 = false ∧ 4 ≤ (4 : QWord).toNat % 16)
    ∧ (voted0.toNat % 16 = 0 ∧ Reg.ofAddr? (bitsOf voted0.toNat 32 32) = some (.merDpll 0) ∧ ((Reg.merDpll 0).fields.find? (·.voted)).isSome = true)
    ∧ ((0x12 : QWord).toNat % 16 = 2 ∧ bitsOf (0x12 : QWord).toNat 4 3 < 6 ∧ bitsOf (0x12 : QWord).toNat 32 32 < bankWords 1) := by decide +kernel

/-- An owner is enrolled, with the hash of 64 bytes of zeros, and has this attestation key. -/
def owned (key : Option Nat) : State := { lit with sec := { lit.sec with ownerHash := some (lit.hostRead 0x9000 64), enrolled := true, attKey := key, darkFuses := lit.sec.darkFuses.set 0 (some 0x2040) } }
def generating (s : State) : State := s.raise (.ext .secStatus) SEC_STATUS.ATT_GEN
theorem meets_KeysAreManaged : (lit.sec.ownerHash = none) ∧ ((owned none).Ordinary ∧ (owned none).sec.ownerHash = some ((owned none).hostRead 0x9000 64) ∧ (owned none).sec.enrolled = true ∧ (owned none).sec.ownerHash ≠ some ((owned none).hostRead 0x50000 64))
    ∧ ((owned none).isSet (.ext .secStatus) SEC_STATUS.ATT_GEN = false ∧ (owned none).sec.attKey = none ∧ (owned (some 5)).sec.attKey = some 5 ∧ (owned (some 5)).isSet (.ext .secStatus) SEC_STATUS.ATT_GEN = false)
    ∧ ((generating (owned none)).Ordinary ∧ (generating (owned none)).isSet (.ext .secStatus) SEC_STATUS.ATT_GEN = true)
    ∧ (lit.feature 6 = true ∧ (playing id).feature 6 = true ∧ (playing id).chans[(0 : ChanId)].st.busy = true ∧ ∀ c : ChanId, (owned none).chans[c].st.busy = false)
    ∧ ((owned none).feature 6 = true ∧ 0 ∈ maskChans 1 ∧ (owned none).sec.darkFuses[(0 : ChanId)] = some 0x2040 ∧ (0x2040 : BitVec 16) ≠ (Vector.replicate 16 (7 : BitVec 16))[(0 : ChanId)]
      ∧ (∀ c : ChanId, (owned none).sec.darkFuses[c] = none ∨ (owned none).sec.darkFuses[c] = some (Vector.replicate 16 (0x2040 : BitVec 16))[c])) := by decide +kernel

/-! ### The manual's worked examples -/

/-- Entry 0 of the dam-gallery pulse train, encoded in 02_characteristics.md. -/
def dam0 : EntryWords := ⟨0x2004900000004000, 0x0000000100000050, 1, 0, 0, 0x08000003, 2, 0x4200000000000000⟩
def dam8 : EntryWords := ⟨0x00003F0000000000, 0x0000F2E400000002, 0, 0, 0, 0, 0, 0x0200000000000000⟩
theorem test_entry_fields : (dam0.segAddr, dam0.format, dam0.interp, dam0.home, dam0.pubCh) = (0x4000, 0x10, 2, 2, 0x20) ∧ (dam0.lenG, dam0.repeats, dam0.loopOp, dam0.next, dam0.ncoOp) = (80, 1, 0, 1, 2)
    ∧ (mkMode (dam0.marker 0), mkStart (dam0.marker 0), mkWidth (dam0.marker 0), dam0.marker 1) = (3, 0, 128, 0) ∧ (dam0.gain, dam0.pubStart, dam0.pubEnd, dam0.isEnd) = (0x20000, true, false, false)
    ∧ (dam8.format, dam8.lenG, dam8.repeats, dam8.gain) = (0x3F, 2, 62180, 0x20000) ∧ dam0.fieldsOk = true ∧ dam8.fieldsOk = true := by decide +kernel

/-- The calibration burst of nested loops: three outer passes of 99 gc, and entry 4. -/
def loopEntry (len n op count target next : Nat) : EntryWords := { entryOf 0x3F len n next 0 (if op = 0 then 1 else 0) with w1 := fields [(len, 0), (n, 32), (op, 56)], w2 := fields [(next, 0), (target, 16), (count, 32)] }
def burst : Table := ⟨5, [(0, loopEntry 4 1 1 3 0 1), (1, loopEntry 6 2 1 5 0 2), (2, loopEntry 3 1 2 0 1 3), (3, loopEntry 10 2 2 0 0 4), (4, loopEntry 2 1 0 0 0 0)]⟩
/-- Granules from the start of an iteration to the stop at END. -/
def granulesLeft : Nat → WalkPos → Nat
  | 0, _ => 0
  | n + 1, w => (burst.entry w.entry).lenG + match pathStep burst w with | some w' => granulesLeft n w' | none => 0
theorem test_nested_loop : (enterFrames (burst.entry 0) false []).map (fun fs => granulesLeft 100 ⟨0, 0, fs⟩) = some 299 ∧ depthFail burst 0 = none
    ∧ walkNext burst ⟨2, 0, [⟨5, false⟩, ⟨3, false⟩]⟩ = .visit 1 true [⟨4, false⟩, ⟨3, false⟩] ∧ walkNext burst ⟨2, 0, [⟨1, false⟩, ⟨3, false⟩]⟩ = .visit 3 false [⟨3, false⟩]
    ∧ walkNext burst ⟨3, 1, [⟨1, false⟩]⟩ = .visit 4 false [] ∧ walkNext burst ⟨4, 0, []⟩ = .stop := by decide +kernel

/-- "Cutoffs on a repeated entry" of 03_jumps_and_cutoffs.md: entry 5 at gc 1,000, 100 gc three times, then entry 6 of 50 gc. -/
def cutoffs : Table := ⟨7, [(5, entryOf 0x3F 100 3 6 0 0), (6, entryOf 0x3F 50 1 0 0 1)]⟩
theorem test_boundary_cutoffs : [1060, 1061, 1080].map (fun r => boundaryFrom cutoffs r 40 9 ⟨5, 0, []⟩ 32000) = [some (32 * 1100), some (32 * 1200), some (32 * 1200)]
    ∧ boundaryFrom cutoffs 1299 40 9 ⟨5, 2, []⟩ (32 * 1200) = some (32 * 1350) := by decide +kernel

/-- "A timed splice at the edge of a window": the edge at sample 1,741,517 lies at offset 45,517 of iteration 2 of a visit from sample 1,600,000. -/
def splice : State := ((playing (fun x => { x with entry := 20, iter := 2, visitStart := 1600000, spanStart := 1600000, iterStart := 1792000, iterFirst := 1792000 })).setFld (.winOpen 0 4) WINk_OPEN.OPEN 30000).setFld (.winClose 0 4) WINk_CLOSE.CLOSE 60000
def spliceWord : Nat := 72 + 21 * 256 + 2 * 2 ^ 24 + 2 ^ 26 + 4 * 2 ^ 27
theorem test_window : splice.chans[(0 : ChanId)].visitAt 96000 1741517 = some (20, 45517) ∧ splice.passes 0 ⟨1, 20, spliceWord, 45517⟩ = true ∧ splice.passes 0 ⟨1, 20, spliceWord, 29999⟩ = false
    ∧ splice.passes 0 ⟨1, 20, spliceWord, 60000⟩ = false := by decide +kernel

/-- "A crossing with refreshes owed" of 11_mooring.md: 6 owed become 12: 8 owed and 4 urgent. -/
def crossing : State := (built.setRole 0 2 0).setOwed 0 2 1 6
theorem test_crossing : (match exec (.tempRead 0 2 90 true) crossing with | .next t => (t.owed 0 2 1, t.moor[(0 : DomeId)].ports[(2 : PortId)].subs[(1 : Fin 4)].urgent, t.fld (.mpState 0 2) MP_STATE.TEMP) | _ => (0, 0, 0)) = (8, 4, 90) := by
  decide +kernel

/-- The addresses of "An owner re-centring routine" of 10_orrery.md. -/
theorem test_addresses : (Reg.biasLevel 3).addr = 0x4501C4 ∧ (Reg.biasNow 3).addr = 0x4501D4 ∧ (Reg.lookBias 3).addr = 0x46008C := by decide +kernel

/-- The Lantern latencies of R105. -/
theorem test_latencies : [0, 1, 2, 3, 4].map lgOf = [12, 14, 16, 19, 23] := by decide +kernel
end Sys2Proof.Tests
end

section
/-! The set-up map is one-to-one: the decoder of offsets finds every register at its own offset, so no two registers share one (R368). The register table's canonical form rests on it. -/
namespace Sys2Proof.Proofs
open Sys2Proof Sys2Proof.Machine Sys2Proof.Laws

/-! ### Lookups, arrays and blocks of registers -/

section
variable {α : Type} {n start stride x : Nat}

@[simp] theorem lookup_cons_of_ne {k : Nat} {v : α} {l : List (Nat × α)} (h : x ≠ k) : List.lookup x ((k, v) :: l) = List.lookup x l := by
  rw [List.lookup_cons, beq_eq_false_iff_ne.2 h]

@[simp] theorem regArray_miss {f : Fin n → Reg} (h : ¬ (start ≤ x ∧ (x - start) % stride = 0 ∧ (x - start) / stride < n)) : regArray n start stride x f = none := dif_neg h

@[simp] theorem blockAt_miss {f : Fin n → Nat → Option Reg} (h : ¬ (start ≤ x ∧ (x - start) / stride < n)) : blockAt n start stride x f = none := dif_neg h

/-- An offset in copy `i` of a repeated block: that of `z` in copy 0, `i` strides on. -/
@[simp] theorem blockAt_hit {f : Fin n → Nat → Option Reg} {z : Nat} (hl : start ≤ z) (hz : z < start + stride) (i : Fin n) :
    blockAt n start stride (z + i.val * stride) f = f i (z - start) := by
  have hy : z - start < stride := by omega
  have e : z + i.val * stride - start = z - start + i.val * stride := by omega
  have hd : (z + i.val * stride - start) / stride = i.val := by rw [e, Nat.add_mul_div_right _ _ (Nat.zero_lt_of_lt hy), Nat.div_eq_of_lt hy, Nat.zero_add]
  have hm : (z + i.val * stride - start) % stride = z - start := by rw [e, Nat.add_mul_mod_self_right, Nat.mod_eq_of_lt hy]
  unfold blockAt
  rw [dif_pos ⟨by omega, by rw [hd]; exact i.isLt⟩, hm]
  exact congrArg (f · _) (Fin.ext hd)

theorem blockAt_add {f : Fin n → Nat → Option Reg} (i : Fin n) {y : Nat} (hy : y < stride) : blockAt n start stride (start + i.val * stride + y) f = f i y := by
  rw [Nat.add_right_comm, blockAt_hit (by omega) (by omega), Nat.add_sub_cancel_left]

/-- The offset of register `k` of an array. -/
@[simp] theorem regArray_hit {f : Fin n → Reg} (hs : 0 < stride) (k : Fin n) : regArray n start stride (start + k.val * stride) f = some (f k) := by
  have e : start + k.val * stride - start = k.val * stride := by omega
  have hd : (start + k.val * stride - start) / stride = k.val := by rw [e, Nat.mul_div_cancel _ hs]
  unfold regArray
  rw [dif_pos ⟨by omega, by rw [e, Nat.mul_mod_left], by rw [hd]; exact k.isLt⟩]
  exact congrArg (some <| f ·) (Fin.ext hd)

@[simp] theorem regArray_hit_zero {f : Fin n → Reg} (hs : 0 < stride) (k : Fin n) : regArray n 0 stride (k.val * stride) f = some (f k) := by
  simpa using regArray_hit (start := 0) hs k

end

/-! ### Windows and blocks: what an offset in each of them names -/

/-- The place of a channel on its Lamp. -/
def placeOf (c : ChanId) : Fin 4 := ⟨c.val % 4, by omega⟩
/-- The place of a bias line on its Lamp. -/
def placeOfBias (b : BiasId) : Fin 8 := ⟨b.val % 8, by omega⟩
/-- The place of a stream on its Dome. -/
def placeOfStream (st : StreamId) : Fin 8 := ⟨st.val % 8, by omega⟩
/-- The place of a keeper on its Dome. -/
def placeOfKeeper (k : KeeperId) : Fin 2 := ⟨k.val % 2, by omega⟩

@[simp] theorem chanOfLamp_lampOf (c : ChanId) : chanOfLamp (lampOf c) (placeOf c) = c := Fin.ext (Nat.div_add_mod c.val 4)
@[simp] theorem biasOfLamp_lampOfBias (b : BiasId) : biasOfLamp (lampOfBias b) (placeOfBias b) = b := Fin.ext (Nat.div_add_mod b.val 8)
@[simp] theorem streamOfDome_domeOfStream (st : StreamId) : streamOfDome (domeOfStream st) (placeOfStream st) = st := Fin.ext (Nat.div_add_mod st.val 8)
@[simp] theorem keeperOfDome_domeOfKeeper (k : KeeperId) : keeperOfDome (domeOfKeeper k) (placeOfKeeper k) = k := Fin.ext (Nat.div_add_mod k.val 2)

section
variable {a x y : Nat} {r : Reg}

theorem ofAddr?_merid (m : MerId) (hx : x < 0x80000) : Reg.ofAddr? (0x100000 + m.val * 0x80000 + x) = Reg.meridAt m x := by
  unfold Reg.ofAddr?
  match m with
  | 0 =>
    rw [if_neg (by omega), if_pos (by omega)]
    exact congrArg (Reg.meridAt 0) (by omega)
  | 1 =>
    rw [if_neg (by omega), if_neg (by omega), if_pos (by omega)]
    exact congrArg (Reg.meridAt 1) (by omega)

theorem ofAddr?_meridA (hx : x < 0x80000) : Reg.ofAddr? (0x100000 + x) = Reg.meridAt 0 x := by
  simpa using ofAddr?_merid 0 hx

theorem ofAddr?_dome (d : DomeId) (hx : x < 0x100000) : Reg.ofAddr? (0x200000 + d.val * 0x100000 + x) = Reg.domeAt d x := by
  unfold Reg.ofAddr?
  match d with
  | 0 =>
    rw [if_neg (by omega), if_neg (by omega), if_neg (by omega), if_pos (by omega)]
    exact congrArg (Reg.domeAt 0) (by omega)
  | 1 =>
    rw [if_neg (by omega), if_neg (by omega), if_neg (by omega), if_neg (by omega), if_pos (by omega)]
    exact congrArg (Reg.domeAt 1) (by omega)

theorem ofAddr?_lamp (n : LampId) (hx : x < 0x100000) : Reg.ofAddr? (0x400000 + n.val * 0x100000 + x) = Reg.lampAt n x := by
  unfold Reg.ofAddr?
  rw [if_neg (by omega), if_neg (by omega), if_neg (by omega), if_neg (by omega), if_neg (by omega), if_pos (by omega), blockAt_add n hx]

theorem ofAddr?_global (ha : a = 0x0 + y) (hy : y < 0x100000) (h : Reg.globalAt y = some r) : Reg.ofAddr? a = some r := by
  rw [ha, Nat.zero_add]; unfold Reg.ofAddr?; rw [if_pos hy, h]

theorem ofAddr?_bcn (ha : a = 0x800000 + y) (hy : y < 0x200000) (h : Reg.bcnAt y = some r) : Reg.ofAddr? a = some r := by
  unfold Reg.ofAddr?
  rw [if_neg (by omega), if_neg (by omega), if_neg (by omega), if_neg (by omega), if_neg (by omega), if_neg (by omega), if_pos (by omega), ha, Nat.add_sub_cancel_left, h]

theorem meridAt_mer (m : MerId) (hy : y < 0x10000) (h : Reg.merAt m y = some r) : Reg.meridAt m y = some r := by
  unfold Reg.meridAt; rw [if_pos hy, h]; rfl

/-- The Meridian's own registers end below the always-on block. -/
theorem meridAt_ext (m : MerId) (hl : 0x800 ≤ y) (hy : y < 0x10000) : Reg.meridAt m y = Reg.extAt y := by
  have hm : Reg.merAt m y = none := by simp (disch := omega) [Reg.merAt]
  unfold Reg.meridAt; rw [if_pos hy, hm]; rfl

theorem meridAt_trn (m : MerId) (h : Reg.trnAt m y = some r) : Reg.meridAt m (0x10000 + y) = some r := by
  unfold Reg.meridAt; rw [if_neg (by omega), Nat.add_sub_cancel_left, h]; rfl

theorem meridAt_trnShared (m : MerId) (hn : Reg.trnAt m y = none) : Reg.meridAt m (0x10000 + y) = Reg.trnSharedAt y := by
  unfold Reg.meridAt; rw [if_neg (by omega), Nat.add_sub_cancel_left, hn]; rfl

theorem ofAddr?_mer (m : MerId) (ha : a = 0x100000 + m.val * 0x80000 + y) (hy : y < 0x10000) (h : Reg.merAt m y = some r) : Reg.ofAddr? a = some r := by
  rw [ha, ofAddr?_merid m (by omega), meridAt_mer m hy h]

theorem ofAddr?_ext (ha : a = 0x100000 + y) (hl : 0x800 ≤ y) (hy : y < 0x10000) (h : Reg.extAt y = some r) : Reg.ofAddr? a = some r := by
  rw [ha, ofAddr?_meridA (by omega), meridAt_ext 0 hl hy, h]

theorem ofAddr?_trn (m : MerId) (ha : a = 0x110000 + m.val * 0x80000 + y) (hy : y < 0x70000) (h : Reg.trnAt m y = some r) : Reg.ofAddr? a = some r := by
  have e : a = 0x100000 + m.val * 0x80000 + (0x10000 + y) := by omega
  rw [e, ofAddr?_merid m (by omega), meridAt_trn m h]

theorem ofAddr?_trnShared (ha : a = 0x110000 + y) (hy : y < 0x70000) (hn : Reg.trnAt 0 y = none) (h : Reg.trnSharedAt y = some r) : Reg.ofAddr? a = some r := by
  have e : a = 0x100000 + (0x10000 + y) := by omega
  rw [e, ofAddr?_meridA (by omega), meridAt_trnShared 0 hn, h]

theorem ofAddr?_tnd (st : StreamId) (ha : a = 0x200000 + st.val / 8 * 0x100000 + 0x60000 + st.val % 8 * 0x100 + y) (hy : y < 0x100) (h : Reg.tndAt st y = some r) : Reg.ofAddr? a = some r := by
  have e : a = 0x200000 + (domeOfStream st).val * 0x100000 + (0x60000 + (placeOfStream st).val * 0x100 + y) := by simp only [ha, domeOfStream, placeOfStream, Nat.add_assoc]
  rw [e, ofAddr?_dome _ (by omega)]
  unfold Reg.domeAt
  rw [if_pos (by omega), blockAt_add _ hy, streamOfDome_domeOfStream, h]

theorem ofAddr?_kpr (k : KeeperId) (ha : a = 0x200000 + k.val / 2 * 0x100000 + 0x70000 + k.val % 2 * 0x1000 + y) (hy : y < 0x1000) (h : Reg.kprAt k y = some r) : Reg.ofAddr? a = some r := by
  have e : a = 0x200000 + (domeOfKeeper k).val * 0x100000 + (0x70000 + (placeOfKeeper k).val * 0x1000 + y) := by simp only [ha, domeOfKeeper, placeOfKeeper, Nat.add_assoc]
  rw [e, ofAddr?_dome _ (by omega)]
  unfold Reg.domeAt
  rw [if_neg (by omega), if_pos (by omega), blockAt_add _ hy, keeperOfDome_domeOfKeeper, h]

theorem ofAddr?_moor (d : DomeId) (ha : a = 0x280000 + d.val * 0x100000 + y) (hy : y < 0x1000) (h : Reg.moorAt d y = some r) : Reg.ofAddr? a = some r := by
  have e : a = 0x200000 + d.val * 0x100000 + (0x80000 + y) := by omega
  rw [e, ofAddr?_dome d (by omega)]
  unfold Reg.domeAt
  rw [if_neg (by omega), if_neg (by omega), if_pos (by omega), Nat.add_sub_cancel_left, h]

theorem ofAddr?_mp (d : DomeId) (p : PortId) (ha : a = 0x281000 + d.val * 0x100000 + p.val * 0x1000 + y) (hy : y < 0x1000) (h : Reg.mpAt d p y = some r) : Reg.ofAddr? a = some r := by
  have e : a = 0x200000 + d.val * 0x100000 + (0x81000 + p.val * 0x1000 + y) := by omega
  rw [e, ofAddr?_dome d (by omega)]
  unfold Reg.domeAt
  rw [if_neg (by omega), if_neg (by omega), if_neg (by omega), if_pos (by omega), blockAt_add p hy, h]

theorem ofAddr?_pb (d : DomeId) (ha : a = 0x290000 + d.val * 0x100000 + y) (hy : y < 0x100) (h : Reg.pbAt d y = some r) : Reg.ofAddr? a = some r := by
  have e : a = 0x200000 + d.val * 0x100000 + (0x90000 + y) := by omega
  rw [e, ofAddr?_dome d (by omega)]
  unfold Reg.domeAt
  rw [if_neg (by omega), if_neg (by omega), if_neg (by omega), if_neg (by omega), if_pos (by omega), Nat.add_sub_cancel_left, h]

theorem ofAddr?_pbBank (d : DomeId) (b : BankId) (ha : a = 0x290100 + d.val * 0x100000 + b.val * 0x20 + y) (hy : y < 0x20) (h : Reg.pbBankAt d b y = some r) : Reg.ofAddr? a = some r := by
  have e : a = 0x200000 + d.val * 0x100000 + (0x90100 + b.val * 0x20 + y) := by omega
  rw [e, ofAddr?_dome d (by omega)]
  unfold Reg.domeAt
  rw [if_neg (by omega), if_neg (by omega), if_neg (by omega), if_neg (by omega), if_neg (by omega), if_pos (by omega), blockAt_add b hy, h]

/-- The last block of a DOME window: a Dome's own host registers, and those both Domes share. -/
theorem ofAddr?_hst (d : DomeId) (ha : a = 0x2A0000 + d.val * 0x100000 + y) (hy : y < 0x60000) (h : (Reg.hstAt d y <|> Reg.hstSharedAt y) = some r) : Reg.ofAddr? a = some r := by
  have e : a = 0x200000 + d.val * 0x100000 + (0xA0000 + y) := by omega
  rw [e, ofAddr?_dome d (by omega)]
  unfold Reg.domeAt
  rw [if_neg (by omega), if_neg (by omega), if_neg (by omega), if_neg (by omega), if_neg (by omega), if_neg (by omega), Nat.add_sub_cancel_left, h]

/-- A channel's registers in the window of its Lamp. -/
theorem ofAddr?_chan (c : ChanId) {base stride : Nat} (ha : a = lampBase c + base + c.val % 4 * stride + y) (hx : base + c.val % 4 * stride + y < 0x100000) :
    Reg.ofAddr? a = Reg.lampAt (lampOf c) (base + (placeOf c).val * stride + y) := by
  have e : a = 0x400000 + (lampOf c).val * 0x100000 + (base + (placeOf c).val * stride + y) := by simp only [ha, lampBase, lampOf, placeOf, Nat.add_assoc]
  rw [e]
  exact ofAddr?_lamp (lampOf c) hx

theorem ofAddr?_char (c : ChanId) (ha : a = lampBase c + 0x20000 + c.val % 4 * 0x1000 + y) (hy : y < 0x800) (h : Reg.charAt c y = some r) : Reg.ofAddr? a = some r := by
  rw [ofAddr?_chan c ha (by omega)]
  unfold Reg.lampAt
  rw [if_pos (by omega), blockAt_add _ (by omega), if_pos hy, chanOfLamp_lampOf, h]

theorem ofAddr?_jmp (c : ChanId) (ha : a = lampBase c + 0x20800 + c.val % 4 * 0x1000 + y) (hy : y < 0x800) (h : Reg.jmpAt c y = some r) : Reg.ofAddr? a = some r := by
  have e : a = lampBase c + 0x20000 + c.val % 4 * 0x1000 + (0x800 + y) := by omega
  rw [ofAddr?_chan c e (by omega)]
  unfold Reg.lampAt
  rw [if_pos (by omega), blockAt_add _ (by omega), if_neg (by omega), chanOfLamp_lampOf, Nat.add_sub_cancel_left, h]

theorem ofAddr?_lant (c : ChanId) (ha : a = lampBase c + 0x30000 + c.val % 4 * 0x1000 + y) (hy : y < 0x1000) (h : Reg.lantAt c y = some r) : Reg.ofAddr? a = some r := by
  rw [ofAddr?_chan c ha (by omega)]
  unfold Reg.lampAt
  rw [if_neg (by omega), if_pos (by omega), blockAt_add _ hy, chanOfLamp_lampOf, h]

theorem ofAddr?_out (c : ChanId) (ha : a = lampBase c + 0x40000 + c.val % 4 * 0x1000 + y) (hy : y < 0x1000) (h : Reg.outAt c y = some r) : Reg.ofAddr? a = some r := by
  rw [ofAddr?_chan c ha (by omega)]
  unfold Reg.lampAt
  rw [if_neg (by omega), if_neg (by omega), if_pos (by omega), blockAt_add _ hy, chanOfLamp_lampOf, h]

theorem ofAddr?_ory (c : ChanId) (ha : a = lampBase c + 0x70000 + c.val % 4 * 0x100 + y) (hy : y < 0x100) (h : Reg.oryAt c y = some r) : Reg.ofAddr? a = some r := by
  rw [ofAddr?_chan c ha (by omega)]
  unfold Reg.lampAt
  rw [if_neg (by omega), if_neg (by omega), if_neg (by omega), if_neg (by omega), if_neg (by omega), blockAt_add _ hy, chanOfLamp_lampOf, h]

theorem ofAddr?_biasCommon (n : LampId) (ha : a = 0x400000 + n.val * 0x100000 + 0x50000 + y) (hy : y < 0x100) (h : Reg.biasCommonAt n y = some r) : Reg.ofAddr? a = some r := by
  rw [ha, Nat.add_assoc _ 0x50000, ofAddr?_lamp n (by omega)]
  unfold Reg.lampAt
  rw [if_neg (by omega), if_neg (by omega), if_neg (by omega), if_pos (by omega), if_pos (by omega), Nat.add_sub_cancel_left, h]

theorem ofAddr?_biasLine (b : BiasId) (ha : a = 0x400000 + b.val / 8 * 0x100000 + 0x50100 + b.val % 8 * 0x40 + y) (hy : y < 0x40) (h : Reg.biasLineAt b y = some r) : Reg.ofAddr? a = some r := by
  have e : a = 0x400000 + (lampOfBias b).val * 0x100000 + (0x50100 + (placeOfBias b).val * 0x40 + y) := by simp only [ha, lampOfBias, placeOfBias, Nat.add_assoc]
  rw [e, ofAddr?_lamp _ (by omega)]
  unfold Reg.lampAt
  rw [if_neg (by omega), if_neg (by omega), if_neg (by omega), if_pos (by omega), if_neg (by omega), blockAt_add _ hy, biasOfLamp_lampOfBias, h]

/-- The lookout's block of a LAMP window. -/
theorem lampAt_look (n : LampId) (hl : 0x60000 ≤ x) (hx : x < 0x70000) : Reg.lampAt n x = (Reg.lookAt n (x - 0x60000)
    <|> regArray 4 0x60040 8 x (fun i => .lookMean (chanOfLamp n i)) <|> regArray 4 0x60044 8 x (fun i => .lookRms (chanOfLamp n i))
    <|> regArray 4 0x60060 4 x (fun i => .lookCell (chanOfLamp n i)) <|> regArray 8 0x60080 4 x (fun i => .lookBias (biasOfLamp n i))) := by
  unfold Reg.lampAt
  rw [if_neg (by omega), if_neg (by omega), if_neg (by omega), if_neg (by omega), if_pos hx]

theorem ofAddr?_look (n : LampId) (ha : a = 0x400000 + n.val * 0x100000 + 0x60000 + y) (hy : y < 0x10000) (h : Reg.lookAt n y = some r) : Reg.ofAddr? a = some r := by
  rw [ha, Nat.add_assoc _ 0x60000, ofAddr?_lamp n (by omega), lampAt_look n (by omega) (by omega), Nat.add_sub_cancel_left, h]
  rfl

/-- An array of the lookout's block with one register for each channel of the Lamp. -/
theorem ofAddr?_lookArray (c : ChanId) {stride : Nat} (ha : a = lampBase c + 0x60000 + y + c.val % 4 * stride) (hy : y + c.val % 4 * stride < 0x10000)
    (h : Reg.lampAt (lampOf c) (0x60000 + y + (placeOf c).val * stride) = some r) : Reg.ofAddr? a = some r := by
  have e : a = lampBase c + (0x60000 + y) + c.val % 4 * stride + 0 := by omega
  rw [ofAddr?_chan c e (by omega)]
  exact h

theorem ofAddr?_snap (ha : a = 0xF00000 + y) (hy : y < 0x100000) (h : Reg.snapHeaderAt y = some r) : Reg.ofAddr? a = some r := by
  unfold Reg.ofAddr?
  rw [if_neg (by omega), if_neg (by omega), if_neg (by omega), if_neg (by omega), if_neg (by omega), if_neg (by omega), if_neg (by omega), if_pos (by omega), ha, Nat.add_sub_cancel_left, h]

end

/-! ### Every register is found at its own offset (R368) -/

theorem ofAddr?_addr_glob (g : GlobReg) : Reg.ofAddr? (Reg.glob g).addr = some (.glob g) := by
  cases g with
  | gId | gRev | serialLo | serialHi | gFunc | gStart | gEpoch | snapMax | dbLo | dbHi | dring0Lo | dring0Hi | dring0Cfg | rring0Lo | rring0Hi | rring0Cfg | rring0Coal
  | regStatus | violAddr | parityAddr | lockedWr =>
    exact ofAddr?_global rfl (by decide) rfl
  | featOffer k | featAccept k | voteCorr die | parityErr die =>
    exact ofAddr?_global (Nat.add_assoc _ _ _) (by omega) (by simp (disch := omega) [Reg.globalAt])

theorem ofAddr?_addr_ext (x : ExtReg) : Reg.ofAddr? (Reg.ext x).addr = some (.ext x) := by
  cases x with
  | pwrCtrl | pwrState | pwrStatus | pwrSaveA | pwrSaveB | pwrExcl | ledgCtrl | ledgStatus | ledgStart | ledgStepsLo | ledgStepsHi | ledgAlt | availCond | availLapses
  | secStatus | secFloors | secOwnerFloor | secHatch | telCase =>
    exact ofAddr?_ext rfl (by decide) (by decide) rfl
  | pwrDom j | secOwnerHash k | secAttHash k | secAttKey k | telDie die | telRail j =>
    exact ofAddr?_ext (Nat.add_assoc _ _ _) (by omega) (by omega) (by simp (disch := omega) [Reg.extAt])

theorem ofAddr?_addr_eng (m : MerId) (e : EngId) (q : EngReg) : Reg.ofAddr? (Reg.eng m e q).addr = some (.eng m e q) := by
  cases q with
  | ctrl | n | timeout | status | pLo | pHi | t0Lo | t0Hi | count | unres | order | other | meanLo | meanHi | sd | minLo | minHi | maxLo | maxHi =>
    exact ofAddr?_trn m (Nat.add_assoc _ _ _) (by omega) (by simp (disch := omega) [Reg.trnAt])

theorem ofAddr?_addr_trnInLast (m : MerId) (k : TrnIn) (w : Fin 4) : Reg.ofAddr? (Reg.trnInLast m k w).addr = some (.trnInLast m k w) := by
  refine ofAddr?_trn m (y := 0x500 + k.val * 16 + w.val * 4) (by simp only [Reg.addr, Nat.add_assoc]) (by omega) ?_
  simp (disch := omega) [Reg.trnAt, blockAt_add]

theorem ofAddr?_addr_lookBias (b : BiasId) : Reg.ofAddr? (Reg.lookBias b).addr = some (.lookBias b) := by
  have e : (Reg.lookBias b).addr = 0x400000 + (lampOfBias b).val * 0x100000 + (0x60080 + (placeOfBias b).val * 4) := by
    simp only [Reg.addr, lampOfBias, placeOfBias]; omega
  rw [e, ofAddr?_lamp _ (by omega), lampAt_look _ (by omega) (by omega)]
  simp (disch := omega) [Reg.lookAt]

/-- The decoder names every register at its own offset (R368). -/
theorem ofAddr?_addr (r : Reg) : Reg.ofAddr? r.addr = some r := by
  cases r with
  | charCtrl c | charTable c | charSwap c | charPos c | charIter c | charGoff c | charPlayedLo c | charPlayedHi c | charLead c | charStatus c | charFault c | charPrimeGap c
  | charSegLost c | charForever c =>
    exact ofAddr?_char c rfl (by decide) rfl
  | charFrame c k =>
    exact ofAddr?_char c (Nat.add_assoc _ _ _) (by omega) (by simp (disch := omega) [Reg.charAt])
  | jmpCtrl c | jmpGroup c | jmpStatus c | jmpPend c | jmpPendGc c | jmpLast c | jmpLastSrc c | jmpLastReg c | jmpLastGc c | jmpTaken c | jmpDropped c | jmpUnmatched c
  | jmpDegraded c | jmpLate c | jmpIgnored c =>
    exact ofAddr?_jmp c rfl (by decide) rfl
  | jmpReady c k | winOpen c k | winClose c k | winDelay c k =>
    exact ofAddr?_jmp c (Nat.add_assoc _ _ _) (by omega) (by simp (disch := omega) [Reg.jmpAt])
  | lantCtrl c | lantStatus c | lantSat c | lantTrim c | lantPoff c | lantDdsAmp c | lantNco c | lantLatency c | lantRateLo c | lantRateHi c =>
    exact ofAddr?_lant c rfl (by decide) rfl
  | lantSecFreqLo c k | lantSecFreqHi c k | lantSecPhase c k | lantHb c k | lantCurve c j =>
    exact ofAddr?_lant c (Nat.add_assoc _ _ _) (by omega) (by simp (disch := omega) [Reg.lantAt])
  | tndCtrl st | tndRegion st | tndRingLo st | tndRingHi st | tndConsLo st | tndConsHi st | tndWmA st | tndWmB st | tndFallback st | tndLimit st | tndState st
  | tndStatus st | tndFill st | tndPosLo st | tndPosHi st | tndLanded st | tndUnderruns st | tndSkipped st | tndGapLast st | tndGapTotal st | tndDiscarded st =>
    exact ofAddr?_tnd st rfl (by decide) rfl
  | outCtrl c | outState c | outStatus c | outDark c | outMkDelay c | outDiscard c | outDarknGran c | outCell c =>
    exact ofAddr?_out c rfl (by decide) rfl
  | biasCommon n =>
    exact ofAddr?_biasCommon n rfl (by decide) rfl
  | biasCtrl b | biasLevel b | biasSlew b | biasClampLo b | biasClampHi b | biasNow b | biasPaddr b | biasPdata b | biasQfill b | biasStatus b | biasClamped b =>
    exact ofAddr?_biasLine b rfl (by decide) rfl
  | lookCtrl n | lookThr n | lookThrB n | lookBiasThr n | lookStatus n | lookSkipped n =>
    exact ofAddr?_look n rfl (by decide) rfl
  | merCtrl m | merState m | merStatus m | merDpll m | merSlew m | merRefOffset m | merDpllCmd m | merSfreq m | merApply m | merSyncCtrl m | merSyncLat m | merSyncComp m
  | merEchoDly m | merSyncDev m | merSyncFine m | merSyncStampLo m | merSyncStampHi m | merTwinBad m | merSel m | merFov m | merFovTimeLo m | merFovTimeHi m | merLight m =>
    exact ofAddr?_mer m rfl (by decide) rfl
  | merOut m k | merTwinCal m n | merBall m c =>
    exact ofAddr?_mer m (Nat.add_assoc _ _ _) (by omega) (by simp (disch := omega) [Reg.merAt])
  | trnCtrl | trnLogCtrl | trnLogWr | trnLogRd | trnLogDrop =>
    exact ofAddr?_trnShared rfl (by decide) rfl rfl
  | trnStatus m | trnCal m | trnStuck0 m | trnStuck1 m | trnNowLo m | trnNowHi m =>
    exact ofAddr?_trn m rfl (by decide) rfl
  | trnPort p | trnInCtrl k | trnInStuck k | trnTiLevel j =>
    exact ofAddr?_trnShared (Nat.add_assoc _ _ _) (by omega) (by simp (disch := omega) [Reg.trnAt]) (by simp (disch := omega) [Reg.trnSharedAt])
  | trnInOff m k | trnInMissed m k =>
    exact ofAddr?_trn m (Nat.add_assoc _ _ _) (by omega) (by simp (disch := omega) [Reg.trnAt])
  | bcnStatus | bcnInject | bcnDropOff | bcnLegTimeout | bcnLoop =>
    exact ofAddr?_bcn rfl (by decide) rfl
  | bcnInflight k | bcnChOvr ch | bcnEngMerged c | bcnCons i | bcnConsStat i | bcnConsOvr i | bcnConsMerged i | bcnTmrCtrl t | bcnTmrDelay t | bcnTmrMinp t | bcnEvout j
  | bcnSrc sr =>
    exact ofAddr?_bcn (Nat.add_assoc _ _ _) (by omega) (by simp (disch := omega) [Reg.bcnAt])
  | kprCtrl k | kprState k | kprStatus k | kprFault k | kprAbandons k | kprRestarts k | kprCorr k | kprImage k | kprShadow k | kprShdStatus k | kprShdCount k =>
    exact ofAddr?_kpr k rfl (by decide) rfl
  | kprBind k i | kprPub k p =>
    exact ofAddr?_kpr k (Nat.add_assoc _ _ _) (by omega) (by simp (disch := omega) [Reg.kprAt])
  | oryState c | oryStatus c | oryCorr c | oryRecoveries c | oryRecovGran c | oryFault c =>
    exact ofAddr?_ory c rfl (by decide) rfl
  | moorCfg d | moorMap d | moorStatus d | moorWq d | moorRef d | moorMig d | moorScrub d | moorSr d | moorFreq d | moorPoison d | moorLateGran d | moorScrubMismatch d
  | moorSrAborts d | moorMigWm d =>
    exact ofAddr?_moor d rfl (by decide) rfl
  | moorQos d q =>
    exact ofAddr?_moor d (Nat.add_assoc _ _ _) (by omega) (by simp (disch := omega) [Reg.moorAt])
  | mpState d p | mpStatus d p | mpOwed d p | mpCapar d p | mpEdc d p | mpUncorr d p | mpUrgent d p | mpNbr d p | mpAge d p =>
    exact ofAddr?_mp d p rfl (by decide) rfl
  | mpTs0 d p x | mpTs1 d p x | mpTs2 d p x | mpTs3 d p x | mpTs4 d p x | mpTs5 d p x =>
    exact ofAddr?_mp d p (Nat.add_assoc _ _ _) (by omega) (by simp (disch := omega) [Reg.mpAt])
  | pbCtrl d | pbStatus d =>
    exact ofAddr?_pb d rfl (by decide) rfl
  | pbbState d b | pbbCorr d b | pbbUncorr d b | pbbCollide d b | pbbRestores d b | pbbSkipped d b | pbbPasses d b | pbbLast d b =>
    exact ofAddr?_pbBank d b rfl (by decide) rfl
  | hstCtrl d | hstLink d | hstStatus d | hstAsyncDrop d =>
    exact ofAddr?_hst d rfl (by decide) rfl
  | hstDring d r | hstRring d r =>
    exact ofAddr?_hst d (Nat.add_assoc _ _ _) (by omega) (by simp (disch := omega) [Reg.hstAt])
  | hstVroute q =>
    exact ofAddr?_hst 0 (Nat.add_assoc _ _ _) (by omega) (by simp (disch := omega) [Reg.hstAt, Reg.hstSharedAt])
  | hstTxn => exact ofAddr?_hst 0 rfl (by decide) rfl
  | lookMean c | lookRms c | lookCell c =>
    exact ofAddr?_lookArray c rfl (by omega) (by simp (disch := omega) [lampAt_look, Reg.lookAt])
  | lookBias b => exact ofAddr?_addr_lookBias b
  | trnInLast m k w => exact ofAddr?_addr_trnInLast m k w
  | eng m e q => exact ofAddr?_addr_eng m e q
  | glob g => exact ofAddr?_addr_glob g
  | ext x => exact ofAddr?_addr_ext x
  | snapStatus | snapTLo | snapTHi =>
    exact ofAddr?_snap rfl (by decide) rfl

theorem addr_injective : AddrInj := fun r q h => Option.some.inj (by rw [← ofAddr?_addr r, ← ofAddr?_addr q, h])

end Sys2Proof.Proofs
end

section
/-! Every command and every step keeps the queue and the canonical form of the sparse tables: each operation does (the laws of `Kept`), and the set-up map is one-to-one. -/
namespace Sys2Proof.Proofs
open Sys2Proof Sys2Proof.Machine Sys2Proof.Laws

/-! ### A command keeps the queue and the canonical form -/

section
variable {s t : State}

theorem next_kept {u : State} (h : (.next u : Host.Outcome State Fault Refusal) = .next t) (hu : Kept s u) : Kept s t := by
  injection h with h
  exact h ▸ hu

/-- A command on dies keeps what its effect keeps: under test controls (R375) it has that effect on a state that differs in the free value alone, or none. -/
theorem act_kept {dies : List Die} {f : State → State} (h : s.act dies f = .next t) (hf : ∀ u, Kept s u → Kept s (f u)) : Kept s t := by
  have hfresh : Kept s s.fresh.2 := fresh_kept s (kept_refl s)
  rcases act_cases s dies f with e | e | e
  · exact next_kept (e ▸ h) (hf s (kept_refl s))
  · exact next_kept (e ▸ h) (hf _ hfresh)
  · exact next_kept (e ▸ h) hfresh

theorem onMer_kept {m : MerId} {f : State → State} (h : s.onMer m f = .next t) (hf : ∀ u, Kept s u → Kept s (f u)) : Kept s t :=
  act_kept h fun u hu => kept_ite hu (hf u hu)

/-- A descriptor taken from a dispatch ring keeps what its work keeps. -/
theorem act_descriptor_kept {dies : List Die} {d : DescHdr} {code : Nat} {setsUp : Bool} {f : DescRef → State → State}
    (h : s.act dies (·.descriptor d code setsUp f) = .next t) (hf : ∀ ref u, Kept s u → Kept s (f ref u)) : Kept s t :=
  act_kept h fun u hu => descriptor_kept u d code setsUp f hu hf

theorem execMeasureEcho_kept {f : Func} {m : MerId} {drift : Int} (h : execMeasureEcho f m drift s = .next t) : Kept s t :=
  act_kept h fun _ hu => kept_ite (echoMeasured_kept _ m drift (kept_resp hu)) (kept_resp hu)

theorem execMicrowordExecute_kept {e : Sys2Proof.Engine} {ecc : Ecc} (h : execMicrowordExecute e ecc s = .next t) : Kept s t := by
  cases e with
  | channel c => exact act_kept h fun u hu => relayCheck_kept _ (chanStep_kept u c ecc hu)
  | keeper k => exact act_kept h fun u hu => keeperStep_kept u k ecc hu

theorem execRefreshInterval_kept {d : DomeId} {p : PortId} {sc : Fin 4} (h : execRefreshInterval d p sc s = .next t) : Kept s t :=
  act_kept h fun u hu => kept_ite hu (refreshDue_kept u d p sc hu)

theorem execNbrLfsrReseed_kept {d : DomeId} {p : PortId} (h : execNbrLfsrReseed d p s = .next t) : Kept s t :=
  act_kept h fun u hu => updPort_kept _ d p _ (fresh_kept u hu)

theorem execInject_kept {d : DescHdr} {ch : BeaconCh} {info : BitVec 24} (h : execInject d ch info s = .next t) : Kept s t :=
  act_descriptor_kept h fun ref u hu => complete_kept _ ref _ _ (publishOn_kept u _ ch _ none hu)

theorem execTestPbPass_kept {x : DescHdr} {d : DomeId} {b : Fin 8} (h : execTestPbPass x d b s = .next t) : Kept s t :=
  act_descriptor_kept h fun ref u hu => by
    split
    · exact complete_kept _ ref _ _ (plateFullPass_kept u d _ hu)
    · exact complete_kept u ref _ _ hu

theorem execTestLookSelf_kept {d : DescHdr} {lamps : BitVec 4} (h : execTestLookSelf d lamps s = .next t) : Kept s t :=
  act_descriptor_kept h fun ref u hu => complete_kept _ ref _ _ (lookSelfTest_kept u lamps hu)

theorem execTestScrubPass_kept {x : DescHdr} {d : DomeId} (h : execTestScrubPass x d s = .next t) : Kept s t :=
  act_descriptor_kept h fun ref u hu => complete_kept _ ref _ _ (scrubFullPass_kept u d hu)

theorem execTestFaultInject_kept {d : DescHdr} {w2 : QWord} (h : execTestFaultInject d w2 s = .next t) : Kept s t :=
  act_descriptor_kept h fun ref u hu => by
    split
    · exact complete_kept u ref _ _ hu
    · split
      · next e => exact complete_kept _ ref _ _ (faultInject_kept hu e)
      · exact complete_kept u ref _ _ hu

theorem execBeginTxn_kept {d : DescHdr} (h : execBeginTxn d s = .next t) : Kept s t :=
  act_descriptor_kept h fun ref u hu => kept_ite (complete_kept _ ref _ _ (updTxn_kept u _ _ hu)) (complete_kept u ref _ _ hu)

theorem execSetItems_kept {d : DescHdr} {items : List SetItem} (h : execSetItems d items s = .next t) : Kept s t :=
  act_descriptor_kept h fun ref u hu => kept_ite (itemDescriptor_kept u ref _ hu) (complete_kept u ref _ _ hu)

theorem execDmaReadTimeout_kept {ring : RingId} (h : execDmaReadTimeout ring s = .next t) : Kept s t :=
  act_kept h fun u hu => kept_ite hu (dmaFails_kept _ ring (reachTime_kept u _ hu))

/-- PERST# empties the function's MSI-X table (R412), and an empty memory is in canonical form. -/
theorem clearBar2_kept {s0 : State} (f : Func) (hk : Kept s0 s) : Kept s0 (s.updHost (fun h => { h with bar2 := h.bar2.set f [] })) := by
  refine kept_change hk rfl id id (fun hb g => ?_) id id
  simp only [State.updHost, Fin.getElem_fin, Vector.getElem_set]
  split
  · rfl
  · exact hb g

theorem execPerst_kept {f : Func} (h : execPerst f s = .next t) : Kept s t :=
  act_kept h fun u hu => clearBar2_kept f (linkDown_kept u f hu)

theorem execDieReturn_kept {die : Die} (h : execDieReturn die s = .next t) : Kept s t := by
  refine next_kept h ?_
  split
  · exact lampReturns_kept s _ (kept_refl s)
  · exact kept_refl s

/-- Every command keeps the queue and the canonical form: in each arm of `exec` the law of the operation the command performs carries them over. -/
theorem exec_kept (c : Instr) (h : exec c s = .next t) : Kept s t := by
  cases c with dsimp only [exec] at h
  | flitCrcError => exact act_kept h fun u hu => crcError_kept u _ _ _ hu
  | laneSwapDone => exact act_kept h fun u hu => swapDone_kept u _ _ _ hu
  | heartbeatSend => exact act_kept h fun u hu => sendBeat_kept u _ hu
  | heartbeatMissed => exact act_kept h fun u hu => missBeat_kept u _ _ _ hu
  | meridianLost => exact next_kept h (loseMerid_kept s _ (kept_refl s))
  | loadTable => exact act_descriptor_kept h fun ref u hu => loadEntries_kept u ref _ _ _ _ _ hu
  | tableHomeWrite | swapCancel | swapNow | dpllCmdSlew | dpllCmdStepSync | applyNow | syncFire | reqShuttered | reqLit | reqLaidUp | pwrResetWrite | compactWrite =>
    exact act_kept h fun u hu => fieldWrite_kept u _ _ _ _ hu
  | tableMoveDone => exact act_kept h fun u hu => moveDone_kept u _ hu
  | swapTake => exact act_kept h fun u hu => relayCheck_kept _ (swapReached_kept u _ hu)
  | iterationEnd => exact act_kept h fun u hu => relayCheck_kept _ (endIteration_kept u _ hu)
  | entryRead => exact act_kept h fun u hu => relayCheck_kept _ (entryRead_kept u _ _ _ _ hu)
  | lookaheadRequest => exact act_kept h fun u hu => requestAhead_kept u _ _ hu
  | granuleArrive => exact act_kept h fun u hu => granulesArrive_kept u _ _ hu
  | granuleLate => exact act_kept h fun u hu => granuleIsLate_kept u _ hu
  | primingDone => exact act_kept h fun u hu => primed_kept u _ hu
  | startInstant => exact act_kept h fun u hu => relayCheck_kept _ (startNow_kept u _ _ hu)
  | markerPulseStart => exact act_kept h fun u hu => pulseStart_kept u _ _ hu
  | markerPulseEnd => exact act_kept h fun u hu => pulseStop_kept u _ _ hu
  | jumpEventRegister => exact act_kept h fun u hu => jumpEvent_kept u _ _ _ hu
  | jumpTake => exact act_kept h fun u hu => relayCheck_kept _ (jumpReached_kept u _ hu)
  | headReadDone => exact act_kept h fun u hu => headRead_kept u _ _ _ hu
  | groupOrderReceive => exact act_kept h fun u hu => groupOrder_kept u _ hu
  | featAccept0Write | freqLoWrite | freqHiWrite | tndAttachWrite | tndDetachWrite | tndLimitWrite | tndWmWrite | biasPdataWrite | biasCtrlWrite | engRunStart | engRunAbort
  | bcnInjectWrite | timerStartWrite | timerStopWrite | migStartWrite | freqGo | dring0EnWrite | rring0EnWrite | clearAltWrite =>
    exact act_kept h fun u hu => regWrite_kept u _ _ _ hu
  | chirpCurveStep => exact act_kept h fun u hu => chirpStep_kept u _ hu
  | streamAttach => exact act_descriptor_kept h fun ref u hu => attachWith_kept u ref _ _ _ _ _ _ _ _ _ _ hu
  | streamDetach => exact act_descriptor_kept h fun ref u hu => detachWith_kept u ref _ hu
  | doorbellPoll => exact act_kept h fun u hu => poll_kept u _ hu
  | blockLanded => exact act_kept h fun u hu => blockLanded_kept u _ _ hu
  | blockConsumed => exact act_kept h fun u hu => blockConsumed_kept u _ hu
  | underrunDeclare => exact act_kept h fun u hu => underrun_kept u _ hu
  | resumeTest => exact act_kept h fun u hu => resumeTest_kept u _ hu
  | keepPositionTest => exact act_kept h fun u hu => keepTest_kept u _ hu
  | streamReentry => exact act_kept h fun u hu => reentry_kept u _ hu
  | streamDrained => exact act_kept h fun u hu => drained_kept u _ hu
  | dacSupplyValid => exact act_kept h fun u hu => dacValid_kept u _ hu
  | darkNFall => exact act_kept h fun u hu => darkFall_kept u hu
  | darkNRise => exact act_kept h fun u hu => darkRise_kept u hu
  | rangeGainSwitch => exact act_kept h fun u hu => gainSwitch_kept u _ hu
  | rangeResume => exact act_kept h fun u hu => rangeDone_kept u _ hu
  | markerSettingApply => exact act_kept h fun u hu => markerSettle_kept u _ _ hu
  | biasTick => exact act_kept h fun u hu => biasTickNow_kept u _ hu
  | deglitchTrack => exact act_kept h fun u hu => deglitch_kept u _ hu
  | lookoutMeasure => exact act_kept h fun u hu => lookMeasure_kept u _ _ hu
  | lookoutBlockEnd => exact act_kept h fun u hu => lookBlock_kept u _ hu
  | cellSwap => exact act_kept h fun u hu => cellSwapEdge_kept u _ hu
  | bandFound => exact onMer_kept h fun u hu => bandFound_kept u _ _ _ hu
  | loopLocked => exact onMer_kept h fun u hu => locked_kept u _ _ hu
  | lockLoss => exact onMer_kept h fun u hu => lockLost_kept u _ _ hu
  | refValid => exact onMer_kept h fun u hu => refIsValid_kept u _ hu
  | refLost => exact onMer_kept h fun u hu => refIsLost_kept u _ hu
  | dpllBwStep => exact onMer_kept h fun u hu => bwStep_kept u _ hu
  | dpllLock => exact onMer_kept h fun u hu => dpllLocked_kept u _ hu
  | refOffsetMeasured => exact onMer_kept h fun u hu => offsetMeasured_kept u _ _ hu
  | slewDone => exact onMer_kept h fun u hu => slewEnds_kept u _ hu
  | delayWalkStep => exact onMer_kept h fun u hu => delayStep_kept u _ _ hu
  | syncEdge => exact act_kept h fun u hu => syncArrives_kept u _ hu
  | syncApply => exact act_kept h fun u hu => applySync_kept u hu
  | measureEcho => exact execMeasureEcho_kept h
  | twinTrim => exact act_kept h fun u hu => trimTwin_kept u _ _ hu
  | clockPresenceLoss => exact act_kept h fun u hu => presenceLost_kept u _ hu
  | failoverSwitchDone => exact act_kept h fun u hu => switchDone_kept u _ hu
  | transitEdge => exact act_kept h fun u hu => edgeArrives_kept u _ _ _ _ hu
  | inputStuck => exact act_kept h fun u hu => inputIsStuck_kept u _ hu
  | inputRelease => exact act_kept h fun u hu => inputIsReleased_kept u _ hu
  | interpCalDone => exact onMer_kept h fun u hu => calDone_kept u _ _ hu
  | enginePairTimeout => exact onMer_kept h fun u hu => engPairLate_kept u _ _ hu
  | taskInputActivate => exact act_kept h fun u hu => taskEvent_kept u _ _ _ hu
  | pendingActivationStart => exact act_kept h fun u hu => startPending_kept u _ hu
  | deliveryComplete => exact act_kept h fun u hu => deliveryEnds_kept u _ hu
  | legTimeout => exact act_kept h fun u hu => legStuck_kept u _ hu
  | timerExpire => exact act_kept h fun u hu => timerExpires_kept u _ hu
  | timerDeferredPublish => exact act_kept h fun u hu => timerCatchUp_kept u _ hu
  | evOutPulseEnd => exact act_kept h fun u hu => pulseEnds_kept u _ hu
  | routineStart => exact act_kept h fun u hu => startRoutine_kept u _ hu
  | microwordExecute => exact execMicrowordExecute_kept h
  | releaseDone => exact act_kept h fun u hu => released_kept u _ hu
  | waitConditionMet => exact act_kept h fun u hu => waitMet_kept u _ hu
  | waitTimeout => exact act_kept h fun u hu => waitExpires_kept u _ hu
  | runLimit => exact act_kept h fun u hu => runTooLong_kept u _ hu
  | unitOpComplete => exact act_kept h fun u hu => unitEnds_kept u _ _ _ hu
  | regPollRead => exact act_kept h fun u hu => pollReads_kept u _ hu
  | storeScrubRead => exact act_kept h fun u hu => scrubWord_kept u _ _ _ hu
  | ownerImageWrite => exact act_kept h ownerWritten_kept
  | progressReport => exact act_kept h fun u hu => progressNow_kept u _ hu
  | shadowReport => exact act_kept h fun u hu => relayCheck_kept _ (shadowTakes_kept u _ hu)
  | shadowSilent => exact act_kept h fun u hu => relayCheck_kept _ (silence_kept u _ hu)
  | recoverStoreRewritten => exact act_kept h fun u hu => relayCheck_kept _ (recover_kept u _ hu)
  | memRequestArrive => exact act_kept h fun u hu => memArrive_kept u _ _ hu
  | memCommandIssue => exact act_kept h fun u hu => commandIssue_kept u _ _ _ hu
  | writeDone => exact act_kept h fun u hu => writeDone_kept u _ _ hu
  | refreshInterval => exact execRefreshInterval_kept h
  | tempRead => exact act_kept h fun u hu => temperature_kept u _ _ _ _ hu
  | nbrLfsrReseed => exact execNbrLfsrReseed_kept h
  | scrubReadDone => exact act_kept h fun u hu => scrubRead_kept u _ _ _ hu
  | caparAlert => exact act_kept h fun u hu => parityAlert_kept u _ _ _ hu
  | edcFail => exact act_kept h fun u hu => detectionFails_kept u _ _ _ _ hu
  | spareRetrainDone => exact act_kept h fun u hu => spareRetrained_kept u _ _ hu
  | migrationStripeDone => exact act_kept h fun u hu => stripeMigrated_kept u _ hu
  | srIdleTimeout => exact act_kept h fun u hu => idleEntry_kept u _ hu
  | srExit => exact act_kept h fun u hu => selfRefreshExit_kept u _ hu
  | freqChangeDone => exact act_kept h fun u hu => freqDone_kept u _ hu
  | pbAccess => exact act_kept h fun u hu => plateAccess_kept u _ _ _ _ _ _ hu
  | pbWriteRetry => exact act_kept h fun u hu => plateRetry_kept u _ _ hu
  | pbTestStart => exact act_kept h fun u hu => testStart_kept u _ _ hu
  | pbTestPhaseDone => exact act_kept h fun u hu => testPhase_kept u _ _ _ _ hu
  | pbRestoreDone => exact act_kept h fun u hu => restoreDone_kept u _ _ hu
  | pbRowCopyDone => exact act_kept h fun u hu => rowCopied_kept u _ _ hu
  | nop => exact act_descriptor_kept h fun ref u hu => complete_kept u ref _ _ hu
  | loadSeg => exact act_descriptor_kept h fun ref u hu => loadSegment_kept u ref _ _ _ _ hu
  | readSeg => exact act_descriptor_kept h fun ref u hu => readSegment_kept u ref _ _ _ _ hu
  | loadImage => exact act_descriptor_kept h fun ref u hu => loadImageBytes_kept u ref _ _ _ hu
  | start | stop | swap => exact act_descriptor_kept h fun ref u hu => itemDescriptor_kept u ref _ hu
  | snapshot => exact act_descriptor_kept h fun ref u hu => snapAsked_kept u _ hu
  | snapshotLatch => exact act_kept h fun u hu => snapLatch_kept u _ hu
  | snapshotComplete => exact act_kept h snapDone_kept
  | inject => exact execInject_kept h
  | testPbPass => exact execTestPbPass_kept h
  | testLookSelf => exact execTestLookSelf_kept h
  | testScrubPass => exact execTestScrubPass_kept h
  | testFaultInject => exact execTestFaultInject_kept h
  | keyEnrollOwner => exact act_descriptor_kept h fun ref u hu => enroll_kept u ref _ hu
  | keyAttest => exact act_descriptor_kept h fun ref u hu => attest_kept u ref _ _ hu
  | keyFuseDark => exact act_descriptor_kept h fun ref u hu => fuseDark_kept u ref _ _ hu
  | beginTxn => exact execBeginTxn_kept h
  | setItems => exact execSetItems_kept h
  | commitImmediate | commitAtUgc | commitOnChannel => exact act_descriptor_kept h fun ref u hu => commitSlot_kept u ref _ hu
  | txnApply => exact act_kept h fun u hu => takeEffect_kept u _ hu
  | rollback => exact act_descriptor_kept h fun ref u hu => rollbackSlot_kept u ref hu
  | ringSetup => exact act_descriptor_kept h fun ref u hu => setUpRing_kept u ref _ _ _ _ _ _ _ _ _ hu
  | ringTeardown => exact act_descriptor_kept h fun ref u hu => tearDownRing_kept u ref _ _ hu
  | watchdog => exact act_descriptor_kept h fun ref u hu => setWatchdog_kept u ref _ _ _ hu
  | abortFunction => exact act_kept h fun u hu => acceptAbort_kept u _ _ hu fun f v hv => abortAll_kept v f hv
  | abortChannels => exact act_kept h fun u hu => acceptAbort_kept u _ _ hu fun f v hv => abortMask_kept v f _ hv
  | descriptorInvalid => exact act_kept h fun u hu => invalidEnds_kept u _ _ hu
  | reportPost => exact act_kept h fun u hu => postReport_kept u _ hu
  | msixSend => exact act_kept h fun u hu => sendVector_kept u _ hu
  | coalTimeout => exact act_kept h fun u hu => coalesced_kept u _ hu
  | hostLinkDown => exact act_kept h fun u hu => linkDown_kept u _ hu
  | hostLinkUp => exact act_kept h fun u hu => linkComes_kept u _ _ _ hu
  | d3hotEntry => exact act_kept h fun u hu => toD3_kept u _ hu
  | watchdogHeartbeat => exact act_kept h heartbeat_kept
  | hostTimeout => exact act_kept h hostLost_kept
  | dmaReadTimeout => exact execDmaReadTimeout_kept h
  | dmaBadCompletion => exact act_kept h fun u hu => dmaFails_kept u _ hu
  | registerWrite | maskedWrite => exact act_kept h fun u hu => bar0Write_kept u _ _ _ _ hu
  | rcFieldRead | loRegisterRead => exact act_kept h fun u hu => bar0Read_kept u _ _ hu
  | voteSweep => exact act_kept h fun u hu => sweep_kept u _ hu
  | startBegin => exact next_kept h (startNowWith_kept s _ (kept_refl s))
  | laidupExitDone => exact next_kept h (laidExit_kept s _ (kept_refl s))
  | resetNLow | powerGoodLow => exact next_kept h (fullReset_kept _ _ (kept_power (kept_refl s)))
  | perst => exact execPerst_kept h
  | dieReturn => exact execDieReturn_kept h
  | readmitDone => exact next_kept h (lampReadmitted_kept s _ (kept_refl s))
  | ageingLog => exact act_kept h fun u hu => ageing_kept u hu
  | ledgerCompactDone => exact act_kept h fun u hu => compacted_kept u _ _ hu
  | attKeyGenDone => exact act_kept h keyReady_kept
  | hatchChallenge => exact act_kept h challengeNow_kept
  | hatchUnlock => exact act_kept h fun u hu => unlock_kept u _ hu
  | hatchOpenDone => exact act_kept h hatchOpens_kept
  | hatchBypass => exact next_kept h (bypass_kept s _ (kept_refl s))
  | hatchIdcode => exact next_kept h (kept_resp (kept_refl s))
  | hatchSamplePreload | hatchExtest => exact next_kept h (boardTest_kept s (kept_refl s))
  | smbStatus => exact next_kept h (smbStatus_kept s (kept_refl s))
  | smbTemps => exact next_kept h (smbTemps_kept s (kept_refl s))
  | smbPower => exact next_kept h (smbPower_kept s (kept_refl s))
  | smbCase => exact next_kept h (smbCase_kept s (kept_refl s))
  | smbAvail => exact next_kept h (smbAvail_kept s (kept_refl s))
  | smbSerial => exact next_kept h (smbSerial_kept s (kept_refl s))
  | smbRails => exact next_kept h (smbRails_kept s (kept_refl s))
  | smbAlertResponse => exact next_kept h (smbAlert_kept s (kept_refl s))
  | railMonitorTrip => exact act_kept h fun u hu => railTrips_kept u _ _ hu
  | telemetryRefresh => exact next_kept h (telemetry_kept s _ _ _ _ (kept_refl s))
  | regTimeout => exact act_kept h fun u hu => accessTimesOut_kept u _ hu
  | openRowTimeout => exact act_kept h fun u hu => rowTimeout_kept u _ _ _ _ hu
  | dieHeartbeatMissed => exact act_kept h fun u hu => loseLamp_kept u _ hu
end

/-! ### Commands and steps -/

theorem kept_frame {s t : State} (h : Kept s t) : t.pending = s.pending ∧ (s.Canonical → t.Canonical) := ⟨h.1, h.2 addr_injective⟩

theorem step_nil {s : State} (h : s.pending = []) : step s = .next s.idle := by simp only [step, h]

theorem step_cons {s : State} {c : Instr} {cs : List Instr} (h : s.pending = c :: cs) : step s = exec c { s with pending := cs } := by simp only [step, h]

theorem step_frame {s t : State} (h : step s = .next t) : t.pending = s.pending.drop 1 ∧ (s.Canonical → t.Canonical) := by
  cases hp : s.pending with
  | nil =>
    have ht := kept_frame (next_kept (step_nil hp ▸ h) (idle_kept s (kept_refl s)))
    exact ⟨by rw [ht.1, hp]; rfl, ht.2⟩
  | cons c cs => exact kept_frame (exec_kept c (step_cons hp ▸ h))

/-- Settles O4: a command keeps the queue and the canonical form, as its operation does; a step is the front command on the rest of the queue, or the idle tick. -/
theorem stateStaysCanonical : Obligations.StateStaysCanonical :=
  ⟨fun c _ _ h => kept_frame (exec_kept c h), fun _ _ h => step_frame h⟩

end Sys2Proof.Proofs
end

section
/-! A write of a whole register over BAR0, and what the write of a frequency word stores (R119, R370, R373). -/
namespace Sys2Proof.Proofs
open Sys2Proof Sys2Proof.Machine Sys2Proof.Laws

/-! ### A write that reaches its register -/

/-- Every register lies on a word of the set-up map, below the windows of the masked writes (R368, R381). -/
theorem addr_mapped (r : Reg) : r.addr % 4 = 0 ∧ r.addr < 0x1000000 := by
  cases r with
  | ext x => cases x <;> simp only [Reg.addr, true_and] <;> omega
  | glob x => cases x <;> simp only [Reg.addr, true_and] <;> omega
  | eng m e q => cases q <;> simp only [Reg.addr] <;> omega
  | _ => simp only [Reg.addr, lampBase, true_and]; omega

theorem bar0Of_addr (r : Reg) : bar0Of r.addr = .reg r := by
  obtain ⟨hword, hlow⟩ := addr_mapped r
  unfold bar0Of
  rw [if_neg (by omega), if_neg (by omega), ofAddr?_addr]

theorem writeReaches_iff {s : State} {f : Func} {r : Reg} :
    s.writeReaches f r = true ↔
      s.bar0Up f = true ∧ ((s.halted && !haltedServes r.addr) || !s.windowUp r.addr || s.mirrorOnly r.addr r) = false ∧ s.claimed r = false := by
  simp only [State.writeReaches, Bool.and_eq_true, Bool.or_eq_false_iff, Bool.not_eq_true', Bool.not_eq_false', and_assoc]

/-- The state with no reply, as a write leaves it. -/
def silent (s : State) : State := { s with resp := .none }

/-- A write that reaches its register is a write to that register, with no reply (R336, R398). -/
theorem regWrite_eq_writeReg {s : State} {f : Func} {r : Reg} (v : Word) (h : s.writeReaches f r = true) :
    s.regWrite f r v = (silent s).writeReg (.func f) r 0xFFFFFFFF v := by
  obtain ⟨hup, hopen, -⟩ := writeReaches_iff.1 h
  have hbar : s.regWrite f r v = (silent s).windowWrite (.func f) r.addr r 0xFFFFFFFF v := by
    simp only [State.regWrite, State.bar0Write, hup, bar0Of_addr, not_true_eq_false, if_false, ne_eq, silent]
  exact hbar.trans (if_neg (Bool.eq_false_iff.1 hopen))

/-- A write of a whole register that reaches it acts field by field, but for the registers of the features (R372). -/
theorem regWrite_eq_putReg {s : State} {f : Func} {r : Reg} (v : Word) (h : s.writeReaches f r = true)
    (hn : r.fields.any (fun f => f.named 0xFFFFFFFF) = true) (hr : ∀ k, r ≠ .glob (.featAccept k)) :
    s.regWrite f r v = (silent s).putReg (.func f) r 0xFFFFFFFF v := by
  obtain ⟨-, -, hc⟩ := writeReaches_iff.1 h
  have hfree : ¬ (!(Writer.func f).isTxn && (silent s).claimed r) = true := by
    rw [show (silent s).claimed r = false from hc, Bool.and_false]; exact Bool.false_ne_true
  rw [regWrite_eq_writeReg v h, State.writeReg, if_neg (not_not_intro hn), if_neg hfree]
  exact hr

/-! ### What a write changes besides its effect -/

/-- `t` is `s` after what a write of `r` stores and notes: the register, the reply, the free value, the voted copies, the parity and the master store. -/
def Recorded (s t : State) (r : Reg) : Prop :=
  t = { s with regs := t.regs, resp := t.resp, free := t.free, copies := t.copies, badPar := t.badPar, power := t.power } ∧ ∀ q, q ≠ r → t.rd q = s.rd q

section
variable {s t : State} {r : Reg}

theorem Recorded.wr (h : Recorded s t r) (w : Word) : Recorded s (t.wr r w) r :=
  ⟨by rw [h.1]; rfl, fun q hq => (rd_wr_ne t w hq).trans (h.2 q hq)⟩

theorem Recorded.sound (h : Recorded s t r) (q : Reg) (m : Word) : Recorded s (t.sound q m) r := by
  unfold State.sound
  split
  · exact h
  · exact ⟨by rw [h.1], h.2⟩

theorem Recorded.fresh (h : Recorded s t r) : Recorded s t.fresh.2 r := ⟨by rw [h.1]; rfl, h.2⟩

theorem Recorded.toMaster (h : Recorded s t r) (q : Reg) (w : Word) : Recorded s (t.toMaster q w) r := by
  unfold State.toMaster
  split
  · exact ⟨by rw [h.1]; rfl, h.2⟩
  · exact h

theorem Recorded.refl (s : State) (r : Reg) : Recorded s s r := ⟨rfl, fun _ _ => rfl⟩
theorem Recorded.silent (s : State) (r : Reg) : Recorded s (silent s) r := ⟨rfl, fun _ _ => rfl⟩
theorem Recorded.chans (h : Recorded s t r) : t.chans = s.chans := (congrArg State.chans h.1).trans rfl
theorem Recorded.clock (h : Recorded s t r) : t.clock = s.clock := (congrArg State.clock h.1).trans rfl
theorem Recorded.granC (h : Recorded s t r) (c : ChanId) : t.granC c = s.granC c := by simp only [State.granC, State.gran, h.clock]
theorem Recorded.host (h : Recorded s t r) : t.host = s.host := (congrArg State.host h.1).trans rfl
theorem Recorded.moor (h : Recorded s t r) : t.moor = s.moor := (congrArg State.moor h.1).trans rfl
theorem Recorded.plate (h : Recorded s t r) : t.plate = s.plate := (congrArg State.plate h.1).trans rfl

end

@[simp] theorem toMaster_rd (s : State) (r q : Reg) (w : Word) : (s.toMaster r w).rd q = s.rd q := by
  unfold State.toMaster
  split <;> rfl
@[simp] theorem sound_rd (s : State) (r q : Reg) (m : Word) : (s.sound r m).rd q = s.rd q := by
  unfold State.sound
  split <;> rfl

theorem toMaster_updNco (s : State) (c : ChanId) (f : Nco → Nco) (r : Reg) (w : Word) : (s.updNco c f).toMaster r w = (s.toMaster r w).updNco c f := by
  unfold State.toMaster
  split <;> rfl

theorem sameBytes_of_eq {s t : State} (hh : t.host = s.host) (hm : t.moor = s.moor) (hp : t.plate = s.plate) : s.SameBytes t := by
  simp only [State.SameBytes, hh, hm, hp, implies_true, and_self]

theorem full_mask (old v : Word) : (old &&& ~~~(0xFFFFFFFF : Word)) ||| (v &&& 0xFFFFFFFF) = v := by
  change (old &&& ~~~(BitVec.allOnes 32)) ||| (v &&& BitVec.allOnes 32) = v
  rw [BitVec.not_allOnes, BitVec.and_zero, BitVec.and_allOnes, BitVec.zero_or]

theorem empty_mask (old v : Word) : (old &&& ~~~(0 : Word)) ||| (v &&& 0) = old := by
  change (old &&& ~~~(0#32)) ||| (v &&& 0#32) = old
  rw [BitVec.not_zero, BitVec.and_zero, BitVec.and_allOnes, BitVec.or_zero]

/-- The state once a write of `new` has stored the fields it names: their copies are one again and their parity is formed (R373, R378, R380). -/
def stored (s : State) (r : Reg) (m new : Word) : State :=
  (s.wr r ((s.rd r &&& ~~~s.storeMask r m new) ||| (new &&& s.storeMask r m new))).sound r ((s.taken r m).foldl (fun m f => m ||| f.mask) 0)

/-- A write to a register of which no field is locked stores its fields, has its effect, and is copied into the master store (R372, R406). -/
theorem putReg_of_unlocked {s : State} {w : Writer} {r : Reg} {m v new : Word} (hr : r ≠ .ext .pwrCtrl) (hlock : ∀ f, s.fieldLocked r f = false)
    (hnew : r.clamped ((s.live w.owner r &&& ~~~m) ||| (v &&& m)) = new) :
    s.putReg w r m v = (let u := (stored s r m new).afterWrite w r (s.taken r m) new (s.live w.owner r); u.toMaster r (u.masterWord r new)) := by
  have hnone : (r.fields.any fun _ => false) = false := List.any_eq_false.2 fun _ _ => Bool.false_ne_true
  simp only [State.putReg, hlock, hnew, stored, Bool.and_false, hnone, Bool.false_eq_true, if_false]

theorem Recorded.stored {s t : State} {r : Reg} (h : Recorded s t r) (m new : Word) : Recorded s (stored t r m new) r := (h.wr _).sound _ _

/-! ### The write of a frequency word -/

theorem pairSlave_toMaster (s : State) (c : ChanId) (r : Reg) (w : Word) : (s.toMaster r w).pairSlave c = s.pairSlave c := by
  simp only [State.pairSlave, State.paired, State.isSet, fld_eq, toMaster_rd]

theorem freqHold_toMaster (s : State) (c : ChanId) (k : Fin 8) (lo : Word) (r : Reg) (w : Word) :
    (s.freqHold c k lo).toMaster r w = (s.toMaster r w).freqHold c k lo := by
  unfold State.freqHold
  rw [pairSlave_toMaster]
  split
  · rfl
  · exact toMaster_updNco ..

theorem freqWrite_toMaster (s : State) (c : ChanId) (k : Fin 8) (hi g : Nat) (r : Reg) (w : Word) :
    (s.freqWrite c k hi g).toMaster r w = (s.toMaster r w).freqWrite c k hi g := by
  unfold State.freqWrite
  rw [pairSlave_toMaster]
  split
  · rfl
  · exact toMaster_updNco ..

/-- FREQ_LO has a holding place of its own: its register stores no bit of a write (R130). -/
theorem storeMask_lantSecFreqLo (s : State) (c : ChanId) (k : Fin 8) (m x : Word) : s.storeMask (.lantSecFreqLo c k) m x = 0 := by
  have hstaged : ((s.taken (.lantSecFreqLo c k) m).filter (fun f => f.access != .act && f.access != .staged && !s.ownWay (.lantSecFreqLo c k) f x)) = [] := by
    refine List.filter_eq_nil_iff.2 fun f hf => ?_
    have hf : f = LANT_SECk_FREQ_LO.FREQ_LO := List.mem_singleton.1 (List.mem_filter.1 hf).1
    simp [hf, LANT_SECk_FREQ_LO.FREQ_LO]
  rw [State.storeMask, hstaged]
  rfl

theorem putReg_lantSecFreqLo (s : State) (w : Writer) (c : ChanId) (k : Fin 8) (v : Word) :
    s.putReg w (.lantSecFreqLo c k) 0xFFFFFFFF v = ((stored s (.lantSecFreqLo c k) 0xFFFFFFFF v).toMaster (.lantSecFreqLo c k) v).freqHold c k v := by
  rw [putReg_of_unlocked (r := .lantSecFreqLo c k) (new := v) nofun (fun _ => rfl) (full_mask _ v), ← freqHold_toMaster]
  rfl

/-- The granule edge is one of the next four: a free value says which (R119). -/
theorem putReg_lantSecFreqHi (s : State) (f : Func) (c : ChanId) (k : Fin 8) (v : Word) :
    ∃ i : Fin 4, s.putReg (.func f) (.lantSecFreqHi c k) 0xFFFFFFFF v
      = ((stored s (.lantSecFreqHi c k) 0xFFFFFFFF v).fresh.2.toMaster (.lantSecFreqHi c k) v).freqWrite c k (LANT_SECk_FREQ_HI.FREQ_HI.get v) (s.granC c + 1 + i.val) := by
  have hgran : (stored s (.lantSecFreqHi c k) 0xFFFFFFFF v).granC c = s.granC c := ((Recorded.refl s _).stored _ _).granC c
  refine ⟨⟨(stored s (.lantSecFreqHi c k) 0xFFFFFFFF v).fresh.1.toNat % 4, Nat.mod_lt _ (by decide)⟩, ?_⟩
  rw [putReg_of_unlocked (r := .lantSecFreqHi c k) (new := v) nofun (fun _ => rfl) (full_mask _ v), ← freqWrite_toMaster, ← hgran]
  rfl

/-- A write of FREQ_LO leaves its register as it is; the half is held (R119, R130). -/
theorem regWrite_lantSecFreqLo {s : State} {f : Func} {c : ChanId} {k : Fin 8} (v : Word) (h : s.writeReaches f (.lantSecFreqLo c k) = true) :
    ∃ u, Recorded s u (.lantSecFreqLo c k) ∧ u.rd (.lantSecFreqLo c k) = s.rd (.lantSecFreqLo c k) ∧ s.regWrite f (.lantSecFreqLo c k) v = u.freqHold c k v := by
  refine ⟨_, ((Recorded.silent s _).stored 0xFFFFFFFF v).toMaster _ v, ?_, (regWrite_eq_putReg v h rfl nofun).trans (putReg_lantSecFreqLo ..)⟩
  simp only [toMaster_rd, stored, sound_rd, rd_wr_same, storeMask_lantSecFreqLo, empty_mask]
  rfl

/-- A write of FREQ_HI takes effect with the half held at a granule edge within 4 gc, which a free value says (R119). -/
theorem regWrite_lantSecFreqHi {s : State} {f : Func} {c : ChanId} {k : Fin 8} (v : Word) (h : s.writeReaches f (.lantSecFreqHi c k) = true) :
    ∃ u, ∃ i : Fin 4, Recorded s u (.lantSecFreqHi c k) ∧ s.regWrite f (.lantSecFreqHi c k) v = u.freqWrite c k (LANT_SECk_FREQ_HI.FREQ_HI.get v) (s.granC c + 1 + i.val) := by
  obtain ⟨i, hput⟩ := putReg_lantSecFreqHi (silent s) f c k v
  exact ⟨_, i, ((Recorded.silent s _).stored 0xFFFFFFFF v).fresh.toMaster _ v, (regWrite_eq_putReg v h rfl nofun).trans hput⟩

end Sys2Proof.Proofs
end

section
/-! A chirp from one step of its curvature to the next (R115), and all that the samples' passage through the pipelines changes (R104, R127). -/
namespace Sys2Proof.Proofs
open Sys2Proof Sys2Proof.Machine Sys2Proof.Laws

/-! ### The chirp from one step of its curvature to the next -/

section
variable {x : Nco} {ch : Chirp} (n : Nat)

@[simp] theorem segment_zero (x : Nco) : x.segment 0 = x := by
  unfold Nco.segment
  split
  · simp [Vector.ofFn_getElem]
  · simp [Vector.ofFn_getElem]

@[simp] theorem segment_at (x : Nco) : (x.segment n).at_ = x.at_ + n := by unfold Nco.segment; split <;> rfl
@[simp] theorem segment_chirp (x : Nco) : (x.segment n).chirp = x.chirp := by unfold Nco.segment; split <;> rfl
@[simp] theorem segment_rate (x : Nco) : (x.segment n).rate = x.rate := by unfold Nco.segment; split <;> rfl

theorem segment_freq_bound (h : x.chirp = some ch) : (x.segment n).freq[ch.sector] = x.freq[ch.sector] + BitVec.ofNat 48 n * x.rate.signExtend 48 := by
  simp only [Nco.segment, h]
  exact vector_set_fin_same _ _ _

theorem segment_freq_ne (h : x.chirp = some ch) {k : Fin 8} (hk : k ≠ ch.sector) : (x.segment n).freq[k] = x.freq[k] := by
  simp only [Nco.segment, h]
  exact vector_set_fin_ne _ _ hk

theorem segment_acc_ne (h : x.chirp = some ch) {k : Fin 8} (hk : k ≠ ch.sector) : (x.segment n).acc[k] = x.acc[k] + BitVec.ofNat 48 n * x.freq[k] := by
  simp only [Nco.segment, h, Fin.getElem_fin, Vector.getElem_ofFn, Fin.eta, if_neg hk]

end

/-- The sample of a chirp's next step of the curvature, past sample `t` (R115). -/
def curveEdge (ch : Chirp) (t : Nat) : Nat := ch.start + ((t - ch.start) / 32 + 1) * 32

theorem lt_curveEdge (ch : Chirp) (t : Nat) : t < curveEdge ch t := by unfold curveEdge; omega

theorem chirpTo_of_lt {x : Nco} {ch : Chirp} {t : Nat} (fuel : Nat) (h : x.chirp = some ch) (ht : t < curveEdge ch x.at_) :
    Nco.chirpTo t (fuel + 1) x = x.segment (t - x.at_) := by
  simp only [Nco.chirpTo, h]
  exact if_pos ht

/-- The NCO at the next step of its chirp: one piece up to it, then the curvature joins the rate (R115). -/
def curveStep (x : Nco) (ch : Chirp) : Nco := { x.segment (curveEdge ch x.at_ - x.at_) with rate := x.rate + BitVec.ofInt 40 ch.curv }

theorem curveStep_at (x : Nco) (ch : Chirp) : (curveStep x ch).at_ = curveEdge ch x.at_ :=
  (segment_at _ x).trans (Nat.add_sub_of_le (Nat.le_of_lt (lt_curveEdge ch _)))
theorem curveStep_chirp (x : Nco) (ch : Chirp) : (curveStep x ch).chirp = x.chirp := segment_chirp _ x

theorem chirpTo_of_ge {x : Nco} {ch : Chirp} {t : Nat} (fuel : Nat) (h : x.chirp = some ch) (ht : curveEdge ch x.at_ ≤ t) :
    Nco.chirpTo t (fuel + 1) x = Nco.chirpTo t fuel (curveStep x ch) := by
  simp only [Nco.chirpTo, h, segment_rate]
  exact if_neg (Nat.not_lt.2 ht)

/-- At the step the one after it is still ahead, and no sample is left to pass. -/
theorem chirpTo_curveEdge {x : Nco} {ch : Chirp} (fuel : Nat) (h : x.chirp = some ch) : Nco.chirpTo (curveEdge ch x.at_) (fuel + 2) x = curveStep x ch := by
  have hahead : curveEdge ch x.at_ < curveEdge ch (curveStep x ch).at_ := by
    rw [curveStep_at]
    exact lt_curveEdge ch _
  rw [chirpTo_of_ge _ h (Nat.le_refl _), chirpTo_of_lt _ ((curveStep_chirp x ch).trans h) hahead, curveStep_at, Nat.sub_self, segment_zero]

theorem sync_curveEdge {x : Nco} {ch : Chirp} (h : x.chirp = some ch) (hr : x.runs = true) (hw : x.writes = []) : x.sync (curveEdge ch x.at_) = curveStep x ch := by
  have hx : Nco.applyWrites (curveEdge ch x.at_ + 1) x.writes x = x := by rw [hw, Nco.applyWrites, ← hw]
  rw [Nco.sync, hx, Nco.advance, if_neg (Nat.not_le.2 (lt_curveEdge ch _)), if_pos hr, chirpTo_curveEdge _ h]

/-! ### The samples' passage through the pipelines -/

/-- `t` is `s` after samples have passed pipelines: they, the registers that count and flag samples and the deliveries in flight may differ. -/
def Piped (s t : State) : Prop :=
  t = { s with regs := t.regs, fabric := t.fabric, chans := t.chans } ∧ ∀ x : ChanId, t.chans[x] = { s.chans[x] with pipe := t.chans[x].pipe }

section
variable {s t : State}

theorem Piped.refl (s : State) : Piped s s := ⟨rfl, fun _ => rfl⟩

theorem Piped.ite {p : Prop} [Decidable p] {u : State} (h : Piped s t) (k : Piped s u) : Piped s (if p then t else u) := by
  split
  · exact h
  · exact k

theorem Piped.foldl {α : Type} {f : State → α → State} (hf : ∀ u a, Piped s u → Piped s (f u a)) (l : List α) (h : Piped s t) : Piped s (l.foldl f t) := by
  induction l generalizing t with
  | nil => exact h
  | cons a l ih => exact ih (hf t a h)

theorem Piped.wr (h : Piped s t) (r : Reg) (w : Word) : Piped s (t.wr r w) := ⟨by rw [h.1]; rfl, h.2⟩

theorem Piped.publish (h : Piped s t) (src : Source) (info : Nat) : Piped s (t.publish src info) := by
  have hb := publish_beaconed t src info
  exact ⟨by rw [hb.1, h.1], fun x => by rw [hb.chans]; exact h.2 x⟩

theorem Piped.updPipe (h : Piped s t) (c : ChanId) (f : Pipe → Pipe) : Piped s (t.updPipe c f) := by
  refine ⟨by rw [h.1]; rfl, fun x => ?_⟩
  by_cases hx : x = c
  · rw [hx, State.updPipe, updChan_same, h.2 c]
  · rw [State.updPipe, updChan_ne t _ hx]
    exact h.2 x

theorem Piped.saturated (h : Piped s t) (x : ChanId) (count : Nat) (grans : List Nat) : Piped s (t.saturated x count grans) := by
  have hflag v w f := ((h.wr (.lantSat x) v).wr (.lantStatus x) w).updPipe x f
  exact .ite h (.ite (.foldl (fun u _ hu => hu.publish _ _) _ (hflag _ _ _)) (hflag _ _ _))

theorem Piped.passTo (h : Piped s t) (c x : ChanId) (b : Nat) : Piped s (t.passTo c x b) :=
  .ite h (.saturated (.ite ((h.updPipe x _).wr (.lantStatus x) _) (h.updPipe x _)) _ _ _)

theorem Piped.nco (h : Piped s t) (c : ChanId) : t.chans[c].nco = s.chans[c].nco := by rw [h.2 c]
theorem Piped.clock (h : Piped s t) : t.clock = s.clock := (congrArg State.clock h.1).trans rfl
theorem Piped.host (h : Piped s t) : t.host = s.host := (congrArg State.host h.1).trans rfl
theorem Piped.moor (h : Piped s t) : t.moor = s.moor := (congrArg State.moor h.1).trans rfl
theorem Piped.plate (h : Piped s t) : t.plate = s.plate := (congrArg State.plate h.1).trans rfl

theorem pipeNow_piped (s : State) (c : ChanId) : Piped s (s.pipeNow c) :=
  .ite (.foldl (fun _ x hu => hu.passTo c x _) _ (.refl s)) (.refl s)

end
end Sys2Proof.Proofs
end

section
/-! Frequency words take effect in pairs, and chirp curves step (R115, R119). -/
namespace Sys2Proof.Proofs
open Sys2Proof Sys2Proof.Machine Sys2Proof.Laws

section
variable {s : State} {c : ChanId}

/-! ### The writes of FREQ_LO and FREQ_HI -/

theorem Recorded.pairSlave {u : State} {r : Reg} (h : Recorded s u r) (hr : ∀ x, .lantCtrl x ≠ r) (c : ChanId) : u.pairSlave c = s.pairSlave c := by
  simp only [State.pairSlave, State.paired, State.isSet, fld_eq, h.2 _ (hr _)]

theorem freqHold_of_pairSlave (h : s.pairSlave c = true) (k : Fin 8) (lo : Word) : s.freqHold c k lo = s := if_pos h
theorem freqWrite_of_pairSlave (h : s.pairSlave c = true) (k : Fin 8) (hi g : Nat) : s.freqWrite c k hi g = s := if_pos h
theorem freqHold_eq (h : s.pairSlave c = false) (k : Fin 8) (lo : Word) : s.freqHold c k lo = s.updNco c (fun x => { x with loHeld := x.loHeld.set k lo }) :=
  if_neg (Bool.eq_false_iff.1 h)
theorem freqWrite_eq (h : s.pairSlave c = false) (k : Fin 8) (hi g : Nat) :
    s.freqWrite c k hi g = s.updNco c (fun x => { x with writes := insertWrite ⟨k, BitVec.ofNat 48 (x.loHeld[k].toNat + hi % 2 ^ 16 * 2 ^ 32), 32 * g⟩ x.writes }) :=
  if_neg (Bool.eq_false_iff.1 h)

/-- A word recorded and an NCO changed: the other channels and every byte are as they were. -/
theorem Recorded.updNco {u : State} {r : Reg} (h : Recorded s u r) (c : ChanId) (f : Nco → Nco) :
    (u.updNco c f).chans[c] = { s.chans[c] with nco := f s.chans[c].nco } ∧ (∀ x, x ≠ c → (u.updNco c f).chans[x] = s.chans[x]) ∧ s.SameBytes (u.updNco c f) := by
  refine ⟨?_, fun x hx => ?_, sameBytes_of_eq h.host h.moor h.plate⟩
  · rw [State.updNco, updChan_same, h.chans]
  · rw [State.updNco, updChan_ne _ _ hx, h.chans]

variable {f : Func} {k : Fin 8}

theorem exec_freqLoWrite (ho : s.Ordinary) (v : Word) (h : s.writeReaches f (.lantSecFreqLo c k) = true) :
    ∃ u, Recorded s u (.lantSecFreqLo c k) ∧ s.SameRegs u (fun _ => False) ∧ u.pairSlave c = s.pairSlave c ∧ exec (.freqLoWrite f c k v) s = .next (u.freqHold c k v) := by
  obtain ⟨u, hu, hsame, e⟩ := regWrite_lantSecFreqLo v h
  refine ⟨u, hu, fun r _ => ?_, hu.pairSlave nofun c, e ▸ act_next s [_] (·.regWrite f (.lantSecFreqLo c k) v) ho⟩
  by_cases hr : r = .lantSecFreqLo c k
  · rw [hr, hsame]
  · exact hu.2 r hr

theorem exec_freqHiWrite (ho : s.Ordinary) (v : Word) (h : s.writeReaches f (.lantSecFreqHi c k) = true) :
    ∃ u, ∃ i : Fin 4, Recorded s u (.lantSecFreqHi c k) ∧ u.pairSlave c = s.pairSlave c
      ∧ exec (.freqHiWrite f c k v) s = .next (u.freqWrite c k (LANT_SECk_FREQ_HI.FREQ_HI.get v) (s.granC c + 1 + i.val)) := by
  obtain ⟨u, i, hu, e⟩ := regWrite_lantSecFreqHi v h
  exact ⟨u, i, hu, hu.pairSlave nofun c, e ▸ act_next s [_] (·.regWrite f (.lantSecFreqHi c k) v) ho⟩

/-- FREQ_HI is the low half-word of its register. -/
theorem freqHi_get (v : Word) : LANT_SECk_FREQ_HI.FREQ_HI.get v % 2 ^ 16 = v.toNat % 2 ^ 16 := by
  simp only [FieldSpec.get, LANT_SECk_FREQ_HI.FREQ_HI, Nat.shiftRight_zero, Nat.mod_mod]

/-! ### The step of a chirp's curvature -/

theorem chirpStep_idle (h : s.chans[c].nco.chirp = none ∨ s.chans[c].nco.runs = false) : s.chirpStep c = s := by
  obtain hnone | hr := h
  · simp only [State.chirpStep, hnone]
  · unfold State.chirpStep
    dsimp only
    split
    · rfl
    · exact if_pos (Bool.eq_false_iff.1 hr)

theorem chirpStep_eq {ch : Chirp} (h : s.chans[c].nco.chirp = some ch) (hr : s.chans[c].nco.runs = true) :
    s.chirpStep c = ((s.reachGranC c (ceilDiv (curveEdge ch s.chans[c].nco.at_) 32)).pipeNow c).updNco c (·.sync (curveEdge ch s.chans[c].nco.at_)) := by
  simp only [State.chirpStep, h]
  exact if_neg (not_not_intro hr)

/-- A running chirp with no word waiting: time reaches the granule of the step, the pipelines pass their samples, and the NCO takes the step. -/
theorem exec_chirpCurveStep (ho : s.Ordinary) {ch : Chirp} (h : s.chans[c].nco.chirp = some ch) (hr : s.chans[c].nco.runs = true) (hw : s.chans[c].nco.writes = []) :
    Completes (.chirpCurveStep c) s (fun t => t.chans[c].nco = curveStep s.chans[c].nco ch
      ∧ t.clock = (s.reachGranC c (ceilDiv (curveEdge ch s.chans[c].nco.at_) 32)).clock ∧ s.SameBytes t) := by
  have hp := pipeNow_piped (s.reachGranC c (ceilDiv (curveEdge ch s.chans[c].nco.at_) 32)) c
  refine ⟨_, act_next s [_] (·.chirpStep c) ho, ?_⟩
  rw [chirpStep_eq h hr]
  refine ⟨?_, hp.clock, sameBytes_of_eq (hp.host.trans (reachGranC_host ..)) (hp.moor.trans (reachGranC_moor ..)) (hp.plate.trans (reachGranC_plate ..))⟩
  rw [State.updNco, updChan_same, hp.nco, reachGranC_chans, sync_curveEdge h hr hw]

end

/-- Settles O43: a half of a word is held or joins its pair at the edge a free value names; up to the next step of its curvature a chirp runs in one piece. -/
theorem frequencyWordsPair : Obligations.FrequencyWordsPair := by
  intro s c ho
  refine ⟨fun f k v hp h => ?_, fun f k v hp h => ?_, fun f k v hp h => ?_, fun f k v hp h => ?_, fun h => ?_, fun ch hch hr _ hw => ?_⟩
  · obtain ⟨u, hu, hregs, hpair, e⟩ := exec_freqLoWrite ho v h
    rw [freqHold_eq (hpair.trans hp)] at e
    obtain ⟨hc, hne, hb⟩ := hu.updNco c (fun x => { x with loHeld := x.loHeld.set k v })
    exact ⟨_, e, hc, hne, hregs, hb⟩
  · obtain ⟨u, i, hu, hpair, e⟩ := exec_freqHiWrite ho v h
    rw [freqWrite_eq (hpair.trans hp), freqHi_get] at e
    obtain ⟨hc, hne, hb⟩ := hu.updNco c _
    exact ⟨_, e, ⟨i, hc⟩, hne, hu.2, hb⟩
  · obtain ⟨u, hu, hregs, hpair, e⟩ := exec_freqLoWrite ho v h
    rw [freqHold_of_pairSlave (hpair.trans hp)] at e
    exact ⟨u, e, hu.chans, hregs⟩
  · obtain ⟨u, i, hu, hpair, e⟩ := exec_freqHiWrite ho v h
    rw [freqWrite_of_pairSlave (hpair.trans hp)] at e
    exact ⟨u, e, hu.chans, hu.2⟩
  · exact (act_next s [_] (·.chirpStep c) ho).trans (congrArg _ (chirpStep_idle h))
  · obtain ⟨t, e, hnco, hclock, hb⟩ := exec_chirpCurveStep ho hch hr hw
    refine ⟨t, e, ?_⟩
    dsimp only
    rw [hnco]
    exact ⟨curveStep_at _ ch, rfl, (curveStep_chirp _ ch).trans hch, segment_freq_bound _ hch,
      fun k hk => ⟨segment_freq_ne _ hch hk, segment_acc_ne _ hch hk⟩, hclock, hb⟩

end Sys2Proof.Proofs
end
